-- ==== Sys2Proof/Word.lean ====
section
/-! DEFINITION. The word types of the device and the sparse map that every memory, ring and register file uses. -/

namespace Sys2Proof

/-- A register or descriptor word (R58, R69). -/
abbrev Word := BitVec 32

/-- A byte of a memory, a buffer or a frame. -/
abbrev Byte := BitVec 8

/-- A sparse map: pairs of a key and a value, keys strictly rising. What an unlisted key reads as is given
by each use. `SMap Byte` is a list of `Host.Cell`. -/
abbrev SMap (α : Type) := List (Nat × α)

/-- A memory of bytes: cells at strictly rising addresses, none equal to what an unlisted address reads as. -/
abbrev Memory := List Host.Cell

end Sys2Proof
end

