-- ==== Sys2Proof/Syntax.lean ====
section
/-! DEFINITION. The commands of the block: one constructor of `Instr` per row of spec/opcode_table.json, and the
operand types they carry. -/

namespace Sys2Proof

/-- The 18 clients of a page (R73). -/
inductive Client where
  | pf0
  | vf (i : Fin 15)
  | firmware
  | siteBus
deriving DecidableEq, Repr

/-- SOURCE of a journal entry (R84). -/
inductive Source where
  | pcie | canFd | mgmtEthernet | hubInternal
deriving DecidableEq, Repr

/-- The block types of the manual (R59 and the Figures of each chapter). -/
inductive Block where
  | directory | journal | eventLog | powerState | diePower | powerStage | weir | dieModel
  | energy | tenantEnergy | time | wake | dieFreq | heat | core | arrayGroup | dma | sequencer
  | syncBank | objectPage | admission | jobSlot | stackCtrl | nerius | peerTable | aux | dualIn
  | siteChannel | castle | gateway | canPort | ethPort | uartPort | pmbPort | siteBus
  | boot | spiNor | identity | bridge | bridgeDma | keyStore | keySlot | fuse | tamper | fabricPort
deriving DecidableEq, Repr

/-- A register page, named as its PG_ID names it: block type, instance, die (R59). -/
structure Page where
  blk  : Block
  inst : Nat
  die  : Nat
deriving DecidableEq, Repr

/-- A write to PG_CMD together with the argument and tag of the writer's context (R73, R74). -/
structure Req where
  client : Client
  source : Source
  arg    : Word
  tag    : Word
deriving DecidableEq, Repr

/-- What an event increment is tagged with (R213). -/
inductive Tag where
  | slot (j : Fin 32)
  | siteChannel
  | func (f : Fin 16)
  | site
deriving DecidableEq, Repr

/-- One tagged event increment of a compute die (R213). -/
structure Increment where
  die   : Fin 12
  quad  : Fin 4
  cls   : Fin 18
  count : Nat
  tag   : Tag
deriving DecidableEq, Repr

/-- A temperature sensor (R258). -/
inductive Sensor where
  | die (d : Fin 12) (s : Fin 8)
  | hub (i : Fin 4)
  | stage (i : Fin 4)
  | stack (k : Fin 6)
deriving DecidableEq, Repr

/-- A reading in signed sixteenths of a degree (R263, R264). -/
structure Reading where
  sensor : Sensor
  value  : Int
deriving DecidableEq, Repr

/-- What one correction step senses (R103, R197, R210, R515). Voltages are in 10 mV, stage currents in 10 mA,
the IV rail in 1 mV, aux currents in mA. `readings` are those of the sensors that have updated since (R258). -/
structure Sense where
  v48    : Nat
  iin0   : Nat
  iin1   : Nat
  iout0  : Nat
  iout1  : Nat
  viv0   : Nat
  viv1   : Nat
  aux    : List Nat
  excursion : Bool
  events : List Increment
  readings : List Reading := []
deriving DecidableEq, Repr

/-- A CAN frame (R453, R457, R458). -/
structure CanFrame where
  ident   : BitVec 29
  ide     : Bool
  fdf     : Bool
  brs     : Bool
  payload : List Byte
deriving DecidableEq, Repr

/-- An Ethernet frame as the port receives it (R454). `length` counts from destination MAC to FCS. -/
structure EthFrame where
  dst     : BitVec 48
  src     : BitVec 48
  tags    : List (BitVec 16)
  etype   : BitVec 16
  payload : List Byte
  length  : Nat
  fcsOk   : Bool
deriving DecidableEq, Repr

/-- The outcome of a PMBus transaction (R453, R454). -/
structure PmbResult where
  addr    : BitVec 7
  command : Byte
  proto   : BitVec 4
  data    : List Byte
  pecOk   : Bool
  acked   : Bool
deriving DecidableEq, Repr

/-- Operations of a Nerius frame (R406). -/
inductive NerOp where
  | write | signal | wack | sack | hello | credit | nak | announce | fault | restart | restartResult
deriving DecidableEq, Repr

/-- The Nerius header (R405). -/
structure NerHdr where
  op       : NerOp
  groupTag : BitVec 16
  run      : Word
  srcDev   : BitVec 4
  dstDev   : BitVec 4
  space    : BitVec 2
  die      : BitVec 4
  last     : Bool
  seq      : Word
  ackSeq   : Word
  creditReq  : BitVec 12
  creditRsp  : BitVec 10
  creditCtl  : BitVec 10
  tag      : BitVec 16
  address  : BitVec 64
  obj      : BitVec 16
  act      : Bool
  value    : Word
deriving DecidableEq, Repr

/-- A frame on a Nerius port (R403, R404). `length` counts from destination MAC through FCS, any tag included. -/
structure NerFrame where
  dst     : BitVec 48
  src     : BitVec 48
  tags    : Nat
  etype   : BitVec 16
  fcsOk   : Bool
  length  : Nat
  hdr     : NerHdr
  payload : List Byte
deriving DecidableEq, Repr

/-- Kinds of PTP message of the delay request-response mechanism (R148). -/
inductive PtpKind where
  | sync | followUp | delayReq | delayResp | announce
deriving DecidableEq, Repr

/-- A PTP message as the port takes it: its origin or receive timestamp and its correction, in ns. `rank` is the data set that an
Announce carries, as the best-master-clock algorithm orders them: the smaller is the better master. -/
structure PtpMsg where
  kind    : PtpKind
  domain  : Byte
  udp     : Bool
  oneStep : Bool
  seqId   : BitVec 16
  stamp   : Int
  correction : Int
  rank    : Nat := 0
deriving DecidableEq, Repr

/-- SFDP figures of the fitted flash (R170); `eraseOp` is its 4 KiB erase opcode. -/
structure Sfdp where
  addr4    : Bool
  width    : BitVec 2
  clkMhz   : Byte
  sizeLog2 : BitVec 5
  erase4k  : Bool
  eraseOp  : Byte
  eraseNs  : Nat
  programNs : Nat
deriving DecidableEq, Repr

/-- A hardware unit of a core that completes descriptors (R295, R298). -/
inductive SeqUnit where
  | mma | vec | dma0 | dma1
deriving DecidableEq, Repr

/-- Why a host-link reset happens (R153). -/
inductive LinkResetCause where
  | perstN | hotReset | linkDown
deriving DecidableEq, Repr

/-- A change of a function's PCIe configuration space (R437, R445, R446, R422). -/
inductive PcieCfg where
  | msixEnable (on : Bool)
  | msixMask (vec : Fin 64)
  | vfEnable (on : Bool)
  | maxReadRequest (bytes : Nat)
deriving DecidableEq, Repr

/-- The target of an AtomicOp: a control-space address of PF0 or a VF, or a BAR2 offset (R336, R440). -/
inductive AtomicTarget where
  | control (addr : BitVec 26)
  | vfBar0 (off : BitVec 20)
  | bar2 (off : BitVec 36)
deriving DecidableEq, Repr

/-- An instruction of the IEEE 1149.1 TAP (R574). -/
inductive TapInstr where
  | idcode | bypass | samplePreload | extest | other
deriving DecidableEq, Repr

/-- How an attempt to send in an OWN slot or at slot 0 ends (R497, R502). -/
inductive TxEnd where
  | sent
  | bitError | ackError | lostArbitration | stuffOrForm
deriving DecidableEq, Repr

/-- One camera frame as the CSI receiver sees it (R546, R547). Lines hold raw pixels. -/
structure CamFrame where
  counter   : BitVec 16
  lines     : List (List Nat)
  crcOk     : Bool
  eccBad    : Bool
  eccCorrected : Nat
  ignored   : Nat
deriving DecidableEq, Repr

/-- A tamper cause of R592 that a monitor accepts. -/
inductive Monitor where
  | mesh | supply | clock | thermal
deriving DecidableEq, Repr

/-- An event as a block raises it (R608). -/
structure Event where
  code    : BitVec 16
  die     : BitVec 8
  inst    : BitVec 16
  detailA : BitVec 64
  detailB : Word
deriving DecidableEq, Repr

/-- What a host bridge read or write answers (R426, R444). -/
inductive HostCpl where
  | ok | unsupported | abort | poisoned
deriving DecidableEq, Repr

/-- The commands: one constructor per row of spec/opcode_table.json, in its order. -/
inductive Instr where
  -- register access
  | registerWrite (c : Client) (addr : BitVec 26) (be : BitVec 4) (v : Word)
  | counterLowRead (c : Client) (addr : BitVec 26) (be : BitVec 4)
  | broadcastWrite (c : Client) (page : Fin 1024) (off : BitVec 12) (v : Word)
  | blockEnable (c : Client) (p : Page)
  | blockDisable (c : Client) (p : Page)
  | quiesceReq (c : Client) (p : Page) (on : Bool)
  | drainReq (c : Client) (p : Page)
  | drainClear (c : Client) (p : Page)
  | drainComplete (p : Page)
  | resetReq (c : Client) (p : Page)
  | resetEnd (p : Page)
  | allotRequest (c : Client) (p : Page) (v : Word)
  | allotGrant (p : Page)
  | irqStatClear (c : Client) (p : Page) (v : Word)
  | pgErrClear (c : Client) (p : Page) (v : Word)
  | lockSet (c : Client) (p : Page) (v : Word)
  | commandAcceptDeferred
  | commandComplete (p : Page)
  | journalFetch (c : Client) (hi : Word)
  -- supply and power states
  | brownout (v48 : Nat)
  | brownoutClear (v48 : Nat)
  | stageUndervoltage (v48 : Nat)
  | overvoltageTrip (v48 : Nat)
  | stageFault (stage : Fin 2) (bits : BitVec 4)
  | aoConverterStop
  | coldStart
  | dryExitQualified (v48 : Nat)
  | dieUp (r : Req)
  | dieDown (r : Req)
  | enterDry (r : Req)
  | dieActive (d : Fin 12)
  | coreDomainDown (d : Fin 12)
  | v48MinWrite (c : Client) (v : Word)
  -- clocks, wake and time
  | xtal32Fail
  | wakeOscCalibrate (cycles : Nat)
  | canActivityEdge (port : Fin 4) (recessive : Nat)
  | listenWindowClose (port : Fin 4)
  | dryWakeFrameMatch (port : Fin 4) (f : CanFrame)
  | alarmReached
  | wakePinLevel (pin : Fin 5) (high : Bool)
  | refclkCheck (hz : Option Nat)
  | refclkRetry
  | serviceCoreBoot (sfdp : Option Sfdp)
  | trickleDeclare
  | deferredMarkerWrite
  | deviceTimeHandover
  | synthRelock (core : Fin 192)
  | wallSet (r : Req)
  | alarmWrite (c : Client) (v : Word)
  | ptpMessage (m : PtpMsg)
  | ptpSyncTx
  | servoTimeout
  -- reset, boot and flash
  | hubReset (r : Req)
  | lockstepMismatch
  | watchdogExpire
  | hostLinkReset (cause : LinkResetCause)
  | tapReset
  | fwUpdate (r : Req)
  | fwInitTimeout
  | fwConfirm (r : Req)
  | fwReject (r : Req)
  | flRead (r : Req)
  | flErase (r : Req)
  | flProgram (r : Req)
  | flashBusyTimeout
  -- the Weir
  | grantEpoch (predicted : List Increment)
  | creditRequest (core : Fin 192) (wanted : List (Fin 32 × Fin 3))
  | correct (m : Sense)
  | modelFault
  | modelFaultClear
  | arrayPowerGate (core : Fin 192) (array : Fin 32)
  | retentionSlice
  | quadrantWakeComplete (die : Fin 12) (q : Fin 4)
  | rampRoomEnable (p : Page)
  | floorBreachCut
  | shedAssert
  | shedRelease
  | shedMinExpire
  | setHostCap (r : Req)
  -- energy
  | intervalClose
  | intervalRecordReady
  | energyCheckpoint
  | closeNow (r : Req)
  | energyRecordFetch (c : Client) (p : Page) (hi : Word)
  -- frequency, droop and heat
  | spateEvaluate
  | railSettled (die : Fin 12) (q : Fin 4)
  | opHoursCheckpoint (die : Fin 12)
  | measOverdue (die : Fin 12) (q : Fin 4)
  | ageingMeasureStart (die : Fin 12) (q : Fin 4)
  | ageingMeasureDone (die : Fin 12) (q : Fin 4) (measured : List (Fin 4 × Fin 8 × Int))
  | measure (die : Fin 12) (r : Req)
  | derate (die : Fin 12) (r : Req)
  | droopDetect (core : Fin 192)
  | droopRecover (core : Fin 192)
  | longDroop (core : Fin 192)
  | thermalStep (readings : List Reading) (governed : Nat)
  | thermalTrip (sensor : Sensor) (value : Int)
  | tripDieDown (die : Fin 12)
  | tripClear (r : Req)
  | drFetch (c : Client) (hi : Word)
  -- op streams
  | descriptorIssue (core : Fin 192)
  | descriptorComplete (core : Fin 192) (u : SeqUnit)
  | mma (core : Fin 192)
  | vadd (core : Fin 192)
  | vsub (core : Fin 192)
  | vmul (core : Fin 192)
  | vfma (core : Fin 192)
  | vdiv (core : Fin 192)
  | vsqrt (core : Fin 192)
  | vrcp (core : Fin 192)
  | vrsqrt (core : Fin 192)
  | vexp (core : Fin 192)
  | vexp2 (core : Fin 192)
  | vlog (core : Fin 192)
  | vlog2 (core : Fin 192)
  | vtanh (core : Fin 192)
  | vsigmoid (core : Fin 192)
  | verf (core : Fin 192)
  | vmax (core : Fin 192)
  | vmin (core : Fin 192)
  | vgelu (core : Fin 192)
  | vsilu (core : Fin 192)
  | vcvt (core : Fin 192)
  | vqmx (core : Fin 192)
  | vrsum (core : Fin 192)
  | vrmax (core : Fin 192)
  | vrmin (core : Fin 192)
  | viadd (core : Fin 192)
  | visub (core : Fin 192)
  | vimul (core : Fin 192)
  | vimax (core : Fin 192)
  | vimin (core : Fin 192)
  | dma (core : Fin 192) (eng : Fin 2)
  | wait (core : Fin 192)
  | signalAdd (core : Fin 192)
  | signalSet (core : Fin 192)
  | loop (core : Fin 192)
  | mark (core : Fin 192)
  | endOp (core : Fin 192)
  -- sync objects
  | countWrite (c : Client) (p : Page) (slot : Fin 256) (v : Word)
  | atomicFetchAdd (c : Client) (t : AtomicTarget) (wide : Bool) (operand : BitVec 64)
  | atomicCas (c : Client) (t : AtomicTarget) (wide : Bool) (compare swap : BitVec 64)
  | notifyClear (c : Client) (p : Page) (w : Fin 8) (v : Word)
  | lateResponse (requester bank : Page) (tagOpen : Bool) (epoch : BitVec 16)
  -- jobs
  | bindSlot (r : Req)
  | unbindSlot (r : Req)
  | load (slot : Fin 32) (r : Req)
  | admissionDecide
  | start (slot : Fin 32) (r : Req)
  | cancel (slot : Fin 32) (r : Req)
  | restart (slot : Fin 32) (r : Req)
  | release (slot : Fin 32) (r : Req)
  | jobFault (slot : Fin 32) (cause : Byte) (core : Option (Fin 192)) (detail : Byte)
  | autoRestart (slot : Fin 32)
  -- stacked memory and Nerius
  | patrolScrub (die : Fin 12) (pma : Nat)
  | hostGranulesWrite (c : Client) (v : Word)
  | neriusFrameDiscard (port : Fin 4) (f : NerFrame)
  | neriusWrite (port : Fin 4) (f : NerFrame)
  | neriusSignal (port : Fin 4) (f : NerFrame)
  | wack (port : Fin 4) (f : NerFrame)
  | sack (port : Fin 4) (f : NerFrame)
  | hello (port : Fin 4) (f : NerFrame)
  | neriusCredit (port : Fin 4) (f : NerFrame)
  | nak (port : Fin 4) (f : NerFrame)
  | announce (port : Fin 4) (f : NerFrame)
  | groupFaultFrame (port : Fin 4) (f : NerFrame)
  | neriusRestart (port : Fin 4) (f : NerFrame)
  | restartResult (port : Fin 4) (f : NerFrame)
  | restartResultTimeout (slot : Fin 32)
  | ackTimeout (port : Fin 4) (mac : BitVec 48)
  | creditSendTimer (port : Fin 4) (mac : BitVec 48)
  | linkTrainingLost (port : Fin 4)
  | linkUp (port : Fin 4)
  | trainAttemptFail (port : Fin 4)
  | trainRetry (port : Fin 4)
  -- host bridge
  | bar2Write (off : BitVec 36) (data : List Byte) (poisoned : Bool)
  | bar2Read (off : BitVec 36) (len : Nat)
  | unsupportedRequest (f : Fin 16)
  | winBaseWrite (c : Client) (v : Word)
  | msixUnmask (f : Fin 16) (vec : Fin 64)
  | xfer (f : Fin 16) (r : Req) (host : HostCpl) (data : List Byte)
  | dmaCompletionTimeout (f : Fin 16)
  | vfFlr (t : Fin 15)
  | pf0Flr
  -- gateway
  | canFrameRx (port : Fin 4) (f : CanFrame)
  | ethFrameRx (f : EthFrame)
  | modbusAduRx (uart : Fin 2) (bytes : List Byte)
  | rawUartRx (uart : Fin 2) (bytes : List Byte)
  | pmbusPoll (bus : Fin 2) (entry : Fin 32) (r : PmbResult)
  | pmbusAlertRead (bus : Fin 2) (r : PmbResult)
  | egressSend (port : Fin 13)
  | slowDeliver
  | routeSet (r : Req)
  | routeGet (r : Req)
  | rootSet (r : Req)
  | gwSave (r : Req)
  -- site bus
  | referenceRx (f : CanFrame)
  | referenceTx (e : TxEnd)
  | refMissed
  | masterListenExpire
  | ownSlotTx (slot : Byte) (e : TxEnd)
  | powerStateRx (f : CanFrame) (authOk : Bool) (keyIn : Fin 128)
  | psHoldExpire
  | siteBusCommand (f : CanFrame) (authOk : Bool) (keyIn : Fin 128)
  | mgmtCommand (srcMac : BitVec 48) (srcIp : Word) (srcPort : BitVec 16) (payload : List Byte)
  | commandReply
  | wakeVerify
  | wakeFrameRx (port : Fin 4) (f : CanFrame)
  | wakeAckTx
  | wakeSend (r : Req)
  | wakeSendRepeat
  | wakeAckRx (f : CanFrame)
  -- aux outputs and dual-channel inputs
  | auxSet (r : Req)
  | auxClear (r : Req)
  | inrushSettled (n : Fin 8)
  | inrushTimeout (n : Fin 8) (current : Nat)
  | auxLimitEnter (n : Fin 8) (current : Nat)
  | auxOverload (n : Fin 8)
  | auxShort (n : Fin 8) (current : Nat)
  | auxGrantExcess (currents : List Nat)
  | auxEscalate (currents : List Nat)
  | auxReleaseCheck (currents : List Nat)
  | dualChannelDisagree (tamperPair : Bool)
  | epoAccept (asserted : Bool)
  | discrepancyFault (tamperPair : Bool)
  | clearReady (tamperPair : Bool)
  | epoReset (r : Req)
  | discClear (r : Req)
  | alertHoldExpire
  -- site channel and Castle table
  | csiFrameStart (f : CamFrame)
  | testPatternInject (lines : List (List Nat))
  | frameTimeout
  | preprocessWrite
  | telemetryRx (port : Fin 13) (k0 : Word) (payload : List Byte)
  | sourceAgeExpire (n : Fin 32)
  | stageWindowClose (st : Fin 6)
  | compare
  | publish
  | resultAgeExpire
  | castleEvaluate
  | castlePsInject
  | siteLoad
  | castle (r : Req)
  | uncastle (r : Req)
  | scReload (r : Req)
  -- security
  | fuseProgram (r : Req)
  | keyGen (r : Req)
  | keyImport (r : Req)
  | keyExport (r : Req)
  | keyDerive (r : Req)
  | keyAgree (r : Req)
  | keyDelete (r : Req)
  | attest (r : Req)
  | challenge (r : Req)
  | zeroize (r : Req)
  | tamperClear (r : Req)
  | getPub (r : Req)
  | tamperMonitorTrip (m : Monitor)
  | epochAdvance
  | keyCopyOverwrite
  | bistRun (m : Monitor) (tripped : Bool) (stillReports : Bool)
  | entropyFail (proportion : Bool)
  | entropyRecover
  -- event recorder
  | eventRaise (e : Event)
  | eventRecordWrite
  | opSecondsCheckpoint
  | dryBufferFlush
  | ffFetch (c : Client) (idx : Word)
  | rlFetch (c : Client) (hi : Word)
  | ffClear (r : Req)
  -- events the table lists last
  | tamperAssertionAccept (asserted : Bool)
  | auxLimitingEnd (n : Fin 8) (current : Nat)
  | spateHoldTemperature (die : Fin 12) (sensor : Fin 8) (value : Int)
  | canBusOffRecovery (port : Fin 4)
  | pcieLinkUp (rate : Fin 4) (width : Fin 17)
  | pcieConfigWrite (f : Fin 16) (w : PcieCfg)
  | tapInstructionLoad (instr : TapInstr)
deriving DecidableEq, Repr

end Sys2Proof
end

