-- ==== Sys2Proof/Machine/Store.lean ====
section
/-! DEFINITION. Plain data helpers of every unit: association lists, byte memories in canonical form, bit fields,
byte order and the checksums that the manual names. -/

namespace Sys2Proof.Machine

/-! ### Association lists -/

/-- The value listed at `k`. -/
def Assoc.get {κ α : Type} [DecidableEq κ] : List (κ × α) → κ → Option α
  | [], _ => none
  | (k', v) :: m, k => if k' = k then some v else Assoc.get m k

/-- The value listed at `k`, or `d`. -/
def Assoc.getD {κ α : Type} [DecidableEq κ] (m : List (κ × α)) (k : κ) (d : α) : α :=
  (Assoc.get m k).getD d

/-- `m` with `v` at `k`: in the place of the listed value, or at the end. -/
def Assoc.set {κ α : Type} [DecidableEq κ] : List (κ × α) → κ → α → List (κ × α)
  | [], k, v => [(k, v)]
  | (k', v') :: m, k, v => if k' = k then (k, v) :: m else (k', v') :: Assoc.set m k v

/-- `m` without the values at the keys that `p` picks. -/
def Assoc.drop {κ α : Type} (m : List (κ × α)) (p : κ → Bool) : List (κ × α) :=
  m.filter fun x => !p x.1

/-! ### Byte memories -/

/-- The byte at `a`, where an unlisted address reads as `d`. -/
def Mem.read (d : Byte) : Memory → Nat → Byte
  | [], _ => d
  | (a', b) :: m, a => if a' = a then b else if a < a' then d else Mem.read d m a

/-- `n` bytes from `a` on, of a memory that lists no address below `a`. -/
def Mem.readFrom (d : Byte) : Memory → Nat → Nat → List Byte
  | _, _, 0 => []
  | [], a, n + 1 => d :: Mem.readFrom d [] (a + 1) n
  | (a', b) :: m, a, n + 1 =>
    if a' = a then b :: Mem.readFrom d m (a + 1) n else d :: Mem.readFrom d ((a', b) :: m) (a + 1) n

/-- The bytes from `a` on. -/
def Mem.readN (d : Byte) (m : Memory) (a n : Nat) : List Byte :=
  Mem.readFrom d (m.filter fun c => a ≤ c.1 && c.1 < a + n) a n

/-- The cells of the bytes from `a` on. -/
def Mem.cells (d : Byte) : Nat → List Byte → Memory
  | _, [] => []
  | a, b :: bs => if b = d then Mem.cells d (a + 1) bs else (a, b) :: Mem.cells d (a + 1) bs

/-- `m` with the bytes from `a` on, in canonical form: rising addresses, no entry equal to `d`. -/
def Mem.writeL (d : Byte) (m : Memory) (a : Nat) (bs : List Byte) : Memory :=
  if bs.isEmpty then m
  else (m.filter fun c => c.1 < a) ++ (Mem.cells d a bs ++ m.filter fun c => a + bs.length ≤ c.1)

/-- `m` with every byte of [a, a + n) reading as `d` again. -/
def Mem.forget (m : Memory) (a n : Nat) : Memory :=
  m.filter fun c => !(a ≤ c.1 && c.1 < a + n)

/-- Every address of `m` lies above `lo` and rises, and no entry equals `d`. -/
def Mem.wfAbove (d : Byte) : Option Nat → Memory → Bool
  | _, [] => true
  | none, (a, b) :: m => decide (b ≠ d) && Mem.wfAbove d (some a) m
  | some l, (a, b) :: m => decide (l < a) && decide (b ≠ d) && Mem.wfAbove d (some a) m

/-- The canonical form of a memory whose unlisted bytes read as `d`. -/
def Mem.wf (d : Byte) (m : Memory) : Bool := Mem.wfAbove d none m

/-! ### Bit fields and numbers -/

/-- Bits [lo + w − 1 : lo] of `v` (R6). -/
def bitsOf (v lo w : Nat) : Nat := v / 2 ^ lo % 2 ^ w

/-- Bit `i` of `v`. -/
def bitAt (v i : Nat) : Bool := v / 2 ^ i % 2 == 1

/-- `v` with `x` in bits [lo + w − 1 : lo]. -/
def putBits (v lo w x : Nat) : Nat := v - bitsOf v lo w * 2 ^ lo + x % 2 ^ w * 2 ^ lo

/-- `v` with bit `i` set or cleared. -/
def putBit (v i : Nat) (b : Bool) : Nat := putBits v i 1 b.toNat

/-- The `w` low bits of the two's complement of `i`. -/
def ofInt (w : Nat) (i : Int) : Nat := (i % (2 ^ w : Nat)).toNat

/-- The signed value of `w` bits in two's complement. -/
def toInt (w v : Nat) : Int := if bitAt v (w - 1) then (v % 2 ^ w : Nat) - (2 ^ w : Nat) else (v % 2 ^ w : Nat)

/-- `v` held at the largest value of `w` bits. -/
def satN (w v : Nat) : Nat := min v (2 ^ w - 1)

/-- `a · b`, rounded up to whole units of `c`; 0 for `c = 0`. -/
def ceilDiv (a b : Nat) : Nat := if b = 0 then 0 else (a + b - 1) / b

/-- The nearest integer to n / d, a tie away from zero. -/
def roundAway (q : Rat) : Int :=
  if q < 0 then -((-q + 1 / 2).floor) else (q + 1 / 2).floor

/-- The nearest integer to n / d, a tie to even. -/
def roundEven (q : Rat) : Int :=
  let f := q.floor
  let r := q - f
  if r < 1 / 2 then f else if 1 / 2 < r then f + 1 else if f % 2 = 0 then f else f + 1

/-- The members of [0, n) that `p` picks, rising. -/
def pick (n : Nat) (p : Nat → Bool) : List Nat := (List.range n).filter p

/-- The mask of the members of [0, n) that `p` picks. -/
def maskOf (n : Nat) (p : Nat → Bool) : Nat := (pick n p).foldl (fun m i => m + 2 ^ i) 0

/-- The members of a mask of `n` bits, rising. -/
def bitsSet (n m : Nat) : List Nat := pick n (bitAt m)

/-! ### Byte order (R7) -/

/-- Little-endian bytes of `v`. -/
def leBytes : Nat → Nat → List Byte
  | 0, _ => []
  | n + 1, v => BitVec.ofNat 8 v :: leBytes n (v / 256)

/-- The number that little-endian bytes spell. -/
def leNat : List Byte → Nat
  | [] => 0
  | b :: bs => b.toNat + 256 * leNat bs

/-- Network-order bytes of `v`. -/
def beBytes (n v : Nat) : List Byte := (leBytes n v).reverse

/-- The number that network-order bytes spell. -/
def beNat (bs : List Byte) : Nat := bs.foldl (fun a b => 256 * a + b.toNat) 0

/-- The bytes [i, i + n) of a list, zeros past its end. -/
def sliceB (bs : List Byte) (i n : Nat) : List Byte :=
  let t := (bs.drop i).take n
  t ++ List.replicate (n - t.length) 0

/-- The little-endian words of a list of bytes. -/
def leWords (bs : List Byte) (n : Nat) : List Nat := (List.range n).map fun i => leNat (sliceB bs (4 * i) 4)

/-- The little-endian bytes of words. -/
def wordsBytes (ws : List Nat) : List Byte := ws.flatMap (leBytes 4)

/-- `xs` with `v` at place `i`. -/
def setAt {α : Type} (xs : List α) (i : Nat) (v : α) : List α := xs.set i v

/-! ### Checksums -/

/-- One bit of a reflected CRC with polynomial `p`. -/
def crcBit (p c : Nat) : Nat := if c % 2 = 1 then (c / 2) ^^^ p else c / 2

/-- One byte of a reflected CRC. -/
def crcByte (p c : Nat) (b : Byte) : Nat :=
  let c := c ^^^ b.toNat
  crcBit p (crcBit p (crcBit p (crcBit p (crcBit p (crcBit p (crcBit p (crcBit p c)))))))

/-- CRC-32 of IEEE 802.3. -/
def crc32 (bs : List Byte) : Nat := (bs.foldl (crcByte 0xEDB88320) 0xFFFFFFFF) ^^^ 0xFFFFFFFF

/-- CRC-16 of the Modbus serial line specification. -/
def crcModbus (bs : List Byte) : Nat := bs.foldl (crcByte 0xA001) 0xFFFF

/-- One bit of an unreflected 16-bit CRC with polynomial `p`. -/
def crcBit16 (p c : Nat) : Nat := if c / 32768 % 2 = 1 then ((c * 2) % 65536) ^^^ p else (c * 2) % 65536

/-- One byte of an unreflected 16-bit CRC. -/
def crcByte16 (p c : Nat) (b : Byte) : Nat :=
  let c := c ^^^ (b.toNat * 256)
  crcBit16 p (crcBit16 p (crcBit16 p (crcBit16 p (crcBit16 p (crcBit16 p (crcBit16 p (crcBit16 p c)))))))

/-- CRC-16 with polynomial 0x1021 and initial value 0xFFFF (E2E profile 5 of the site channel's telemetry, R550). -/
def crc16 (bs : List Byte) : Nat := bs.foldl (crcByte16 0x1021) 0xFFFF

end Sys2Proof.Machine
end

