-- ==== Sys2Proof/Machine/Crypto.lean ====
section
/-! DEFINITION. The cryptographic functions that the manual names by their standards: SHA-384 and HMAC (FIPS 180-4,
198-1), AES-256 with CMAC and GCM (FIPS 197, SP 800-38B, 38D), the KDF of SP 800-108, and P-384 (FIPS 186).
PRESUMED (log entry 11): the standards stand outside the manual. -/

namespace Sys2Proof.Machine.Crypto

/-! ### SHA-384 -/

/-- The first `n` primes, below 21². -/
def primes (n : Nat) : List Nat :=
  ((List.range 420).filter fun p =>
    decide (2 ≤ p) && (List.range 21).all fun d => decide (d < 2) || decide (p ≤ d) || decide (p % d ≠ 0)).take n

/-- ⌊v^(1/k)⌋ below 2^b, by its bits. -/
def nthRoot (k v : Nat) : Nat → Nat → Nat
  | 0, r => r
  | b + 1, r => nthRoot k v b (if (r + 2 ^ b) ^ k ≤ v then r + 2 ^ b else r)

/-- Round constants: 64 fractional bits of the cube roots of the first 80 primes. -/
def shaK : List Nat := (primes 80).map fun p => nthRoot 3 (p * 2 ^ 192) 70 0 % 2 ^ 64

/-- Initial state: 64 fractional bits of the square roots of the ninth to sixteenth primes. -/
def shaH : List Nat := ((primes 16).drop 8).map fun p => nthRoot 2 (p * 2 ^ 128) 70 0 % 2 ^ 64

def rotr (n x : Nat) : Nat := (x / 2 ^ n) ||| (x * 2 ^ (64 - n) % 2 ^ 64)

/-- The message schedule, newest word first. -/
def shaExtend : Nat → List Nat → List Nat
  | 0, w => w
  | n + 1, w =>
    let w2 := w.getD 1 0
    let w15 := w.getD 14 0
    let s0 := rotr 1 w15 ^^^ rotr 8 w15 ^^^ (w15 / 2 ^ 7)
    let s1 := rotr 19 w2 ^^^ rotr 61 w2 ^^^ (w2 / 2 ^ 6)
    shaExtend n ((w.getD 15 0 + s0 + w.getD 6 0 + s1) % 2 ^ 64 :: w)

/-- One round on the eight working words. -/
def shaRound (h : List Nat) (kw : Nat × Nat) : List Nat :=
  match h with
  | [a, b, c, d, e, f, g, hh] =>
    let s1 := rotr 14 e ^^^ rotr 18 e ^^^ rotr 41 e
    let ch := (e &&& f) ^^^ ((2 ^ 64 - 1 - e) &&& g)
    let t1 := hh + s1 + ch + kw.1 + kw.2
    let s0 := rotr 28 a ^^^ rotr 34 a ^^^ rotr 39 a
    let maj := (a &&& b) ^^^ (a &&& c) ^^^ (b &&& c)
    [(t1 + s0 + maj) % 2 ^ 64, a, b, c, (d + t1) % 2 ^ 64, e, f, g]
  | _ => h

/-- One 128-byte block. -/
def shaBlock (h : List Nat) (bs : List Byte) : List Nat :=
  let w := (List.range 16).map fun i => beNat (sliceB bs (8 * i) 8)
  let ws := (shaExtend 64 w.reverse).reverse
  ((shaK.zip ws).foldl shaRound h).zipWith (fun a b => (a + b) % 2 ^ 64) h

/-- Padding to whole blocks. -/
def shaPad (bs : List Byte) : List Byte :=
  let n := bs.length
  bs ++ [0x80] ++ List.replicate ((239 - n % 128) % 128) 0 ++ beBytes 16 (8 * n)

/-- The hash of `k` blocks. -/
def shaBlocks : Nat → List Byte → List Nat → List Nat
  | 0, _, h => h
  | k + 1, bs, h => shaBlocks k (bs.drop 128) (shaBlock h (bs.take 128))

/-- SHA-384 as 48 bytes. -/
def sha384 (bs : List Byte) : List Byte :=
  let p := shaPad bs
  ((shaBlocks (p.length / 128) p shaH).take 6).flatMap (beBytes 8)

/-- HMAC-SHA-384. -/
def hmac384 (key msg : List Byte) : List Byte :=
  let k := if 128 < key.length then sha384 key else key
  let k := k ++ List.replicate (128 - k.length) 0
  sha384 (k.map (· ^^^ 0x5C) ++ sha384 (k.map (· ^^^ 0x36) ++ msg))

/-- The counter-mode KDF of R579: `bits` bits. -/
def kdf (key label context : List Byte) (bits : Nat) : List Byte :=
  ((List.range ((bits + 383) / 384)).flatMap fun i =>
    hmac384 key (beBytes 4 (i + 1) ++ label ++ [0] ++ context ++ beBytes 4 bits)).take (bits / 8)

/-! ### AES-256 -/

/-- Doubling in GF(2^8). -/
def xtime (a : Nat) : Nat := if a < 128 then 2 * a else (2 * a) ^^^ 0x11B

/-- The S-box of FIPS 197 as one number, the entry of 0 at its head. -/
def sboxBits : Nat :=
  let s := 0x637C777BF26B6FC53001672BFED7AB76CA82C97DFA5947F0ADD4A2AF9CA472C0
  let s := s * 2 ^ 256 + 0xB7FD9326363FF7CC34A5E5F171D8311504C723C31896059A071280E2EB27B275
  let s := s * 2 ^ 256 + 0x09832C1A1B6E5AA0523BD6B329E32F8453D100ED20FCB15B6ACBBE394A4C58CF
  let s := s * 2 ^ 256 + 0xD0EFAAFB434D338545F9027F503C9FA851A3408F929D38F5BCB6DA2110FFF3D2
  let s := s * 2 ^ 256 + 0xCD0C13EC5F974417C4A77E3D645D197360814FDC222A908846EEB814DE5E0BDB
  let s := s * 2 ^ 256 + 0xE0323A0A4906245CC2D3AC629195E479E7C8376D8DD54EA96C56F4EA657AAE08
  let s := s * 2 ^ 256 + 0xBA78252E1CA6B4C6E8DD741F4BBD8B8A703EB5664803F60E613557B986C11D9E
  let s := s * 2 ^ 256 + 0xE1F8981169D98E949B1E87E9CE5528DF8CA1890DBFE6426841992D0FB054BB16
  s

def subByte (a : Nat) : Nat := sboxBits / 2 ^ (8 * (255 - a)) % 256

/-- SubWord: SubBytes on the four bytes of a word. -/
def subWord (w : Nat) : Nat :=
  subByte (w / 2 ^ 24 % 256) * 2 ^ 24 + subByte (w / 2 ^ 16 % 256) * 2 ^ 16 + subByte (w / 2 ^ 8 % 256) * 2 ^ 8 + subByte (w % 256)

/-- Round-key words, newest first: FIPS 197 key expansion for eight key words. -/
def aesExpand : Nat → Nat → Nat → List Nat → List Nat
  | 0, _, _, w => w
  | n + 1, i, rcon, w =>
    let t := w.headD 0
    let t' := if i % 8 = 0 then subWord (t * 2 ^ 8 % 2 ^ 32 + t / 2 ^ 24) ^^^ (rcon * 2 ^ 24)
      else if i % 8 = 4 then subWord t
      else t
    aesExpand n (i + 1) (if i % 8 = 0 then xtime rcon else rcon) ((w.getD 7 0 ^^^ t') :: w)

/-- The fifteen round keys of a 32-byte key, each as one number. -/
def aesKeys (key : List Byte) : List Nat :=
  let w := (aesExpand 52 8 1 (((List.range 8).map fun i => beNat ((key.drop (4 * i)).take 4)).reverse)).reverse
  (List.range 15).map fun r => ((w.drop (4 * r)).take 4).foldl (fun a x => a * 2 ^ 32 + x) 0

/-- SubBytes and ShiftRows. The state of 16 bytes is one number, column by column, its first byte at the head. -/
def subShift (s : Nat) : Nat :=
  (List.range 16).foldl (fun a i => a * 256 + subByte (s / 2 ^ (8 * (15 - (i + 4 * (i % 4)) % 16)) % 256)) 0

/-- Every byte of the state doubled in GF(2^8). -/
def xtimeAll (s : Nat) : Nat :=
  ((s &&& 0x7F7F7F7F7F7F7F7F7F7F7F7F7F7F7F7F) * 2) ^^^ ((s / 128 &&& 0x01010101010101010101010101010101) * 0x1B)

/-- Every column rotated up by one byte. -/
def rotColumns (s : Nat) : Nat :=
  ((s * 256) &&& 0xFFFFFF00FFFFFF00FFFFFF00FFFFFF00) ||| (s / 2 ^ 24 &&& 0x000000FF000000FF000000FF000000FF)

def mixColumns (s : Nat) : Nat :=
  let r := rotColumns s
  let r2 := rotColumns r
  xtimeAll s ^^^ xtimeAll r ^^^ r ^^^ r2 ^^^ rotColumns r2

/-- The rounds after the first key: the last without MixColumns. -/
def aesRounds : List Nat → Nat → Nat
  | [], s => s
  | [k], s => subShift s ^^^ k
  | k :: k' :: ks, s => aesRounds (k' :: ks) (mixColumns (subShift s) ^^^ k)

/-- AES-256 on one block of 16 bytes. -/
def aesBlock (key block : List Byte) : List Byte :=
  match aesKeys key with
  | [] => []
  | k :: ks => beBytes 16 (aesRounds ks (beNat block ^^^ k))

/-! ### CMAC and GCM -/

def xorB (a b : List Byte) : List Byte := a.zipWith (· ^^^ ·) b

/-- Subkey doubling in GF(2^128) of SP 800-38B. -/
def cmacDouble (bs : List Byte) : List Byte :=
  let v := 2 * beNat bs
  beBytes 16 (if v < 2 ^ 128 then v else (v - 2 ^ 128) ^^^ 0x87)

/-- The CBC chain over `k` blocks. -/
def cbcMac (key : List Byte) : Nat → List Byte → List Byte → List Byte
  | 0, _, c => c
  | k + 1, bs, c => cbcMac key k (bs.drop 16) (aesBlock key (xorB c (bs.take 16)))

/-- AES-256-CMAC: 16 bytes. -/
def cmac (key msg : List Byte) : List Byte :=
  let k1 := cmacDouble (aesBlock key (List.replicate 16 0))
  let n := if msg.isEmpty then 1 else (msg.length + 15) / 16
  let last := msg.drop (16 * (n - 1))
  let last' := if last.length = 16 then xorB last k1
    else xorB (last ++ [0x80] ++ List.replicate (15 - last.length) 0) (cmacDouble k1)
  cbcMac key n (msg.take (16 * (n - 1)) ++ last') (List.replicate 16 0)

/-- The product in GF(2^128) as GCM orders its bits, over `n` bits of `x` from the top. -/
def ghMul : Nat → Nat → Nat → Nat → Nat
  | 0, _, _, z => z
  | n + 1, x, v, z =>
    ghMul n x (if v % 2 = 1 then (v / 2) ^^^ (0xE1 * 2 ^ 120) else v / 2) (if x / 2 ^ n % 2 = 1 then z ^^^ v else z)

/-- Zero padding to whole blocks. -/
def pad16 (bs : List Byte) : List Byte := bs ++ List.replicate ((16 - bs.length % 16) % 16) 0

/-- GHASH over `k` blocks. -/
def ghash (h : Nat) : Nat → List Byte → Nat → Nat
  | 0, _, y => y
  | k + 1, bs, y => ghash h k (bs.drop 16) (ghMul 128 (y ^^^ beNat (bs.take 16)) h 0)

/-- The CTR stream from counter `c` on, over `data`. -/
def gcmCtr (key iv data : List Byte) : List Byte :=
  xorB data ((List.range ((data.length + 15) / 16)).flatMap fun i => aesBlock key (iv ++ beBytes 4 (i + 2)))

/-- The tag of a cipher text. -/
def gcmTag (key iv aad ct : List Byte) : List Byte :=
  let h := beNat (aesBlock key (List.replicate 16 0))
  let x := pad16 aad ++ pad16 ct ++ beBytes 8 (8 * aad.length) ++ beBytes 8 (8 * ct.length)
  xorB (beBytes 16 (ghash h (x.length / 16) x 0)) (aesBlock key (iv ++ beBytes 4 1))

/-- AES-256-GCM encryption with a 12-byte IV: cipher text and tag. -/
def gcmSeal (key iv aad pt : List Byte) : List Byte × List Byte :=
  let ct := gcmCtr key iv pt
  (ct, gcmTag key iv aad ct)

/-- AES-256-GCM decryption, none where the tag differs. -/
def gcmOpen (key iv aad ct tag : List Byte) : Option (List Byte) :=
  if gcmTag key iv aad ct == tag then some (gcmCtr key iv ct) else none

/-! ### P-384 -/

def pP : Nat := 2 ^ 384 - 2 ^ 128 - 2 ^ 96 + 2 ^ 32 - 1
def pN : Nat := 0xFFFFFFFFFFFFFFFFFFFFFFFFFFFFFFFFFFFFFFFFFFFFFFFFC7634D81F4372DDF581A0DB248B0A77AECEC196ACCC52973
def pB : Nat := 0xB3312FA7E23EE7E4988E056BE3F82D19181D9C6EFE8141120314088F5013875AC656398D8A2ED19D2A85C8EDD3EC2AEF
/-- The base point. -/
def pG : Nat × Nat :=
  (0xAA87CA22BE8B05378EB1C71EF320AD746E1D3B628BA79B9859F741E082542A385502F25DBF55296C3A545E3872760AB7,
   0x3617DE4A96262C6F5D9E98BF9292DC29F8F41DBD289A147CE9DA3113B5F0B8C00A60B1CE1D7E819D7A431D7C90EA0E5F)

/-- a^e mod m over the low `k` bits of `e`. -/
def powMod (m : Nat) : Nat → Nat → Nat → Nat
  | 0, _, _ => 1
  | k + 1, a, e => (if e % 2 = 1 then a else 1) * powMod m k (a * a % m) (e / 2) % m

/-- The inverse modulo a 384-bit prime. -/
def invMod (m a : Nat) : Nat := powMod m 384 (a % m) (m - 2)

/-- The sum of two points; none is the point at infinity. -/
def ptAdd : Option (Nat × Nat) → Option (Nat × Nat) → Option (Nat × Nat)
  | none, q => q
  | p, none => p
  | some (x1, y1), some (x2, y2) =>
    if x1 = x2 ∧ (y1 + y2) % pP = 0 then none
    else
      let l := if x1 = x2 then (3 * x1 * x1 + (pP - 3)) * invMod pP (2 * y1) % pP
        else (y2 + pP - y1) * invMod pP (x2 + pP - x1) % pP
      let x3 := (l * l + 2 * pP - x1 - x2) % pP
      some (x3, (l * (x1 + pP - x3) + pP - y1) % pP)

/-- a − b, and a·b, modulo the field's prime. -/
def fSub (a b : Nat) : Nat := (a + pP - b % pP) % pP
def fMul (a b : Nat) : Nat := a * b % pP

/-- Twice a point in Jacobian coordinates; Z = 0 is the point at infinity. -/
def jDouble (p : Nat × Nat × Nat) : Nat × Nat × Nat :=
  let d := fMul p.2.2 p.2.2
  let g := fMul p.2.1 p.2.1
  let b := fMul p.1 g
  let a := fMul 3 (fMul (fSub p.1 d) (p.1 + d))
  let x := fSub (fMul a a) (8 * b)
  (x, fSub (fMul a (fSub (4 * b) x)) (8 * fMul g g), fMul (2 * p.2.1) p.2.2)

/-- The sum of two points in Jacobian coordinates. -/
def jAdd (p q : Nat × Nat × Nat) : Nat × Nat × Nat :=
  if p.2.2 = 0 then q
  else if q.2.2 = 0 then p
  else
    let zp := fMul p.2.2 p.2.2
    let zq := fMul q.2.2 q.2.2
    let u := fMul p.1 zq
    let v := fMul p.2.1 (fMul zq q.2.2)
    let h := fSub (fMul q.1 zp) u
    let r := fSub (fMul q.2.1 (fMul zp p.2.2)) v
    if h = 0 then (if r = 0 then jDouble p else (1, 1, 0))
    else
      let hh := fMul h h
      let w := fMul u hh
      let x := fSub (fMul r r) (fMul hh h + 2 * w)
      (x, fSub (fMul r (fSub w x)) (fMul v (fMul hh h)), fMul h (fMul p.2.2 q.2.2))

/-- k·p over the low `n` bits of `k`, in Jacobian coordinates. -/
def jMul : Nat → Nat → Nat × Nat × Nat → Nat × Nat × Nat
  | 0, _, _ => (1, 1, 0)
  | n + 1, k, p => jAdd (if k % 2 = 1 then p else (1, 1, 0)) (jMul n (k / 2) (jDouble p))

/-- k·p over the low `n` bits of `k`. -/
def ptMul (n k : Nat) : Option (Nat × Nat) → Option (Nat × Nat)
  | none => none
  | some (x, y) =>
    let q := jMul n k (x, y, 1)
    let z := invMod pP q.2.2
    if q.2.2 = 0 then none else some (fMul q.1 (fMul z z), fMul q.2.1 (fMul z (fMul z z)))

/-- A public key of 96 bytes as a point on the curve. -/
def pointOf (bs : List Byte) : Option (Nat × Nat) :=
  let x := beNat (bs.take 48)
  let y := beNat (bs.drop 48)
  if bs.length = 96 ∧ x < pP ∧ y < pP ∧ (y * y) % pP = (x * x * x + (pP - 3) * x + pB) % pP then some (x, y) else none

/-- The public key x‖y of a private scalar. -/
def p384Public (d : Nat) : List Byte :=
  match ptMul 384 d (some pG) with
  | some (x, y) => beBytes 48 x ++ beBytes 48 y
  | none => List.replicate 96 0

/-- The ECDH shared x coordinate, none for a point off the curve. -/
def p384Shared (d : Nat) (peer : List Byte) : Option (List Byte) :=
  match pointOf peer with
  | none => none
  | some p => (ptMul 384 d (some p)).map fun q => beBytes 48 q.1

/-- ECDSA verification of r‖s over a digest. -/
def ecdsaVerify (pub digest sig : List Byte) : Bool :=
  let r := beNat (sig.take 48)
  let s := beNat (sig.drop 48)
  match pointOf pub with
  | none => false
  | some q =>
    if sig.length ≠ 96 ∨ r = 0 ∨ pN ≤ r ∨ s = 0 ∨ pN ≤ s then false
    else
      let w := invMod pN s
      match ptAdd (ptMul 384 (beNat digest * w % pN) (some pG)) (ptMul 384 (r * w % pN) (some q)) with
      | some (x, _) => x % pN == r
      | none => false

/-- The ECDSA signature r‖s over a digest with the nonce `k`. -/
def ecdsaSign (d : Nat) (digest : List Byte) (k : Nat) : List Byte :=
  match ptMul 384 k (some pG) with
  | some (x, _) =>
    let r := x % pN
    beBytes 48 r ++ beBytes 48 (invMod pN k * (beNat digest + r * d) % pN)
  | none => List.replicate 96 0

end Sys2Proof.Machine.Crypto
end

