-- ==== Sys2Proof/Config.lean ====
section
/-! DEFINITION. What one device fixes and the manual leaves open: constants without a body, of which nothing can be
proved. Each stands in an entry of the assumption log. -/

namespace Sys2Proof.Config

/-! ### Free values (log entry 2): each is applied to the state's counter `fresh`, so that every use is its own -/

/-- An open rational value: a fractional power of two in leakage, a modelled draw share, a servo correction. -/
opaque freeRat : Nat → Rat
/-- 2^x at a fraction x, to which no rule gives digits (R190). -/
opaque pow2 : Rat → Rat
/-- An open whole number: a byte, a word, a count. -/
opaque freeNat : Nat → Nat

/-! ### Fuses and calibration of one device (log entry 10) -/

/-- PG_CAPS of a page (R58: per page). -/
opaque pgCaps : Page → Word
/-- Block type of a fabric port's page, which R21 names and no chapter describes (log entry 115). -/
opaque fabricPortType : BitVec 12
/-- Model coefficient i of compute die d as fused (R188). -/
opaque coef : Nat → Nat → Nat
/-- The fused coefficients of die d pass their CRC-16. -/
opaque coefCrcOk : Nat → Bool
/-- EFF entry j from power-stage calibration, units of 2^-16 (R189). -/
opaque eff : Nat → Nat
/-- What one device's V/F fuses hold for core g at point p; `Machine.fusedVf` brings it into R237's range. -/
opaque fusedVf : Nat → Nat → Nat
/-- What one device's identity fuses hold in word w of die d (R174); `Machine.idWord` forms the record. -/
opaque idRecord : Nat → Nat → Word
/-- Die d's identity record reads as it was programmed (R175). -/
opaque idIntact : Nat → Bool
/-- The CRC-16 of a V/F table, whose polynomial no rule gives (R174, R237). -/
opaque tableCrc : List Byte → BitVec 16
/-- FW_KEY_HASH: SHA-384 of the firmware signing key, blown at the factory (R570). -/
opaque fwKeyHash : BitVec 384
/-- The root key that the device draws for itself, fused (R570). -/
opaque rootKey : BitVec 256

/-! ### Device time on the compute dies (log entry 110) -/

/-- By how many ns the copy of device time on die d leads the hub's count at a device time (R142); `Machine.dieTime` holds it within
4 ns. -/
opaque dieLead : Nat → Nat → Int

/-! ### PTP (log entry 111) -/

/-- The data set of this clock as the best-master-clock algorithm orders them (R148): no register holds it. -/
opaque ptpRank : Nat

/-! ### The DRBG (R588, log entry 2) -/

/-- Output of the DRBG, 512 bits for each draw. -/
opaque drbg : Nat → BitVec 512

end Sys2Proof.Config
end

