-- ==== Sys2Proof/Machine/Pages.lean ====
section
/-! DEFINITION. What a page is (R42–R68): its block-type code, class and domain, how its header behaves, and the
form in which a register field is described. -/

namespace Sys2Proof

/-- The place of a client among the 18 contexts of a page (R73); it is also its FUNCTION number (R84). -/
def Client.index : Client → Nat
  | .pf0 => 0
  | .vf i => i.val + 1
  | .firmware => 16
  | .siteBus => 17

/-- A virtual function. -/
def Client.isVf : Client → Bool
  | .vf _ => true
  | _ => false

/-- SOURCE as the journal spells it (R84). -/
def Source.code : Source → Nat
  | .pcie => 0
  | .canFd => 1
  | .mgmtEthernet => 2
  | .hubInternal => 3

end Sys2Proof

namespace Sys2Proof.Machine

/-- Access codes of R16 that a stored field can carry. -/
inductive Acc where
  | ro | rw | rwl | w1c
deriving DecidableEq, Repr

/-- A register field of a page: place, width, repetition, access code, reset value, range of writes, lock bit.
`perClient` marks fields that belong to each client; `derived` marks fields that show other state; `live` marks 64-bit fields that are no
counter of R71: each of their words reads by itself. -/
structure Fld where
  off       : Nat
  lo        : Nat
  w         : Nat
  stride    : Nat := 0
  count     : Nat := 1
  acc       : Acc := .ro
  perClient : Bool := false
  reset     : Nat := 0
  rstep     : Nat := 0
  range     : Option (Nat × Nat) := none
  lock      : Option Nat := none
  derived   : Bool := false
  live      : Bool := false
deriving DecidableEq, Repr

/-- The key of one stored field: its page, its client (0 where shared), the offset and lowest bit of its place. -/
structure RegKey where
  page   : Page
  client : Nat
  off    : Nat
  lo     : Nat
deriving DecidableEq, Repr

/-- Block type codes: PG_ID[31:20] (R59 and the page descriptions). -/
def blockCode : Block → Nat
  | .directory => 0x0F0 | .journal => 0x031 | .eventLog => 0x032 | .powerState => 0x021 | .diePower => 0x022
  | .powerStage => 0x023 | .weir => 0x024 | .dieModel => 0x025 | .energy => 0x041 | .tenantEnergy => 0x042
  | .time => 0x051 | .wake => 0x052 | .dieFreq => 0x053 | .heat => 0x054 | .core => 0x011 | .arrayGroup => 0x012
  | .dma => 0x013 | .sequencer => 0x014 | .syncBank => 0x061 | .objectPage => 0x062 | .admission => 0x071
  | .jobSlot => 0x072 | .stackCtrl => 0x081 | .nerius => 0x091 | .peerTable => 0x092 | .aux => 0x0A1
  | .dualIn => 0x0A2 | .siteChannel => 0x0A3 | .castle => 0x0A4 | .gateway => 0x0B1 | .canPort => 0x0B2
  | .ethPort => 0x0B3 | .uartPort => 0x0B4 | .pmbPort => 0x0B5 | .siteBus => 0x0B6 | .boot => 0x0C1
  | .spiNor => 0x0C2 | .identity => 0x0F1 | .bridge => 0x0D1 | .bridgeDma => 0x0D2 | .keyStore => 0x0E1
  | .keySlot => 0x0E2 | .fuse => 0x0E3 | .tamper => 0x0E4 | .fabricPort => Config.fabricPortType.toNat

/-- Page classes (R51). -/
def classOf : Block → Nat
  | .core | .arrayGroup | .dma | .sequencer => 0
  | .stackCtrl => 1
  | .nerius | .peerTable | .fabricPort => 2
  | .powerState | .diePower | .powerStage | .weir | .dieModel => 3
  | .energy | .tenantEnergy => 4
  | .admission | .jobSlot => 5
  | .syncBank | .objectPage => 6
  | .gateway | .canPort | .ethPort | .uartPort | .pmbPort | .siteBus => 7
  | .aux | .dualIn => 8
  | .siteChannel | .castle => 9
  | .keyStore | .keySlot | .fuse | .tamper => 10
  | .journal | .eventLog => 11
  | .boot | .spiNor => 12
  | .bridge | .bridgeDma => 13
  | .time | .wake | .dieFreq | .heat => 14
  | .directory | .identity => 15

/-- DOMAIN of a directory entry (R50): 0 always-on island, 1 hub, 2 compute die, 3 power stage. -/
def domainOf (p : Page) : Nat :=
  match p.blk with
  | .wake | .dualIn | .tamper => 0
  | _ => if p.die ≤ 11 then 2 else if p.die = 12 then 1 else 3

/-- BCAST: only core, array-group, DMA and die frequency pages take broadcast writes (R45). -/
def bcastOf : Block → Bool
  | .core | .arrayGroup | .dma | .dieFreq => true
  | _ => false

/-- The pages of PF0 of which a VF has a view (R54, R236, R384). -/
def isView : Block → Bool
  | .jobSlot | .tenantEnergy => true
  | _ => false

/-- VF_VIEW: every job-slot page, and tenant energy page t of VF t, of which instance 0 is tenant 0's (R50, R236). -/
def vfViewOf (p : Page) : Bool := isView p.blk && (decide (p.blk ≠ .tenantEnergy) || decide (p.inst ≠ 0))

/-- The block-specific interrupt sources of a page type: bits 8 and up (R66 and the page descriptions). -/
def irqSources : Block → Nat
  | .weir => 6
  | .siteBus => 5
  | .powerState | .heat | .sequencer | .jobSlot | .nerius | .aux | .dualIn | .siteChannel => 3
  | .time | .eventLog => 2
  | .journal | .wake | .energy | .objectPage | .stackCtrl | .gateway | .tamper => 1
  | _ => 0

/-- The bits of PG_IRQ_EN that are not reserved: 4:0 and the block-specific ones (R66). -/
def irqMask (b : Block) : Nat := 0x1F + (2 ^ irqSources b - 1) * 2 ^ 8

/-- The pages that carry an allotment of their own (R65). -/
def hasAllotment : Block → Bool
  | .powerState | .diePower | .dieFreq | .core | .arrayGroup | .dma | .nerius | .gateway | .canPort | .ethPort
  | .uartPort | .pmbPort | .aux | .siteChannel | .keyStore => true
  | _ => false

/-- The pages on which EN has an effect (R65, R485; R123 takes it from the die power page). -/
def enHasEffect : Block → Bool
  | .siteBus => true
  | .diePower | .powerState => false
  | b => hasAllotment b

/-- The lock owner is the block itself, so that a block reset clears PG_LOCK (R63, R68). No page description names
the block itself. -/
def lockOwnerIsBlock (_ : Block) : Bool := false

/-- PG_ID (R59), with page revision 0x01. -/
def pageId (p : Page) : Nat := blockCode p.blk * 2 ^ 20 + p.inst % 256 * 2 ^ 12 + p.die % 16 * 2 ^ 8 + 1

/-- A hub page with instance 0. -/
def hubPage (b : Block) : Page := { blk := b, inst := 0, die := 12 }

/-- Instance `i` of a block type on a die. -/
def pageOf (b : Block) (i d : Nat) : Page := { blk := b, inst := i, die := d }

/-- The page of core g of each per-core block type (R265: g = 16·d + c). -/
def corePage (b : Block) (g : Nat) : Page := { blk := b, inst := g % 16, die := g / 16 }

/-- The die that carries Nerius port p (R21). -/
def neriusDie (p : Nat) : Nat := if p = 0 then 0 else if p = 1 then 3 else if p = 2 then 8 else 11

/-- The page of Nerius port p (R402). -/
def neriusPage (p : Nat) : Page := { blk := .nerius, inst := p, die := neriusDie p }

/-- The page of gateway port p, 0–8 (R484). -/
def portPage (p : Nat) : Page :=
  { blk := if p ≤ 3 then .canPort else if p = 4 then .ethPort else if p ≤ 6 then .uartPort else .pmbPort,
    inst := p, die := 12 }

/-- The directory head page (R48). -/
def headPage : Page := hubPage .directory

/-! ### The directory (R42–R50) -/

/-- One entry of the PF0 directory: the page it lists and the page number within its die. -/
structure DirEntry where
  page : Page
  num  : Nat
deriving DecidableEq, Repr

/-- Consecutive page numbers from `n` for instances 0 .. k − 1 of a block type. -/
def dirRun (b : Block) (d n k : Nat) : List DirEntry :=
  (List.range k).map fun i => { page := { blk := b, inst := i, die := d }, num := n + i }

/-- DESIGN CHOICE (log entry 3): page numbers on a compute die. -/
def dirCompute (d : Nat) : List DirEntry :=
  dirRun .core d 0 16 ++ dirRun .arrayGroup d 16 4 ++ dirRun .dma d 20 16 ++ dirRun .sequencer d 36 16
    ++ dirRun .syncBank d 52 4 ++ dirRun .objectPage d 56 16 ++ dirRun .diePower d 72 1 ++ dirRun .dieModel d 73 1
    ++ dirRun .dieFreq d 74 1 ++ dirRun .stackCtrl d 75 1
    ++ (((List.range 4).filter (fun p => neriusDie p = d)).map fun p => { page := neriusPage p, num := 76 })
    ++ dirRun .fabricPort d 80 4

/-- DESIGN CHOICE (log entry 3): page numbers on the hub; the directory's own are R49's. -/
def dirHub : List DirEntry :=
  dirRun .directory 12 0 4
    ++ [Block.journal, .eventLog, .powerState, .weir, .energy, .time, .wake, .heat, .admission, .gateway, .siteBus,
        .aux, .dualIn, .siteChannel, .castle, .boot, .spiNor, .identity, .bridge, .keyStore, .fuse, .tamper].zipIdx.map
        (fun x => { page := hubPage x.1, num := 4 + x.2 })
    ++ (List.range 9).map (fun p => { page := portPage p, num := 32 + p })
    ++ dirRun .keySlot 12 48 8 ++ dirRun .tenantEnergy 12 64 16 ++ dirRun .bridgeDma 12 80 16
    ++ dirRun .syncBank 12 96 4 ++ dirRun .jobSlot 12 128 32 ++ dirRun .peerTable 12 160 32
    ++ dirRun .objectPage 12 192 64

/-- The PF0 directory, sorted by die, then by page number (R49). -/
def dirAll : List DirEntry :=
  (List.range 12).flatMap dirCompute ++ dirHub ++ dirRun .powerStage 13 0 1 ++ dirRun .powerStage 14 0 1

/-- Word 0 of an entry (R50). -/
def DirEntry.word0 (e : DirEntry) : Nat := pageId e.page

/-- Word 1 of an entry of the PF0 directory (R50). -/
def DirEntry.word1 (e : DirEntry) : Nat :=
  e.num + classOf e.page.blk * 2 ^ 10 + (vfViewOf e.page).toNat * 2 ^ 14 + (bcastOf e.page.blk).toNat * 2 ^ 15
    + domainOf e.page * 2 ^ 24

end Sys2Proof.Machine
end

