-- ==== Sys2Proof/Machine/Regs.lean ====
section
/-! DEFINITION. The register fields of every page, from the register table of each page's rule. -/

namespace Sys2Proof.Machine

namespace Reg.directory

/-- R48. -/
def DIR_FORMAT : Fld := { off := 0x040, lo := 0, w := 8, reset := 1 }
/-- R48. -/
def DIR_COUNT : Fld := { off := 0x044, lo := 0, w := 16, derived := true }
/-- R48. -/
def DIR_ENTRY_BASE : Fld := { off := 0x048, lo := 0, w := 32, reset := 0x03001000 }
/-- R48. -/
def DIR_VF_COUNT : Fld := { off := 0x04C, lo := 0, w := 16, reset := 9 }

/-- The fields of the page after its common header (R48). -/
def all : List Fld :=
  [DIR_FORMAT, DIR_COUNT, DIR_ENTRY_BASE, DIR_VF_COUNT]

end Reg.directory

namespace Reg.journal

/-- R93. -/
def NEXT_SEQ : Fld := { off := 0x040, lo := 0, w := 47, derived := true }
/-- R93. -/
def OLDEST_SEQ : Fld := { off := 0x048, lo := 0, w := 47, derived := true }
/-- R93. -/
def RD_SEQ_LO : Fld := { off := 0x050, lo := 0, w := 32, acc := .rw, perClient := true }
/-- R93. -/
def RD_SEQ_HI : Fld := { off := 0x054, lo := 0, w := 15, acc := .rw, perClient := true }
/-- R93. -/
def RD_STAT : Fld := { off := 0x058, lo := 0, w := 2, perClient := true }
/-- R93. -/
def RD_W : Fld := { off := 0x060, lo := 0, w := 32, stride := 4, count := 8, perClient := true }

/-- The fields of the page after its common header (R93). -/
def all : List Fld :=
  [NEXT_SEQ, OLDEST_SEQ, RD_SEQ_LO, RD_SEQ_HI, RD_STAT, RD_W]

end Reg.journal

namespace Reg.powerState

/-- R121. -/
def STATE : Fld := { off := 0x040, lo := 0, w := 2, reset := 1, derived := true }
/-- R121. -/
def BROWNOUT : Fld := { off := 0x040, lo := 2, w := 1 }
/-- R121. -/
def STAGE_DEGRADED : Fld := { off := 0x040, lo := 3, w := 1 }
/-- R121. -/
def DRY_CAUSE_VALID : Fld := { off := 0x040, lo := 4, w := 1 }
/-- R121. -/
def DRY_CAUSE : Fld := { off := 0x040, lo := 5, w := 3 }
/-- R121. -/
def DIE_ON : Fld := { off := 0x044, lo := 0, w := 12 }
/-- R121. -/
def DIE_TRANS : Fld := { off := 0x048, lo := 0, w := 12 }
/-- R121. -/
def V48 : Fld := { off := 0x04C, lo := 0, w := 16 }
/-- R121. -/
def V48_MIN : Fld := { off := 0x050, lo := 0, w := 16, acc := .rw }
/-- R121. -/
def SUPPLY_FAULTS : Fld := { off := 0x054, lo := 0, w := 16 }

/-- The fields of the page after its common header (R121). -/
def all : List Fld :=
  [STATE, BROWNOUT, STAGE_DEGRADED, DRY_CAUSE_VALID, DRY_CAUSE, DIE_ON, DIE_TRANS, V48,
   V48_MIN, SUPPLY_FAULTS]

end Reg.powerState

namespace Reg.powerStage

/-- R124. -/
def OVERTEMP : Fld := { off := 0x040, lo := 0, w := 1 }
/-- R124. -/
def OVERCURRENT : Fld := { off := 0x040, lo := 1, w := 1 }
/-- R124. -/
def IV_UV : Fld := { off := 0x040, lo := 2, w := 1 }
/-- R124. -/
def IV_OV : Fld := { off := 0x040, lo := 3, w := 1 }
/-- R124. -/
def IIN : Fld := { off := 0x044, lo := 0, w := 16 }
/-- R124. -/
def IOUT : Fld := { off := 0x048, lo := 0, w := 16 }
/-- R124. -/
def VIV : Fld := { off := 0x04C, lo := 0, w := 16 }

/-- The fields of the page after its common header (R124). -/
def all : List Fld :=
  [OVERTEMP, OVERCURRENT, IV_UV, IV_OV, IIN, IOUT, VIV]

end Reg.powerStage

namespace Reg.time

/-- R150. -/
def DT : Fld := { off := 0x040, lo := 0, w := 64, derived := true }
/-- R150. -/
def XTAL32_OK : Fld := { off := 0x048, lo := 0, w := 1, reset := 1 }
/-- R150. -/
def DT_DEGRADED : Fld := { off := 0x048, lo := 1, w := 1 }
/-- R150. -/
def WALL_VALID : Fld := { off := 0x048, lo := 2, w := 1 }
/-- R150. -/
def WALL_LOCKED : Fld := { off := 0x048, lo := 3, w := 1 }
/-- R150. -/
def WALL_NS : Fld := { off := 0x04C, lo := 0, w := 30, derived := true }
/-- R150. -/
def WALL_SEC_LO : Fld := { off := 0x050, lo := 0, w := 32, derived := true }
/-- R150. -/
def WALL_SEC_HI : Fld := { off := 0x054, lo := 0, w := 16, derived := true }
/-- R150. -/
def UTC_OFFSET : Fld := { off := 0x058, lo := 0, w := 16 }
/-- R150. -/
def RATE_ADJ : Fld := { off := 0x05C, lo := 0, w := 32, acc := .rw }
/-- R150. -/
def SRC_SEL : Fld := { off := 0x060, lo := 0, w := 2, acc := .rw }
/-- R150. -/
def STEP_THRESH : Fld := { off := 0x064, lo := 0, w := 30, acc := .rw, reset := 1000000, range := some (1000, 1000000000) }
/-- R150. -/
def PTP_EN : Fld := { off := 0x068, lo := 0, w := 1, acc := .rw }
/-- R150. -/
def PTP_ROLE : Fld := { off := 0x068, lo := 1, w := 1, acc := .rw }
/-- R150. -/
def ONE_STEP : Fld := { off := 0x068, lo := 2, w := 1, acc := .rw }
/-- R150. -/
def TRANSPORT : Fld := { off := 0x068, lo := 3, w := 1, acc := .rw }
/-- R150. -/
def DOMAIN : Fld := { off := 0x068, lo := 4, w := 8, acc := .rw }
/-- R150. -/
def LOG_SYNC : Fld := { off := 0x068, lo := 12, w := 4, acc := .rw }
/-- R150. -/
def PTP_OFFSET : Fld := { off := 0x06C, lo := 0, w := 32 }
/-- R150. -/
def PTP_TX_LAT : Fld := { off := 0x070, lo := 0, w := 10, acc := .rw }
/-- R150. -/
def PTP_RX_LAT : Fld := { off := 0x074, lo := 0, w := 10, acc := .rw }
/-- R150. -/
def STAGE_SEC_LO : Fld := { off := 0x078, lo := 0, w := 32, acc := .rw }
/-- R150. -/
def STAGE_SEC_HI : Fld := { off := 0x07C, lo := 0, w := 16, acc := .rw }
/-- R150. -/
def STAGE_NS : Fld := { off := 0x080, lo := 0, w := 30, acc := .rw }
/-- R150. -/
def STAGE_UTC : Fld := { off := 0x084, lo := 0, w := 16, acc := .rw }
/-- R150. -/
def LAST_STEP : Fld := { off := 0x088, lo := 0, w := 64 }

/-- The fields of the page after its common header (R150). -/
def all : List Fld :=
  [DT, XTAL32_OK, DT_DEGRADED, WALL_VALID, WALL_LOCKED, WALL_NS, WALL_SEC_LO, WALL_SEC_HI,
   UTC_OFFSET, RATE_ADJ, SRC_SEL, STEP_THRESH, PTP_EN, PTP_ROLE, ONE_STEP, TRANSPORT,
   DOMAIN, LOG_SYNC, PTP_OFFSET, PTP_TX_LAT, PTP_RX_LAT, STAGE_SEC_LO, STAGE_SEC_HI, STAGE_NS,
   STAGE_UTC, LAST_STEP]

end Reg.time

namespace Reg.wake

/-- R152. -/
def WAKE_EN : Fld := { off := 0x040, lo := 0, w := 13, acc := .rw, reset := 0x1020 }
/-- R152. -/
def GPIO_POL : Fld := { off := 0x044, lo := 0, w := 4, acc := .rw, reset := 0xF }
/-- R152. -/
def ALARM_LO : Fld := { off := 0x048, lo := 0, w := 32, acc := .rw }
/-- R152. -/
def ALARM_HI : Fld := { off := 0x04C, lo := 0, w := 32, acc := .rw }
/-- R152. -/
def WAKE_CAUSE : Fld := { off := 0x050, lo := 0, w := 13 }
/-- R152. -/
def CAUSE_V48 : Fld := { off := 0x050, lo := 16, w := 1 }
/-- R152. -/
def REFCLK_RETRIES : Fld := { off := 0x050, lo := 18, w := 2 }
/-- R152. -/
def CAUSE_VALID : Fld := { off := 0x050, lo := 31, w := 1 }
/-- R152. -/
def WAKE_TIME : Fld := { off := 0x054, lo := 0, w := 64 }
/-- R152. -/
def CAL_ERR : Fld := { off := 0x05C, lo := 0, w := 8 }
/-- R152. -/
def DRY_WINDOWS : Fld := { off := 0x060, lo := 0, w := 16 }
/-- R152. -/
def DRY_FRAMES : Fld := { off := 0x060, lo := 16, w := 16 }

/-- The fields of the page after its common header (R152). -/
def all : List Fld :=
  [WAKE_EN, GPIO_POL, ALARM_LO, ALARM_HI, WAKE_CAUSE, CAUSE_V48, REFCLK_RETRIES, CAUSE_VALID,
   WAKE_TIME, CAL_ERR, DRY_WINDOWS, DRY_FRAMES]

end Reg.wake

namespace Reg.spiNor

/-- R171. -/
def SFDP_OK : Fld := { off := 0x040, lo := 0, w := 1 }
/-- R171. -/
def ADDR4 : Fld := { off := 0x040, lo := 1, w := 1 }
/-- R171. -/
def WIDTH : Fld := { off := 0x040, lo := 2, w := 2 }
/-- R171. -/
def CLK_MHZ : Fld := { off := 0x040, lo := 8, w := 8 }
/-- R171. -/
def SIZE_LOG2 : Fld := { off := 0x040, lo := 16, w := 5 }
/-- R171. -/
def FL_LEN : Fld := { off := 0x044, lo := 0, w := 9, acc := .rw, perClient := true }
/-- R171. -/
def OVER : Fld := { off := 0x044, lo := 16, w := 1, acc := .rw }
/-- R171. -/
def FL_BUF : Fld := { off := 0x100, lo := 0, w := 32, stride := 4, count := 64, acc := .rw, perClient := true }

/-- The fields of the page after its common header (R171). -/
def all : List Fld :=
  [SFDP_OK, ADDR4, WIDTH, CLK_MHZ, SIZE_LOG2, FL_LEN, OVER, FL_BUF]

end Reg.spiNor

namespace Reg.identity

/-- R176. -/
def DEVICE_ID : Fld := { off := 0x040, lo := 0, w := 32, stride := 4, count := 4 }
/-- R176. -/
def ID_VALID : Fld := { off := 0x050, lo := 0, w := 15 }
/-- R176. -/
def ID_REC : Fld := { off := 0x100, lo := 0, w := 32, stride := 4, count := 120 }

/-- The fields of the page after its common header (R176). -/
def all : List Fld :=
  [DEVICE_ID, ID_VALID, ID_REC]

end Reg.identity

namespace Reg.boot

/-- R177. -/
def RESET_CAUSE : Fld := { off := 0x040, lo := 0, w := 5 }
/-- R177. -/
def BANK : Fld := { off := 0x044, lo := 0, w := 1 }
/-- R177. -/
def RECOVERY : Fld := { off := 0x044, lo := 1, w := 1 }
/-- R177. -/
def FALLBACK : Fld := { off := 0x044, lo := 2, w := 1 }
/-- R177. -/
def FW_VERSION : Fld := { off := 0x048, lo := 0, w := 32 }
/-- R177. -/
def FW_SVN : Fld := { off := 0x04C, lo := 0, w := 32 }
/-- R177. -/
def STATE_A : Fld := { off := 0x050, lo := 0, w := 3 }
/-- R177. -/
def STATE_B : Fld := { off := 0x050, lo := 4, w := 3 }
/-- R177. -/
def HUB_RESETS : Fld := { off := 0x054, lo := 0, w := 16 }
/-- R177. -/
def HOST_RESETS : Fld := { off := 0x058, lo := 0, w := 16 }

/-- The fields of the page after its common header (R177). -/
def all : List Fld :=
  [RESET_CAUSE, BANK, RECOVERY, FALLBACK, FW_VERSION, FW_SVN, STATE_A, STATE_B,
   HUB_RESETS, HOST_RESETS]

end Reg.boot

namespace Reg.weir

/-- R210. -/
def CAP_EFF : Fld := { off := 0x040, lo := 0, w := 32, derived := true }
/-- R210. -/
def CAP_SRC : Fld := { off := 0x044, lo := 0, w := 6, derived := true }
/-- R210. -/
def HOST_CAP : Fld := { off := 0x048, lo := 0, w := 32, reset := 26000 }
/-- R210. -/
def SHED_CAP : Fld := { off := 0x04C, lo := 0, w := 32, acc := .rwl, reset := 4000, range := some (0, 40000), lock := some 0 }
/-- R210. -/
def RAMP : Fld := { off := 0x050, lo := 0, w := 8, acc := .rwl, reset := 20, range := some (1, 200), lock := some 0 }
/-- R210. -/
def SHED_MIN : Fld := { off := 0x054, lo := 0, w := 10, acc := .rwl, range := some (0, 1000), lock := some 0 }
/-- R210. -/
def SITE_CAP : Fld := { off := 0x058, lo := 0, w := 31 }
/-- R210. -/
def SITE_CAP_VALID : Fld := { off := 0x058, lo := 31, w := 1 }
/-- R210. -/
def SC_CAP : Fld := { off := 0x05C, lo := 0, w := 31 }
/-- R210. -/
def SC_CAP_VALID : Fld := { off := 0x05C, lo := 31, w := 1 }
/-- R210. -/
def THERM_CAP : Fld := { off := 0x060, lo := 0, w := 31 }
/-- R210. -/
def THERM_CAP_VALID : Fld := { off := 0x060, lo := 31, w := 1 }
/-- R210. -/
def SHED_ACTIVE : Fld := { off := 0x064, lo := 0, w := 1 }
/-- R210. -/
def SHED_PIN : Fld := { off := 0x064, lo := 1, w := 1 }
/-- R210. -/
def OVERCOMMIT : Fld := { off := 0x064, lo := 2, w := 1 }
/-- R210. -/
def FLOOR_BREACH : Fld := { off := 0x064, lo := 3, w := 1 }
/-- R210. -/
def MODEL_FAULT : Fld := { off := 0x064, lo := 4, w := 1 }
/-- R210. -/
def RAMP_LIMITED : Fld := { off := 0x064, lo := 5, w := 1 }
/-- R210. -/
def I_SENSE : Fld := { off := 0x068, lo := 0, w := 32 }
/-- R210. -/
def I_AUX : Fld := { off := 0x06C, lo := 0, w := 32 }
/-- R210. -/
def I_MODEL : Fld := { off := 0x070, lo := 0, w := 32 }
/-- R210. -/
def GAIN : Fld := { off := 0x074, lo := 0, w := 16, reset := 16384, derived := true }
/-- R210. -/
def OFFSET : Fld := { off := 0x078, lo := 0, w := 32, derived := true }
/-- R210. -/
def GRANT_SUM : Fld := { off := 0x07C, lo := 0, w := 32, derived := true }
/-- R210. -/
def FLOOR_SUM : Fld := { off := 0x080, lo := 0, w := 32, derived := true }
/-- R210. -/
def AUX_GRANT : Fld := { off := 0x084, lo := 0, w := 32, derived := true }
/-- R210. -/
def THROTTLED : Fld := { off := 0x088, lo := 0, w := 64 }
/-- R210. -/
def EXCURSIONS : Fld := { off := 0x090, lo := 0, w := 16 }
/-- R210. -/
def SHEDS : Fld := { off := 0x094, lo := 0, w := 16 }
/-- R210. -/
def EFF : Fld := { off := 0x0C0, lo := 0, w := 16, stride := 4, count := 16 }

/-- The fields of the page after its common header (R210). -/
def all : List Fld :=
  [CAP_EFF, CAP_SRC, HOST_CAP, SHED_CAP, RAMP, SHED_MIN, SITE_CAP, SITE_CAP_VALID,
   SC_CAP, SC_CAP_VALID, THERM_CAP, THERM_CAP_VALID, SHED_ACTIVE, SHED_PIN, OVERCOMMIT, FLOOR_BREACH,
   MODEL_FAULT, RAMP_LIMITED, I_SENSE, I_AUX, I_MODEL, GAIN, OFFSET, GRANT_SUM,
   FLOOR_SUM, AUX_GRANT, THROTTLED, EXCURSIONS, SHEDS, EFF]

end Reg.weir

namespace Reg.dieModel

/-- R212. -/
def COEF : Fld := { off := 0x040, lo := 0, w := 32, stride := 4, count := 12, derived := true }
/-- R212. -/
def COEF_VALID : Fld := { off := 0x070, lo := 0, w := 1, derived := true }
/-- R212. -/
def CNT : Fld := { off := 0x100, lo := 0, w := 64, stride := 8, count := 18 }

/-- The fields of the page after its common header (R212). -/
def all : List Fld :=
  [COEF, COEF_VALID, CNT]

end Reg.dieModel

namespace Reg.energy

/-- R234. -/
def INT_LEN : Fld := { off := 0x040, lo := 0, w := 6, acc := .rwl, reset := 15, range := some (1, 60), lock := some 0 }
/-- R234. -/
def CUR_INDEX : Fld := { off := 0x048, lo := 0, w := 64, derived := true }
/-- R234. -/
def OLDEST_INDEX : Fld := { off := 0x050, lo := 0, w := 64, derived := true }
/-- R234. -/
def RD_INDEX_LO : Fld := { off := 0x060, lo := 0, w := 32, acc := .rw, perClient := true }
/-- R234. -/
def RD_INDEX_HI : Fld := { off := 0x064, lo := 0, w := 32, acc := .rw, perClient := true }
/-- R234. -/
def RD_STAT : Fld := { off := 0x068, lo := 0, w := 2, perClient := true }
/-- R234. -/
def RD_REC : Fld := { off := 0x100, lo := 0, w := 32, stride := 4, count := 64, perClient := true }
/-- R234. -/
def ACC : Fld := { off := 0x200, lo := 0, w := 64, stride := 8, count := 21, derived := true }
/-- R234. -/
def SLOT : Fld := { off := 0x300, lo := 0, w := 64, stride := 8, count := 32, derived := true }

/-- The fields of the page after its common header (R234). -/
def all : List Fld :=
  [INT_LEN, CUR_INDEX, OLDEST_INDEX, RD_INDEX_LO, RD_INDEX_HI, RD_STAT, RD_REC, ACC,
   SLOT]

end Reg.energy

namespace Reg.tenantEnergy

/-- R236. -/
def TOTAL : Fld := { off := 0x040, lo := 0, w := 64, derived := true }
/-- R236. -/
def CUR_INDEX : Fld := { off := 0x048, lo := 0, w := 64, derived := true }
/-- R236. -/
def CUR_ENERGY : Fld := { off := 0x050, lo := 0, w := 64, derived := true }
/-- R236. -/
def RD_INDEX_LO : Fld := { off := 0x058, lo := 0, w := 32, acc := .rw, perClient := true }
/-- R236. -/
def RD_INDEX_HI : Fld := { off := 0x05C, lo := 0, w := 32, acc := .rw, perClient := true }
/-- R236. -/
def RD_STAT : Fld := { off := 0x060, lo := 0, w := 2, perClient := true }
/-- R236. -/
def RD_T : Fld := { off := 0x080, lo := 0, w := 32, stride := 4, count := 16, perClient := true }

/-- The fields of the page after its common header (R236). -/
def all : List Fld :=
  [TOTAL, CUR_INDEX, CUR_ENERGY, RD_INDEX_LO, RD_INDEX_HI, RD_STAT, RD_T]

end Reg.tenantEnergy

namespace Reg.dieFreq

/-- R263. -/
def N_NOW : Fld := { off := 0x040, lo := 0, w := 6, stride := 4, count := 16 }
/-- R263. -/
def REGIME : Fld := { off := 0x040, lo := 8, w := 2, stride := 4, count := 16, derived := true }
/-- R263. -/
def MEAS_DUE : Fld := { off := 0x040, lo := 10, w := 1, stride := 4, count := 16, derived := true }
/-- R263. -/
def MEAS_OVERDUE : Fld := { off := 0x040, lo := 11, w := 1, stride := 4, count := 16, derived := true }
/-- R263. -/
def K_NOW : Fld := { off := 0x080, lo := 0, w := 6, stride := 4, count := 4, derived := true }
/-- R263. -/
def SPATE_MAX : Fld := { off := 0x090, lo := 0, w := 6, acc := .rw, reset := 56, range := some (32, 56) }
/-- R263. -/
def DROOP_THRESH : Fld := { off := 0x094, lo := 0, w := 4, acc := .rw, reset := 5, range := some (2, 10) }
/-- R263. -/
def DROOP_STRETCH : Fld := { off := 0x094, lo := 4, w := 1, acc := .rw }
/-- R263. -/
def OP_HOURS : Fld := { off := 0x098, lo := 0, w := 32 }
/-- R263. -/
def LAST_MEAS : Fld := { off := 0x0A0, lo := 0, w := 32, stride := 4, count := 4 }
/-- R263. -/
def TEMP : Fld := { off := 0x0C0, lo := 0, w := 16, stride := 4, count := 8 }
/-- R263. -/
def CERT : Fld := { off := 0x100, lo := 0, w := 64, stride := 8, count := 16, derived := true, live := true }
/-- R263. -/
def FUSED : Fld := { off := 0x180, lo := 0, w := 64, stride := 8, count := 16, derived := true, live := true }
/-- R263. -/
def DROOP_CYC : Fld := { off := 0x200, lo := 0, w := 64, stride := 8, count := 16, derived := true }
/-- R263. -/
def CANAL_INT : Fld := { off := 0x280, lo := 0, w := 64, stride := 8, count := 16 }

/-- The fields of the page after its common header (R263). -/
def all : List Fld :=
  [N_NOW, REGIME, MEAS_DUE, MEAS_OVERDUE, K_NOW, SPATE_MAX, DROOP_THRESH, DROOP_STRETCH,
   OP_HOURS, LAST_MEAS, TEMP, CERT, FUSED, DROOP_CYC, CANAL_INT]

end Reg.dieFreq

namespace Reg.heat

/-- R264. -/
def TRIPPED : Fld := { off := 0x040, lo := 0, w := 1 }
/-- R264. -/
def TRIP_DIE : Fld := { off := 0x040, lo := 1, w := 4 }
/-- R264. -/
def TRIP_STACK : Fld := { off := 0x040, lo := 5, w := 3 }
/-- R264. -/
def HOT_T : Fld := { off := 0x044, lo := 0, w := 16 }
/-- R264. -/
def THROTTLE_AT : Fld := { off := 0x048, lo := 0, w := 7, acc := .rwl, reset := 95, range := some (80, 95), lock := some 0 }
/-- R264. -/
def THROTTLING : Fld := { off := 0x04C, lo := 0, w := 1, derived := true }
/-- R264. -/
def HUB_T : Fld := { off := 0x050, lo := 0, w := 16, stride := 4, count := 4 }
/-- R264. -/
def PS_T : Fld := { off := 0x060, lo := 0, w := 16, stride := 4, count := 4 }
/-- R264. -/
def STACK_T : Fld := { off := 0x070, lo := 0, w := 16, stride := 4, count := 6 }
/-- R264. -/
def TRIPS : Fld := { off := 0x088, lo := 0, w := 16 }
/-- R264. -/
def DR_NEXT : Fld := { off := 0x090, lo := 0, w := 64, derived := true }
/-- R264. -/
def DR_OLDEST : Fld := { off := 0x098, lo := 0, w := 64, derived := true }
/-- R264. -/
def DR_RD_LO : Fld := { off := 0x0A0, lo := 0, w := 32, acc := .rw, perClient := true }
/-- R264. -/
def DR_RD_HI : Fld := { off := 0x0A4, lo := 0, w := 32, acc := .rw, perClient := true }
/-- R264. -/
def DR_RD_STAT : Fld := { off := 0x0A8, lo := 0, w := 2, perClient := true }
/-- R264. -/
def DR_W : Fld := { off := 0x0C0, lo := 0, w := 32, stride := 4, count := 8, perClient := true }

/-- The fields of the page after its common header (R264). -/
def all : List Fld :=
  [TRIPPED, TRIP_DIE, TRIP_STACK, HOT_T, THROTTLE_AT, THROTTLING, HUB_T, PS_T,
   STACK_T, TRIPS, DR_NEXT, DR_OLDEST, DR_RD_LO, DR_RD_HI, DR_RD_STAT, DR_W]

end Reg.heat

namespace Reg.core

/-- R290. -/
def SLOT : Fld := { off := 0x040, lo := 0, w := 5 }
/-- R290. -/
def SLOT_VALID : Fld := { off := 0x040, lo := 5, w := 1 }
/-- R290. -/
def SITE_RESERVED : Fld := { off := 0x040, lo := 6, w := 1, derived := true }
/-- R290. -/
def RETAINED : Fld := { off := 0x040, lo := 7, w := 1, derived := true }
/-- R290. -/
def COST : Fld := { off := 0x044, lo := 0, w := 8, reset := 44, derived := true }
/-- R290. -/
def THROTTLE : Fld := { off := 0x048, lo := 0, w := 64 }
/-- R290. -/
def SRAM_CORR : Fld := { off := 0x050, lo := 0, w := 16 }
/-- R290. -/
def SRAM_UNCORR : Fld := { off := 0x050, lo := 16, w := 16 }
/-- R290. -/
def ACC_PARITY : Fld := { off := 0x054, lo := 0, w := 16 }

/-- The fields of the page after its common header (R290). -/
def all : List Fld :=
  [SLOT, SLOT_VALID, SITE_RESERVED, RETAINED, COST, THROTTLE, SRAM_CORR, SRAM_UNCORR,
   ACC_PARITY]

end Reg.core

namespace Reg.arrayGroup

/-- R290. -/
def GATED : Fld := { off := 0x040, lo := 0, w := 32, stride := 4, count := 4 }

/-- The fields of the page after its common header (R290). -/
def all : List Fld :=
  [GATED]

end Reg.arrayGroup

namespace Reg.dma

/-- R290. -/
def BYTES : Fld := { off := 0x040, lo := 0, w := 64 }

/-- The fields of the page after its common header (R290). -/
def all : List Fld :=
  [BYTES]

end Reg.dma

namespace Reg.sequencer

/-- R316. -/
def STATE : Fld := { off := 0x040, lo := 0, w := 3, derived := true }
/-- R316. -/
def LOOP_DEPTH : Fld := { off := 0x040, lo := 8, w := 3, derived := true }
/-- R316. -/
def PC : Fld := { off := 0x044, lo := 0, w := 18 }
/-- R316. -/
def STREAM_BASE : Fld := { off := 0x048, lo := 0, w := 18 }
/-- R316. -/
def ERR_CODE : Fld := { off := 0x04C, lo := 0, w := 8 }
/-- R316. -/
def ERR_PC : Fld := { off := 0x050, lo := 0, w := 18 }
/-- R316. -/
def MARK_VAL : Fld := { off := 0x054, lo := 0, w := 32 }
/-- R316. -/
def WAIT_OBJ : Fld := { off := 0x058, lo := 0, w := 16 }
/-- R316. -/
def LOOP_I : Fld := { off := 0x060, lo := 0, w := 14, stride := 4, count := 4, derived := true }
/-- R316. -/
def RETIRED : Fld := { off := 0x070, lo := 0, w := 64 }
/-- R316. -/
def HELD : Fld := { off := 0x078, lo := 0, w := 32, derived := true }

/-- The fields of the page after its common header (R316). -/
def all : List Fld :=
  [STATE, LOOP_DEPTH, PC, STREAM_BASE, ERR_CODE, ERR_PC, MARK_VAL, WAIT_OBJ,
   LOOP_I, RETIRED, HELD]

end Reg.sequencer

namespace Reg.syncBank

/-- R342. -/
def EPOCH : Fld := { off := 0x040, lo := 0, w := 16 }
/-- R342. -/
def WAITERS : Fld := { off := 0x044, lo := 0, w := 8, derived := true }
/-- R342. -/
def POISONED : Fld := { off := 0x048, lo := 0, w := 16 }
/-- R342. -/
def LATE_DISCARDS : Fld := { off := 0x04C, lo := 0, w := 16 }
/-- R342. -/
def ATOMIC_ABORTS : Fld := { off := 0x050, lo := 0, w := 16 }

/-- The fields of the page after its common header (R342). -/
def all : List Fld :=
  [EPOCH, WAITERS, POISONED, LATE_DISCARDS, ATOMIC_ABORTS]

end Reg.syncBank

namespace Reg.objectPage

/-- R343. -/
def NOTIFY_PEND : Fld := { off := 0x040, lo := 0, w := 32, stride := 4, count := 8, acc := .w1c }
/-- R343. -/
def COUNT : Fld := { off := 0x400, lo := 0, w := 32, stride := 4, count := 256, acc := .rw, derived := true }
/-- R343. -/
def CTRL : Fld := { off := 0x800, lo := 0, w := 32, stride := 4, count := 256, derived := true }

/-- The fields of the page after its common header (R343). -/
def all : List Fld :=
  [NOTIFY_PEND, COUNT, CTRL]

end Reg.objectPage

namespace Reg.admission

/-- R383. -/
def FREE_CORES : Fld := { off := 0x040, lo := 0, w := 8, derived := true }
/-- R383. -/
def FREE_GRANULES : Fld := { off := 0x044, lo := 0, w := 32, derived := true }
/-- R383. -/
def COMMITTED : Fld := { off := 0x048, lo := 0, w := 32, derived := true }
/-- R383. -/
def LAST_EVALS : Fld := { off := 0x04C, lo := 0, w := 25 }
/-- R383. -/
def REFUSALS : Fld := { off := 0x050, lo := 0, w := 16 }

/-- The fields of the page after its common header (R383). -/
def all : List Fld :=
  [FREE_CORES, FREE_GRANULES, COMMITTED, LAST_EVALS, REFUSALS]

end Reg.admission

namespace Reg.jobSlot

/-- R384. -/
def STATE : Fld := { off := 0x040, lo := 0, w := 3, derived := true }
/-- R384. -/
def RESTART_PENDING : Fld := { off := 0x040, lo := 3, w := 1, derived := true }
/-- R384. -/
def TENANT : Fld := { off := 0x044, lo := 0, w := 4, derived := true }
/-- R384. -/
def VIEW : Fld := { off := 0x044, lo := 4, w := 3, derived := true }
/-- R384. -/
def BOUND : Fld := { off := 0x044, lo := 7, w := 1, derived := true }
/-- R384. -/
def JOB_ID : Fld := { off := 0x048, lo := 0, w := 64, derived := true, live := true }
/-- R384. -/
def RUN : Fld := { off := 0x050, lo := 0, w := 32, derived := true }
/-- R384. -/
def FAULT_CAUSE : Fld := { off := 0x054, lo := 0, w := 8, derived := true }
/-- R384. -/
def FAULT_CORE : Fld := { off := 0x054, lo := 8, w := 8, derived := true }
/-- R384. -/
def FAULT_DETAIL : Fld := { off := 0x054, lo := 16, w := 8, derived := true }
/-- R384. -/
def FAULT_DEV : Fld := { off := 0x054, lo := 24, w := 4, derived := true }
/-- R384. -/
def LAST_RESULT : Fld := { off := 0x058, lo := 0, w := 16, derived := true }
/-- R384. -/
def RESTART_LIMIT : Fld := { off := 0x05C, lo := 0, w := 4, acc := .rw, reset := 3 }
/-- R384. -/
def AUTO_COUNT : Fld := { off := 0x05C, lo := 8, w := 4, derived := true }
/-- R384. -/
def CORES : Fld := { off := 0x060, lo := 0, w := 8, derived := true }
/-- R384. -/
def CORES_DONE : Fld := { off := 0x060, lo := 8, w := 8, derived := true }
/-- R384. -/
def LAST_MARK : Fld := { off := 0x064, lo := 0, w := 32, derived := true }
/-- R384. -/
def GRANULES : Fld := { off := 0x068, lo := 0, w := 32, derived := true }
/-- R384. -/
def THROTTLE : Fld := { off := 0x070, lo := 0, w := 64, derived := true }
/-- R384. -/
def CANAL_INT : Fld := { off := 0x078, lo := 0, w := 64, derived := true }
/-- R384. -/
def STALE_SIGNALS : Fld := { off := 0x080, lo := 0, w := 16, derived := true }
/-- R384. -/
def DIE_MAP : Fld := { off := 0x0C0, lo := 0, w := 32, stride := 4, count := 3, reset := 0xFFFFFFFF, derived := true }
/-- R384. -/
def CORE_MAP : Fld := { off := 0x100, lo := 0, w := 32, stride := 4, count := 48, reset := 0xFFFFFFFF, derived := true }

/-- The fields of the page after its common header (R384). -/
def all : List Fld :=
  [STATE, RESTART_PENDING, TENANT, VIEW, BOUND, JOB_ID, RUN, FAULT_CAUSE,
   FAULT_CORE, FAULT_DETAIL, FAULT_DEV, LAST_RESULT, RESTART_LIMIT, AUTO_COUNT, CORES, CORES_DONE,
   LAST_MARK, GRANULES, THROTTLE, CANAL_INT, STALE_SIGNALS, DIE_MAP, CORE_MAP]

end Reg.jobSlot

namespace Reg.stackCtrl

/-- R399. -/
def CE : Fld := { off := 0x040, lo := 0, w := 16 }
/-- R399. -/
def UE : Fld := { off := 0x044, lo := 0, w := 16 }
/-- R399. -/
def LAST_UE : Fld := { off := 0x048, lo := 0, w := 64 }
/-- R399. -/
def SCRUB_PCT : Fld := { off := 0x050, lo := 0, w := 16 }
/-- R399. -/
def RETIRED : Fld := { off := 0x054, lo := 0, w := 10, derived := true }
/-- R399. -/
def HOST_GRANULES : Fld := { off := 0x058, lo := 0, w := 15, acc := .rw, reset := 512 }

/-- The fields of the page after its common header (R399). -/
def all : List Fld :=
  [CE, UE, LAST_UE, SCRUB_PCT, RETIRED, HOST_GRANULES]

end Reg.stackCtrl

namespace Reg.nerius

/-- R402. -/
def MODE : Fld := { off := 0x040, lo := 0, w := 2, acc := .rw, range := some (0, 2) }
/-- R402. -/
def LSTATE : Fld := { off := 0x040, lo := 4, w := 2 }
/-- R402. -/
def MAC_LO : Fld := { off := 0x044, lo := 0, w := 32, acc := .rw }
/-- R402. -/
def MAC_HI : Fld := { off := 0x048, lo := 0, w := 16, acc := .rw }
/-- R402. -/
def SESSIONS : Fld := { off := 0x04C, lo := 0, w := 5, derived := true }
/-- R402. -/
def RUNTS : Fld := { off := 0x050, lo := 0, w := 16 }
/-- R402. -/
def OVERSIZE : Fld := { off := 0x054, lo := 0, w := 16 }
/-- R402. -/
def JABBER : Fld := { off := 0x058, lo := 0, w := 16 }
/-- R402. -/
def FCS_ERR : Fld := { off := 0x05C, lo := 0, w := 16 }
/-- R402. -/
def NOT_NERIUS : Fld := { off := 0x060, lo := 0, w := 16 }
/-- R402. -/
def MAC_MISS : Fld := { off := 0x064, lo := 0, w := 16 }
/-- R402. -/
def REPLAYS : Fld := { off := 0x068, lo := 0, w := 16 }
/-- R402. -/
def FEC_UNCORR : Fld := { off := 0x06C, lo := 0, w := 16 }
/-- R402. -/
def LINK_ERRORS : Fld := { off := 0x070, lo := 0, w := 16 }
/-- R402. -/
def TRAIN_FAILS : Fld := { off := 0x074, lo := 0, w := 16 }
/-- R402. -/
def FEC_CORR : Fld := { off := 0x078, lo := 0, w := 32 }
/-- R402. -/
def STALE : Fld := { off := 0x07C, lo := 0, w := 16 }

/-- The fields of the page after its common header (R402). -/
def all : List Fld :=
  [ MODE, LSTATE, MAC_LO, MAC_HI, SESSIONS, RUNTS, OVERSIZE, JABBER,
   FCS_ERR, NOT_NERIUS, MAC_MISS, REPLAYS, FEC_UNCORR, LINK_ERRORS, TRAIN_FAILS, FEC_CORR,
   STALE]

end Reg.nerius

namespace Reg.peerTable

/-- R417. -/
def GROUP_TAG : Fld := { off := 0x040, lo := 0, w := 16, acc := .rw }
/-- R417. -/
def MAC_LO_P : Fld := { off := 0x080, lo := 0, w := 32, stride := 16, count := 16, acc := .rw }
/-- R417. -/
def MAC_HI_P : Fld := { off := 0x084, lo := 0, w := 16, stride := 16, count := 16, acc := .rw }
/-- R417. -/
def PORTS_P : Fld := { off := 0x088, lo := 0, w := 4, stride := 16, count := 16, acc := .rw }
/-- R417. -/
def VALID_P : Fld := { off := 0x088, lo := 8, w := 1, stride := 16, count := 16, acc := .rw }
/-- R417. -/
def TAG_P : Fld := { off := 0x08C, lo := 0, w := 16, stride := 16, count := 16, acc := .rw }

/-- The fields of the page after its common header (R417). -/
def all : List Fld :=
  [GROUP_TAG, MAC_LO_P, MAC_HI_P, PORTS_P, VALID_P, TAG_P]

end Reg.peerTable

namespace Reg.bridge

/-- R447. -/
def RATE : Fld := { off := 0x040, lo := 0, w := 2 }
/-- R447. -/
def WIDTH : Fld := { off := 0x040, lo := 2, w := 5 }
/-- R447. -/
def WIN_BASE : Fld := { off := 0x044, lo := 0, w := 17, acc := .rw, range := some (0, 77824) }
/-- R447. -/
def ROUTE_0 : Fld := { off := 0x060, lo := 0, w := 6, stride := 4, count := 4, acc := .rw, rstep := 4 }
/-- R447. -/
def ROUTE_1 : Fld := { off := 0x060, lo := 8, w := 6, stride := 4, count := 4, acc := .rw, reset := 1, rstep := 4 }
/-- R447. -/
def ROUTE_2 : Fld := { off := 0x060, lo := 16, w := 6, stride := 4, count := 4, acc := .rw, reset := 2, rstep := 4 }
/-- R447. -/
def ROUTE_3 : Fld := { off := 0x060, lo := 24, w := 6, stride := 4, count := 4, acc := .rw, reset := 3, rstep := 4 }
/-- R447. -/
def RX_POISONED : Fld := { off := 0x070, lo := 0, w := 16 }
/-- R447. -/
def UR_SENT : Fld := { off := 0x074, lo := 0, w := 16 }
/-- R447. -/
def CA_SENT : Fld := { off := 0x078, lo := 0, w := 16 }
/-- R447. -/
def CPL_TIMEOUTS : Fld := { off := 0x07C, lo := 0, w := 16 }
/-- R447. -/
def ATOMICS : Fld := { off := 0x080, lo := 0, w := 64 }

/-- The fields of the page after its common header (R447). -/
def all : List Fld :=
  [RATE, WIDTH, WIN_BASE, ROUTE_0, ROUTE_1, ROUTE_2, ROUTE_3, RX_POISONED,
   UR_SENT, CA_SENT, CPL_TIMEOUTS, ATOMICS]

end Reg.bridge

namespace Reg.bridgeDma

/-- R448. -/
def HOST_LO : Fld := { off := 0x040, lo := 0, w := 32, acc := .rw }
/-- R448. -/
def HOST_HI : Fld := { off := 0x044, lo := 0, w := 32, acc := .rw }
/-- R448. -/
def DEV_LO : Fld := { off := 0x048, lo := 0, w := 32, acc := .rw }
/-- R448. -/
def DEV_HI : Fld := { off := 0x04C, lo := 0, w := 6, acc := .rw }
/-- R448. -/
def SPACE : Fld := { off := 0x050, lo := 0, w := 2, acc := .rw }
/-- R448. -/
def DIR : Fld := { off := 0x050, lo := 2, w := 1, acc := .rw }
/-- R448. -/
def SLOT : Fld := { off := 0x050, lo := 4, w := 5, acc := .rw }
/-- R448. -/
def CORE : Fld := { off := 0x050, lo := 16, w := 8, acc := .rw }
/-- R448. -/
def LEN : Fld := { off := 0x054, lo := 0, w := 25, acc := .rw }
/-- R448. -/
def POST_OBJ : Fld := { off := 0x058, lo := 0, w := 16, acc := .rw }
/-- R448. -/
def POST_EN : Fld := { off := 0x058, lo := 16, w := 1, acc := .rw }
/-- R448. -/
def BYTES_DONE : Fld := { off := 0x05C, lo := 0, w := 25 }

/-- The fields of the page after its common header (R448). -/
def all : List Fld :=
  [HOST_LO, HOST_HI, DEV_LO, DEV_HI, SPACE, DIR, SLOT, CORE,
   LEN, POST_OBJ, POST_EN, BYTES_DONE]

end Reg.bridgeDma

namespace Reg.gateway

/-- R483. -/
def ARCHIVE : Fld := { off := 0x040, lo := 0, w := 32, acc := .rwl, reset := 0x00080000, lock := some 0 }
/-- R483. -/
def CFG_GEN : Fld := { off := 0x044, lo := 0, w := 32 }
/-- R483. -/
def BUF_FREE : Fld := { off := 0x048, lo := 0, w := 13, reset := 4096, derived := true }
/-- R483. -/
def TREE_BASE : Fld := { off := 0x04C, lo := 0, w := 15, acc := .rw }
/-- R483. -/
def TREE_LOOPS : Fld := { off := 0x050, lo := 0, w := 32 }
/-- R483. -/
def SLOW_DROPS : Fld := { off := 0x054, lo := 0, w := 32 }
/-- R483. -/
def FORWARDED : Fld := { off := 0x058, lo := 0, w := 64 }
/-- R483. -/
def GUAR : Fld := { off := 0x060, lo := 0, w := 10, stride := 4, count := 8, acc := .rwl, reset := 64, range := some (0, 512), lock := some 0 }
/-- R483. -/
def WEIGHT : Fld := { off := 0x060, lo := 16, w := 8, stride := 4, count := 8, acc := .rwl, reset := 1, rstep := 1, range := some (1, 255), lock := some 0 }
/-- R483. -/
def ROOT : Fld := { off := 0x080, lo := 0, w := 15, stride := 4, count := 13 }
/-- R483. -/
def RT_W : Fld := { off := 0x0C0, lo := 0, w := 32, stride := 4, count := 8, acc := .rw }
/-- R483. -/
def CMP : Fld := { off := 0x100, lo := 0, w := 32, stride := 4, count := 256, acc := .rwl, lock := some 0 }
/-- R483. -/
def LIM : Fld := { off := 0x500, lo := 0, w := 32, stride := 4, count := 256, acc := .rwl, lock := some 0 }
/-- R483. -/
def NODE : Fld := { off := 0xC00, lo := 0, w := 32, stride := 4, count := 256, acc := .rwl, lock := some 0, derived := true }

/-- The fields of the page after its common header (R483). -/
def all : List Fld :=
  [ARCHIVE, CFG_GEN, BUF_FREE, TREE_BASE, TREE_LOOPS, SLOW_DROPS, FORWARDED, GUAR,
   WEIGHT, ROOT, RT_W, CMP, LIM, NODE]

end Reg.gateway

namespace Reg.port

/-- R484. -/
def RX_FRAMES : Fld := { off := 0x040, lo := 0, w := 32 }
/-- R484. -/
def DROP : Fld := { off := 0x044, lo := 0, w := 32, stride := 4, count := 17 }
/-- R484. -/
def TX_FRAMES : Fld := { off := 0x088, lo := 0, w := 32 }
/-- R484. -/
def EXT1_OFF : Fld := { off := 0x0F0, lo := 0, w := 8, acc := .rw }
/-- R484. -/
def EXT2_OFF : Fld := { off := 0x0F0, lo := 8, w := 8, acc := .rw, reset := 4 }

/-- The fields of the page after its common header (R484). -/
def all : List Fld :=
  [RX_FRAMES, DROP, TX_FRAMES, EXT1_OFF, EXT2_OFF]

end Reg.port

namespace Reg.canPort

/-- R484. -/
def NOM_BRP : Fld := { off := 0x100, lo := 0, w := 5, acc := .rw }
/-- R484. -/
def NOM_TSEG1 : Fld := { off := 0x100, lo := 8, w := 8, acc := .rw }
/-- R484. -/
def NOM_TSEG2 : Fld := { off := 0x100, lo := 16, w := 7, acc := .rw }
/-- R484. -/
def NOM_SJW : Fld := { off := 0x100, lo := 24, w := 7, acc := .rw }
/-- R484. -/
def DATA_BRP : Fld := { off := 0x104, lo := 0, w := 5, acc := .rw }
/-- R484. -/
def DATA_TSEG1 : Fld := { off := 0x104, lo := 8, w := 5, acc := .rw }
/-- R484. -/
def DATA_TSEG2 : Fld := { off := 0x104, lo := 16, w := 4, acc := .rw }
/-- R484. -/
def DATA_SJW : Fld := { off := 0x104, lo := 24, w := 4, acc := .rw }
/-- R484. -/
def FD_EN : Fld := { off := 0x108, lo := 0, w := 1, acc := .rw }
/-- R484. -/
def TDC_EN : Fld := { off := 0x108, lo := 1, w := 1, acc := .rw }
/-- R484. -/
def TDCO : Fld := { off := 0x108, lo := 2, w := 7, acc := .rw }
/-- R484. -/
def LISTEN_ONLY : Fld := { off := 0x108, lo := 9, w := 1, acc := .rw }
/-- R484. -/
def TEC : Fld := { off := 0x10C, lo := 0, w := 8 }
/-- R484. -/
def REC : Fld := { off := 0x10C, lo := 8, w := 8 }
/-- R484. -/
def BUS_OFF : Fld := { off := 0x10C, lo := 16, w := 1 }
/-- R484. -/
def BUS_OFF_COUNT : Fld := { off := 0x10C, lo := 24, w := 8 }

/-- The fields of the page after its common header (R484). -/
def all : List Fld :=
  [NOM_BRP, NOM_TSEG1, NOM_TSEG2, NOM_SJW, DATA_BRP, DATA_TSEG1, DATA_TSEG2, DATA_SJW,
   FD_EN, TDC_EN, TDCO, LISTEN_ONLY, TEC, REC, BUS_OFF, BUS_OFF_COUNT]

end Reg.canPort

namespace Reg.ethPort

/-- R484. -/
def MAC : Fld := { off := 0x100, lo := 0, w := 32, stride := 4, count := 2, acc := .rw }
/-- R484. -/
def MCAST_ALL : Fld := { off := 0x108, lo := 0, w := 1, acc := .rw }
/-- R484. -/
def MAC_M : Fld := { off := 0x110, lo := 0, w := 32, stride := 4, count := 16, acc := .rw }
/-- R484. -/
def IP_ADDR : Fld := { off := 0x150, lo := 0, w := 32, acc := .rw }
/-- R484. -/
def MGMT_UDP : Fld := { off := 0x154, lo := 0, w := 16, acc := .rw }
/-- R484. -/
def MGMT_REJECTED : Fld := { off := 0x158, lo := 0, w := 16 }

/-- The fields of the page after its common header (R484). -/
def all : List Fld :=
  [MAC, MCAST_ALL, MAC_M, IP_ADDR, MGMT_UDP, MGMT_REJECTED]

end Reg.ethPort

namespace Reg.uartPort

/-- R484. -/
def BAUD : Fld := { off := 0x100, lo := 0, w := 24, acc := .rw }
/-- R484. -/
def MODE : Fld := { off := 0x104, lo := 0, w := 1, acc := .rw }
/-- R484. -/
def PARITY : Fld := { off := 0x104, lo := 1, w := 2, acc := .rw }
/-- R484. -/
def SILENCE : Fld := { off := 0x104, lo := 8, w := 8, acc := .rw }

/-- The fields of the page after its common header (R484). -/
def all : List Fld :=
  [BAUD, MODE, PARITY, SILENCE]

end Reg.uartPort

namespace Reg.pmbPort

/-- R484. -/
def SPEED : Fld := { off := 0x100, lo := 0, w := 2, acc := .rw }
/-- R484. -/
def POLL : Fld := { off := 0x140, lo := 0, w := 32, stride := 4, count := 32, acc := .rw }

/-- The fields of the page after its common header (R484). -/
def all : List Fld :=
  [SPEED, POLL]

end Reg.pmbPort

namespace Reg.siteBus

/-- R514. -/
def SB_PORT : Fld := { off := 0x040, lo := 0, w := 2, acc := .rwl, lock := some 0 }
/-- R514. -/
def MASTER_CAP : Fld := { off := 0x040, lo := 2, w := 1, acc := .rwl, lock := some 0 }
/-- R514. -/
def RANK : Fld := { off := 0x040, lo := 3, w := 3, acc := .rwl, lock := some 0 }
/-- R514. -/
def MODULE_NO : Fld := { off := 0x040, lo := 8, w := 5, acc := .rwl, lock := some 0 }
/-- R514. -/
def REF_ID : Fld := { off := 0x044, lo := 0, w := 11, acc := .rwl, range := some (0, 0x7F8), lock := some 0 }
/-- R514. -/
def CMD_ID : Fld := { off := 0x044, lo := 16, w := 11, acc := .rwl, range := some (0, 0x7FE), lock := some 0 }
/-- R514. -/
def PS_ID : Fld := { off := 0x048, lo := 0, w := 11, acc := .rwl, range := some (0, 0x7F8), lock := some 0 }
/-- R514. -/
def WAKE_ID : Fld := { off := 0x048, lo := 16, w := 11, acc := .rwl, range := some (0, 0x7FE), lock := some 0 }
/-- R514. -/
def SLOTS_M1 : Fld := { off := 0x04C, lo := 0, w := 8, acc := .rwl, reset := 1, range := some (1, 255), lock := some 0 }
/-- R514. -/
def SLOT_LEN : Fld := { off := 0x04C, lo := 16, w := 14, acc := .rwl, reset := 1000, range := some (50, 10000), lock := some 0 }
/-- R514. -/
def GUARD : Fld := { off := 0x050, lo := 0, w := 8, acc := .rwl, reset := 40, range := some (5, 200), lock := some 0 }
/-- R514. -/
def WAKE_RATE : Fld := { off := 0x050, lo := 8, w := 2, acc := .rwl, reset := 2, lock := some 0 }
/-- R514. -/
def WAKE_PORT : Fld := { off := 0x050, lo := 16, w := 2, acc := .rwl, lock := some 0 }
/-- R514. -/
def WAKE_TRIES : Fld := { off := 0x050, lo := 24, w := 8, acc := .rwl, reset := 20, range := some (2, 255), lock := some 0 }
/-- R514. -/
def SB_KEY : Fld := { off := 0x054, lo := 0, w := 7, acc := .rwl, lock := some 0 }
/-- R514. -/
def CMD_KEY : Fld := { off := 0x054, lo := 8, w := 7, acc := .rwl, lock := some 0 }
/-- R514. -/
def FV_BASE : Fld := { off := 0x054, lo := 16, w := 10, acc := .rwl, range := some (0, 944), lock := some 0 }
/-- R514. -/
def PS_FALLBACK : Fld := { off := 0x058, lo := 0, w := 16, acc := .rwl, reset := 4000, range := some (0, 40000), lock := some 0 }
/-- R514. -/
def SLOT_TYPE : Fld := { off := 0x060, lo := 0, w := 32, stride := 4, count := 8, acc := .rwl, lock := some 0 }
/-- R514. -/
def STATE : Fld := { off := 0x080, lo := 0, w := 3, derived := true }
/-- R514. -/
def MASTER : Fld := { off := 0x080, lo := 3, w := 1 }
/-- R514. -/
def MASTER_RANK : Fld := { off := 0x080, lo := 4, w := 3 }
/-- R514. -/
def CYCLE : Fld := { off := 0x084, lo := 0, w := 32, derived := true }
/-- R514. -/
def LAST_CORR : Fld := { off := 0x088, lo := 0, w := 32 }
/-- R514. -/
def RATE : Fld := { off := 0x08C, lo := 0, w := 32, derived := true }
/-- R514. -/
def GT : Fld := { off := 0x090, lo := 0, w := 64, derived := true }
/-- R514. -/
def REF_RX : Fld := { off := 0x098, lo := 0, w := 16 }
/-- R514. -/
def REF_MISSED : Fld := { off := 0x098, lo := 16, w := 16 }
/-- R514. -/
def MUTES : Fld := { off := 0x09C, lo := 0, w := 16 }
/-- R514. -/
def TX_FAIL : Fld := { off := 0x09C, lo := 16, w := 16 }
/-- R514. -/
def INTRUSIONS : Fld := { off := 0x0A0, lo := 0, w := 16 }
/-- R514. -/
def LAST_FAIL_SLOT : Fld := { off := 0x0A0, lo := 16, w := 8 }
/-- R514. -/
def LAST_FAIL_KIND : Fld := { off := 0x0A0, lo := 24, w := 3 }
/-- R514. -/
def PS_ACCEPTED : Fld := { off := 0x0A4, lo := 0, w := 16 }
/-- R514. -/
def PS_REJECTED : Fld := { off := 0x0A4, lo := 16, w := 16 }
/-- R514. -/
def WAKE_SENDER : Fld := { off := 0x0A8, lo := 0, w := 5 }
/-- R514. -/
def MASTER_CHANGES : Fld := { off := 0x0A8, lo := 16, w := 16 }
/-- R514. -/
def ACK_MASK : Fld := { off := 0x0AC, lo := 0, w := 32 }
/-- R514. -/
def FV_SEL : Fld := { off := 0x0B0, lo := 0, w := 10, acc := .rw }
/-- R514. -/
def FV_VAL : Fld := { off := 0x0B8, lo := 0, w := 64, derived := true }
/-- R514. -/
def SLOT_TYPE_HI : Fld := { off := 0x0C0, lo := 0, w := 32, stride := 4, count := 8, acc := .rwl, lock := some 0 }
/-- R514. -/
def OWN_FAIL : Fld := { off := 0x100, lo := 0, w := 32, stride := 4, count := 8, acc := .w1c }

/-- The fields of the page after its common header (R514). -/
def all : List Fld :=
  [SB_PORT, MASTER_CAP, RANK, MODULE_NO, REF_ID, CMD_ID, PS_ID, WAKE_ID,
   SLOTS_M1, SLOT_LEN, GUARD, WAKE_RATE, WAKE_PORT, WAKE_TRIES, SB_KEY, CMD_KEY,
   FV_BASE, PS_FALLBACK, SLOT_TYPE, STATE, MASTER, MASTER_RANK, CYCLE, LAST_CORR,
   RATE, GT, REF_RX, REF_MISSED, MUTES, TX_FAIL, INTRUSIONS, LAST_FAIL_SLOT,
   LAST_FAIL_KIND, PS_ACCEPTED, PS_REJECTED, WAKE_SENDER, MASTER_CHANGES, ACK_MASK, FV_SEL, FV_VAL,
   SLOT_TYPE_HI, OWN_FAIL]

end Reg.siteBus

namespace Reg.aux

/-- R537. -/
def SUM : Fld := { off := 0x040, lo := 0, w := 16 }
/-- R537. -/
def EPO_MASK : Fld := { off := 0x044, lo := 0, w := 8, acc := .rwl, reset := 0xFF, lock := some 0 }
/-- R537. -/
def DEMAND : Fld := { off := 0x048, lo := 0, w := 8 }
/-- R537. -/
def STEADY : Fld := { off := 0x100, lo := 0, w := 10, stride := 32, count := 8, acc := .rwl, range := some (0, 1000), lock := some 0 }
/-- R537. -/
def HOLD : Fld := { off := 0x100, lo := 16, w := 10, stride := 32, count := 8, acc := .rwl, range := some (0, 1000), lock := some 0 }
/-- R537. -/
def INRUSH : Fld := { off := 0x104, lo := 0, w := 12, stride := 32, count := 8, acc := .rwl, range := some (0, 3000), lock := some 0 }
/-- R537. -/
def INRUSH_MS : Fld := { off := 0x104, lo := 16, w := 9, stride := 32, count := 8, acc := .rwl, reset := 1, range := some (1, 500), lock := some 0 }
/-- R537. -/
def SHORT_A : Fld := { off := 0x108, lo := 0, w := 6, stride := 32, count := 8, acc := .rwl, reset := 2, range := some (2, 40), lock := some 0 }
/-- R537. -/
def SHUNT : Fld := { off := 0x108, lo := 8, w := 12, stride := 32, count := 8, acc := .rwl, reset := 500, range := some (100, 1000), lock := some 0 }
/-- R537. -/
def PRIO : Fld := { off := 0x108, lo := 24, w := 3, stride := 32, count := 8, acc := .rwl, lock := some 0 }
/-- R537. -/
def OWNER : Fld := { off := 0x108, lo := 28, w := 1, stride := 32, count := 8, acc := .rwl, lock := some 0 }
/-- R537. -/
def STATE : Fld := { off := 0x10C, lo := 0, w := 3, stride := 32, count := 8 }
/-- R537. -/
def CAUSE : Fld := { off := 0x10C, lo := 8, w := 3, stride := 32, count := 8 }
/-- R537. -/
def I_NOW : Fld := { off := 0x110, lo := 0, w := 16, stride := 32, count := 8 }
/-- R537. -/
def INRUSH_USED : Fld := { off := 0x114, lo := 0, w := 20, stride := 32, count := 8, derived := true }
/-- R537. -/
def SHORTS : Fld := { off := 0x118, lo := 0, w := 16, stride := 32, count := 8 }
/-- R537. -/
def HOLDS : Fld := { off := 0x118, lo := 16, w := 16, stride := 32, count := 8 }

/-- The fields of the page after its common header (R537). -/
def all : List Fld :=
  [SUM, EPO_MASK, DEMAND, STEADY, HOLD, INRUSH, INRUSH_MS, SHORT_A,
   SHUNT, PRIO, OWNER, STATE, CAUSE, I_NOW, INRUSH_USED, SHORTS,
   HOLDS]

end Reg.aux

namespace Reg.dualIn

/-- R538. -/
def EPO_DISC : Fld := { off := 0x040, lo := 0, w := 10, acc := .rwl, reset := 100, range := some (1, 1000), lock := some 0 }
/-- R538. -/
def EPO_MODE : Fld := { off := 0x040, lo := 16, w := 1, acc := .rwl, lock := some 0 }
/-- R538. -/
def TAMP_DISC : Fld := { off := 0x044, lo := 0, w := 10, acc := .rwl, reset := 100, range := some (1, 1000), lock := some 0 }
/-- R538. -/
def TAMP_MODE : Fld := { off := 0x044, lo := 16, w := 1, acc := .rwl, lock := some 0 }
/-- R538. -/
def EPO_STAT : Fld := { off := 0x048, lo := 0, w := 7, derived := true }
/-- R538. -/
def TAMP_STAT : Fld := { off := 0x048, lo := 8, w := 7, derived := true }
/-- R538. -/
def EPO_TIME : Fld := { off := 0x050, lo := 0, w := 64 }
/-- R538. -/
def TAMP_TIME : Fld := { off := 0x058, lo := 0, w := 64 }
/-- R538. -/
def EPO_DFAULTS : Fld := { off := 0x060, lo := 0, w := 16 }
/-- R538. -/
def TAMP_DFAULTS : Fld := { off := 0x060, lo := 16, w := 16 }
/-- R538. -/
def ALERT_MASK : Fld := { off := 0x064, lo := 0, w := 9, acc := .rwl, reset := 0x00D, lock := some 0 }
/-- R538. -/
def ALERT_SRC : Fld := { off := 0x068, lo := 0, w := 9, derived := true }

/-- The fields of the page after its common header (R538). -/
def all : List Fld :=
  [EPO_DISC, EPO_MODE, TAMP_DISC, TAMP_MODE, EPO_STAT, TAMP_STAT, EPO_TIME, TAMP_TIME,
   EPO_DFAULTS, TAMP_DFAULTS, ALERT_MASK, ALERT_SRC]

end Reg.dualIn

namespace Reg.siteChannel

/-- R568. -/
def STATE : Fld := { off := 0x040, lo := 0, w := 2 }
/-- R568. -/
def CASTLED : Fld := { off := 0x040, lo := 2, w := 1, reset := 1 }
/-- R568. -/
def LAST_CAUSE : Fld := { off := 0x040, lo := 8, w := 8, reset := 11 }
/-- R568. -/
def CLEAN : Fld := { off := 0x040, lo := 16, w := 8 }
/-- R568. -/
def CAUSE_LATCH : Fld := { off := 0x044, lo := 0, w := 12, acc := .w1c, reset := 0x800 }
/-- R568. -/
def CAM_W : Fld := { off := 0x048, lo := 0, w := 11, acc := .rwl, reset := 640, range := some (32, 1280), lock := some 0 }
/-- R568. -/
def CAM_H : Fld := { off := 0x048, lo := 16, w := 11, acc := .rwl, reset := 512, range := some (32, 1024), lock := some 0 }
/-- R568. -/
def RAW16 : Fld := { off := 0x04C, lo := 0, w := 1, acc := .rwl, lock := some 0 }
/-- R568. -/
def DS : Fld := { off := 0x04C, lo := 1, w := 2, acc := .rwl, lock := some 0 }
/-- R568. -/
def TP_LINES_M1 : Fld := { off := 0x04C, lo := 4, w := 2, acc := .rwl, lock := some 0 }
/-- R568. -/
def FC_OFFSET : Fld := { off := 0x04C, lo := 8, w := 8, acc := .rwl, lock := some 0 }
/-- R568. -/
def BLACK : Fld := { off := 0x050, lo := 0, w := 16, acc := .rwl, lock := some 0 }
/-- R568. -/
def FRAME_TIMEOUT : Fld := { off := 0x050, lo := 16, w := 10, acc := .rwl, reset := 100, range := some (1, 1000), lock := some 0 }
/-- R568. -/
def GAIN : Fld := { off := 0x054, lo := 0, w := 32, acc := .rwl, reset := 0x3F800000, lock := some 0 }
/-- R568. -/
def IN_BASE : Fld := { off := 0x058, lo := 0, w := 18, acc := .rwl, lock := some 0 }
/-- R568. -/
def OUT_BASE : Fld := { off := 0x05C, lo := 0, w := 18, acc := .rwl, lock := some 0 }
/-- R568. -/
def AGE_LIMIT : Fld := { off := 0x060, lo := 0, w := 10, acc := .rwl, reset := 100, range := some (1, 1000), lock := some 0 }
/-- R568. -/
def UNCASTLE_FRAMES : Fld := { off := 0x060, lo := 16, w := 8, acc := .rwl, reset := 16, range := some (1, 255), lock := some 0 }
/-- R568. -/
def AUTO_UNCASTLE : Fld := { off := 0x060, lo := 24, w := 1, acc := .rwl, lock := some 0 }
/-- R568. -/
def CASTLE_MIN : Fld := { off := 0x064, lo := 0, w := 16, acc := .rwl, reset := 1000, lock := some 0 }
/-- R568. -/
def SC_KEY : Fld := { off := 0x068, lo := 0, w := 7, acc := .rwl, lock := some 0 }
/-- R568. -/
def KICKS_A : Fld := { off := 0x068, lo := 8, w := 8, acc := .rwl, lock := some 0 }
/-- R568. -/
def KICKS_B : Fld := { off := 0x068, lo := 16, w := 8, acc := .rwl, lock := some 0 }
/-- R568. -/
def ARCHIVE : Fld := { off := 0x06C, lo := 0, w := 32, acc := .rwl, reset := 0x00400000, lock := some 0 }
/-- R568. -/
def OPEN : Fld := { off := 0x080, lo := 0, w := 20, stride := 8, count := 6, acc := .rwl, range := some (0, 1000000), lock := some 0 }
/-- R568. -/
def CLOSE : Fld := { off := 0x084, lo := 0, w := 20, stride := 8, count := 6, acc := .rwl, range := some (0, 1000000), lock := some 0 }
/-- R568. -/
def FRAMES : Fld := { off := 0x0C0, lo := 0, w := 32 }
/-- R568. -/
def FRAME_ERRS : Fld := { off := 0x0C4, lo := 0, w := 16 }
/-- R568. -/
def WINDOW_ERRS : Fld := { off := 0x0C4, lo := 16, w := 16 }
/-- R568. -/
def MISMATCHES : Fld := { off := 0x0C8, lo := 0, w := 16 }
/-- R568. -/
def CASTLES : Fld := { off := 0x0C8, lo := 16, w := 16 }
/-- R568. -/
def CSI_CORRECTED : Fld := { off := 0x0CC, lo := 0, w := 16 }
/-- R568. -/
def CSI_IGNORED : Fld := { off := 0x0CC, lo := 16, w := 16 }
/-- R568. -/
def UNMATCHED : Fld := { off := 0x0D0, lo := 0, w := 16 }
/-- R568. -/
def REPEATS : Fld := { off := 0x0D0, lo := 16, w := 16 }
/-- R568. -/
def SHADOW_ACTIONS : Fld := { off := 0x0E0, lo := 0, w := 32, stride := 4, count := 8 }
/-- R568. -/
def SRC_PORT : Fld := { off := 0x100, lo := 0, w := 4, stride := 16, count := 32, acc := .rwl, lock := some 0 }
/-- R568. -/
def SRC_VALID : Fld := { off := 0x100, lo := 4, w := 1, stride := 16, count := 32, acc := .rwl, lock := some 0 }
/-- R568. -/
def CASTLE_ON_FAIL : Fld := { off := 0x100, lo := 5, w := 1, stride := 16, count := 32, acc := .rwl, lock := some 0 }
/-- R568. -/
def MAX_DELTA : Fld := { off := 0x100, lo := 8, w := 4, stride := 16, count := 32, acc := .rwl, lock := some 0 }
/-- R568. -/
def AGE_MS : Fld := { off := 0x100, lo := 16, w := 10, stride := 16, count := 32, acc := .rwl, lock := some 0 }
/-- R568. -/
def SRC_KEYV : Fld := { off := 0x104, lo := 0, w := 30, stride := 16, count := 32, acc := .rwl, lock := some 0 }
/-- R568. -/
def DATA_ID : Fld := { off := 0x108, lo := 0, w := 16, stride := 16, count := 32, acc := .rwl, lock := some 0 }
/-- R568. -/
def SRC_OK : Fld := { off := 0x10C, lo := 0, w := 1, stride := 16, count := 32 }
/-- R568. -/
def LAST_FAIL : Fld := { off := 0x10C, lo := 1, w := 3, stride := 16, count := 32 }
/-- R568. -/
def SIG_SOURCE : Fld := { off := 0x300, lo := 0, w := 5, stride := 8, count := 64, acc := .rwl, lock := some 0 }
/-- R568. -/
def SIG_OFFSET : Fld := { off := 0x300, lo := 5, w := 6, stride := 8, count := 64, acc := .rwl, lock := some 0 }
/-- R568. -/
def SIG_WIDTH : Fld := { off := 0x300, lo := 12, w := 2, stride := 8, count := 64, acc := .rwl, lock := some 0 }
/-- R568. -/
def SIG_SIGNED : Fld := { off := 0x300, lo := 14, w := 1, stride := 8, count := 64, acc := .rwl, lock := some 0 }
/-- R568. -/
def SIG_VALID : Fld := { off := 0x300, lo := 15, w := 1, stride := 8, count := 64, acc := .rwl, lock := some 0 }
/-- R568. -/
def SIG_SCALE : Fld := { off := 0x304, lo := 0, w := 32, stride := 8, count := 64, acc := .rwl, lock := some 0 }
/-- R568. -/
def RAW : Fld := { off := 0x500, lo := 0, w := 32, stride := 4, count := 64 }

/-- The fields of the page after its common header (R568). -/
def all : List Fld :=
  [STATE, CASTLED, LAST_CAUSE, CLEAN, CAUSE_LATCH, CAM_W, CAM_H, RAW16,
   DS, TP_LINES_M1, FC_OFFSET, BLACK, FRAME_TIMEOUT, GAIN, IN_BASE, OUT_BASE,
   AGE_LIMIT, UNCASTLE_FRAMES, AUTO_UNCASTLE, CASTLE_MIN, SC_KEY, KICKS_A, KICKS_B, ARCHIVE,
   OPEN, CLOSE, FRAMES, FRAME_ERRS, WINDOW_ERRS, MISMATCHES, CASTLES, CSI_CORRECTED,
   CSI_IGNORED, UNMATCHED, REPEATS, SHADOW_ACTIONS, SRC_PORT, SRC_VALID, CASTLE_ON_FAIL, MAX_DELTA,
   AGE_MS, SRC_KEYV, DATA_ID, SRC_OK, LAST_FAIL, SIG_SOURCE, SIG_OFFSET, SIG_WIDTH,
   SIG_SIGNED, SIG_VALID, SIG_SCALE, RAW]

end Reg.siteChannel

namespace Reg.castle

/-- R569. -/
def IN_CONTROL : Fld := { off := 0x040, lo := 0, w := 1, reset := 1, derived := true }
/-- R569. -/
def TABLE_FAULT : Fld := { off := 0x040, lo := 1, w := 1 }
/-- R569. -/
def CAP_OUT : Fld := { off := 0x040, lo := 8, w := 16 }
/-- R569. -/
def AUX_OUT : Fld := { off := 0x040, lo := 24, w := 8 }
/-- R569. -/
def ACTIVE_RULES : Fld := { off := 0x048, lo := 0, w := 64, derived := true }
/-- R569. -/
def CASTLE_CAP : Fld := { off := 0x050, lo := 0, w := 16, acc := .rwl, reset := 4000, range := some (0, 40000), lock := some 0 }
/-- R569. -/
def SAFE_AUX : Fld := { off := 0x050, lo := 16, w := 8, acc := .rwl, lock := some 0 }
/-- R569. -/
def PS_PERIOD : Fld := { off := 0x054, lo := 0, w := 16, acc := .rwl, lock := some 0 }
/-- R569. -/
def PS_HOLD : Fld := { off := 0x054, lo := 16, w := 16, acc := .rwl, lock := some 0 }
/-- R569. -/
def PS_MASK : Fld := { off := 0x058, lo := 0, w := 32, acc := .rwl, lock := some 0 }
/-- R569. -/
def RULE : Fld := { off := 0x100, lo := 0, w := 32, stride := 4, count := 256, acc := .rwl, lock := some 0 }

/-- The fields of the page after its common header (R569). -/
def all : List Fld :=
  [IN_CONTROL, TABLE_FAULT, CAP_OUT, AUX_OUT, ACTIVE_RULES, CASTLE_CAP, SAFE_AUX, PS_PERIOD,
   PS_HOLD, PS_MASK, RULE]

end Reg.castle

namespace Reg.keyStore

/-- R601. -/
def TAMPERED : Fld := { off := 0x040, lo := 0, w := 1 }
/-- R601. -/
def ENTROPY_FAIL : Fld := { off := 0x040, lo := 1, w := 1 }
/-- R601. -/
def SEALED : Fld := { off := 0x040, lo := 2, w := 1, derived := true }
/-- R601. -/
def DEV_MODE : Fld := { off := 0x040, lo := 3, w := 1, derived := true }
/-- R601. -/
def LOADED : Fld := { off := 0x040, lo := 4, w := 1 }
/-- R601. -/
def EPOCH : Fld := { off := 0x044, lo := 0, w := 8, derived := true }
/-- R601. -/
def KS_ATTR : Fld := { off := 0x048, lo := 0, w := 32, acc := .rw, perClient := true }
/-- R601. -/
def TARGET : Fld := { off := 0x04C, lo := 0, w := 32, stride := 4, count := 4, acc := .rw, perClient := true }
/-- R601. -/
def SLOTS_VALID : Fld := { off := 0x060, lo := 0, w := 8, derived := true }
/-- R601. -/
def BUF : Fld := { off := 0x100, lo := 0, w := 32, stride := 4, count := 128, acc := .rw, perClient := true }

/-- The fields of the page after its common header (R601). -/
def all : List Fld :=
  [TAMPERED, ENTROPY_FAIL, SEALED, DEV_MODE, LOADED, EPOCH, KS_ATTR, TARGET,
   SLOTS_VALID, BUF]

end Reg.keyStore

namespace Reg.keySlot

/-- R603. -/
def ATTR : Fld := { off := 0x100, lo := 0, w := 32, stride := 32, count := 16, derived := true }
/-- R603. -/
def GEN : Fld := { off := 0x104, lo := 0, w := 30, stride := 32, count := 16, derived := true }
/-- R603. -/
def KSTATE : Fld := { off := 0x108, lo := 0, w := 2, stride := 32, count := 16, derived := true }
/-- R603. -/
def CELL : Fld := { off := 0x108, lo := 4, w := 1, stride := 32, count := 16, derived := true }
/-- R603. -/
def KCV : Fld := { off := 0x10C, lo := 0, w := 24, stride := 32, count := 16, derived := true }
/-- R603. -/
def USES : Fld := { off := 0x110, lo := 0, w := 32, stride := 32, count := 16, derived := true }

/-- The fields of the page after its common header (R603). -/
def all : List Fld :=
  [ATTR, GEN, KSTATE, CELL, KCV, USES]

end Reg.keySlot

namespace Reg.fuse

/-- R604. -/
def FUSE_VAL : Fld := { off := 0x040, lo := 0, w := 32, stride := 4, count := 12, acc := .rw }
/-- R604. -/
def BANK : Fld := { off := 0x120, lo := 0, w := 32, stride := 4, count := 38, derived := true }

/-- The fields of the page after its common header (R604). -/
def all : List Fld :=
  [FUSE_VAL, BANK]

end Reg.fuse

namespace Reg.tamper

/-- R605. -/
def TAMPER_CAUSE : Fld := { off := 0x040, lo := 0, w := 4 }
/-- R605. -/
def MON_STAT : Fld := { off := 0x044, lo := 0, w := 8 }
/-- R605. -/
def TAMPER_TIME : Fld := { off := 0x048, lo := 0, w := 64 }
/-- R605. -/
def TAMPERS : Fld := { off := 0x050, lo := 0, w := 16 }
/-- R605. -/
def BIST_FAILS : Fld := { off := 0x050, lo := 16, w := 16 }

/-- The fields of the page after its common header (R605). -/
def all : List Fld :=
  [TAMPER_CAUSE, MON_STAT, TAMPER_TIME, TAMPERS, BIST_FAILS]

end Reg.tamper

namespace Reg.eventLog

/-- R623. -/
def FF_COUNT : Fld := { off := 0x040, lo := 0, w := 13, derived := true }
/-- R623. -/
def FF_FULL : Fld := { off := 0x044, lo := 0, w := 1 }
/-- R623. -/
def TFULL : Fld := { off := 0x044, lo := 1, w := 1 }
/-- R623. -/
def FF_MIN_SEV : Fld := { off := 0x044, lo := 8, w := 2, acc := .rwl, reset := 1, lock := some 0 }
/-- R623. -/
def RL_NEXT : Fld := { off := 0x048, lo := 0, w := 64, derived := true }
/-- R623. -/
def RL_LOW : Fld := { off := 0x050, lo := 0, w := 64, derived := true }
/-- R623. -/
def OP_SECONDS : Fld := { off := 0x058, lo := 0, w := 32, derived := true }
/-- R623. -/
def POWER_CYCLES : Fld := { off := 0x05C, lo := 0, w := 32, derived := true }
/-- R623. -/
def LOST : Fld := { off := 0x060, lo := 0, w := 32 }
/-- R623. -/
def OVERWRITES : Fld := { off := 0x064, lo := 0, w := 32 }
/-- R623. -/
def DEF_N : Fld := { off := 0x068, lo := 0, w := 8, acc := .rwl, reset := 4, range := some (1, 255), lock := some 0 }
/-- R623. -/
def DEF_W : Fld := { off := 0x068, lo := 16, w := 16, acc := .rwl, reset := 1000, range := some (1, 60000), lock := some 0 }
/-- R623. -/
def RD_FF_INDEX : Fld := { off := 0x070, lo := 0, w := 12, acc := .rw, perClient := true }
/-- R623. -/
def RD_RL_SEQ_LO : Fld := { off := 0x074, lo := 0, w := 32, acc := .rw, perClient := true }
/-- R623. -/
def RD_RL_SEQ_HI : Fld := { off := 0x078, lo := 0, w := 32, acc := .rw, perClient := true }
/-- R623. -/
def RD_STAT : Fld := { off := 0x07C, lo := 0, w := 2, perClient := true }
/-- R623. -/
def RD_W : Fld := { off := 0x080, lo := 0, w := 32, stride := 4, count := 8, perClient := true }
/-- R623. -/
def CODE : Fld := { off := 0x100, lo := 0, w := 16, stride := 8, count := 32, acc := .rwl, lock := some 0 }
/-- R623. -/
def LVALID : Fld := { off := 0x100, lo := 16, w := 1, stride := 8, count := 32, acc := .rwl, lock := some 0 }
/-- R623. -/
def LN : Fld := { off := 0x104, lo := 0, w := 8, stride := 8, count := 32, acc := .rwl, lock := some 0 }
/-- R623. -/
def LW : Fld := { off := 0x104, lo := 16, w := 16, stride := 8, count := 32, acc := .rwl, lock := some 0 }

/-- The fields of the page after its common header (R623). -/
def all : List Fld :=
  [FF_COUNT, FF_FULL, TFULL, FF_MIN_SEV, RL_NEXT, RL_LOW, OP_SECONDS, POWER_CYCLES,
   LOST, OVERWRITES, DEF_N, DEF_W, RD_FF_INDEX, RD_RL_SEQ_LO, RD_RL_SEQ_HI, RD_STAT,
   RD_W, CODE, LVALID, LN, LW]

end Reg.eventLog

/-- The fields of a page of each block type, after the common header. -/
def regsOf : Block → List Fld
  | .directory => Reg.directory.all
  | .journal => Reg.journal.all
  | .eventLog => Reg.eventLog.all
  | .powerState => Reg.powerState.all
  | .diePower => []
  | .powerStage => Reg.powerStage.all
  | .weir => Reg.weir.all
  | .dieModel => Reg.dieModel.all
  | .energy => Reg.energy.all
  | .tenantEnergy => Reg.tenantEnergy.all
  | .time => Reg.time.all
  | .wake => Reg.wake.all
  | .dieFreq => Reg.dieFreq.all
  | .heat => Reg.heat.all
  | .core => Reg.core.all
  | .arrayGroup => Reg.arrayGroup.all
  | .dma => Reg.dma.all
  | .sequencer => Reg.sequencer.all
  | .syncBank => Reg.syncBank.all
  | .objectPage => Reg.objectPage.all
  | .admission => Reg.admission.all
  | .jobSlot => Reg.jobSlot.all
  | .stackCtrl => Reg.stackCtrl.all
  | .nerius => Reg.nerius.all
  | .peerTable => Reg.peerTable.all
  | .aux => Reg.aux.all
  | .dualIn => Reg.dualIn.all
  | .siteChannel => Reg.siteChannel.all
  | .castle => Reg.castle.all
  | .gateway => Reg.gateway.all
  | .canPort => Reg.port.all ++ Reg.canPort.all
  | .ethPort => Reg.port.all ++ Reg.ethPort.all
  | .uartPort => Reg.port.all ++ Reg.uartPort.all
  | .pmbPort => Reg.port.all ++ Reg.pmbPort.all
  | .siteBus => Reg.siteBus.all
  | .boot => Reg.boot.all
  | .spiNor => Reg.spiNor.all
  | .identity => Reg.identity.all
  | .bridge => Reg.bridge.all
  | .bridgeDma => Reg.bridgeDma.all
  | .keyStore => Reg.keyStore.all
  | .keySlot => Reg.keySlot.all
  | .fuse => Reg.fuse.all
  | .tamper => Reg.tamper.all
  | .fabricPort => []

end Sys2Proof.Machine
end

