-- ==== Sys2Proof/Machine/State.lean ====
section
/-! DEFINITION. The state of the device as plain data: everything the manual gives the machine, chapter by chapter,
and the machine right after a cold start. -/

namespace Sys2Proof.Machine

/-- Why a step can stop with a fault. No command of this block faults: every effect the manual describes is taken. -/
inductive Fault where
  /-- Raised by nothing: kept so that the type names a reason. Safe. -/
  | none
deriving DecidableEq, Repr

/-- Why a step can refuse. -/
inductive Refusal where
  /-- Raised by an arm of `exec` whose command has no meaning yet. Safe. -/
  | notModelled (mnemonic : String)
deriving DecidableEq, Repr

/-! ### Pages (chapter 02) -/

/-- Where a block stands in a drain or a reset (R60, R62, R63). -/
inductive Phase where
  | run
  | draining
  | drained
  | inReset
deriving DecidableEq, Repr

/-- The command that executes on a page (R75, R77). `final` is its result once its chapter has decided it. -/
structure CmdRun where
  client : Client
  source : Source
  seq    : Nat
  opcode : Nat
  arg    : Nat
  tag    : Nat
  final  : Option Nat
  upper  : Option Nat
deriving DecidableEq, Repr

/-- The stored part of a common header (R58–R68). PG_STAT's other bits follow from it and from the power state. `epoch`
tags the block's responses and is new whenever the block returns to its off state (R62). -/
structure Header where
  en       : Bool := false
  quiesce  : Bool := false
  drainReq : Bool := false
  resetReq : Bool := false
  phase    : Phase := .run
  since    : Nat := 0
  fault    : Bool := false
  irqRaw   : Nat := 0
  irqStat  : Nat := 0
  irqEn    : Nat := 0
  errCode  : Nat := 0
  errCount : Nat := 0
  allotReq : Nat := 0
  grant    : Nat := 0
  draw     : Nat := 0
  lock     : Nat := 0
  epoch    : Nat := 0
  cmd      : Option CmdRun := none
deriving DecidableEq, Repr

/-- One client's command context on a page, with its latch for 64-bit counters (R71, R73) and, on the time page, the
seconds latched by a read of WALL_NS (R150). -/
structure Ctx where
  cmd    : Nat := 0
  arg    : Nat := 0
  tag    : Nat := 0
  result : Nat := 0
  latch  : Nat := 0
  wall   : Nat := 0
deriving DecidableEq, Repr

/-! ### The journal (chapter 03) -/

/-- KIND of an entry (R84). -/
inductive Kind where
  | command | completion | mark | void
deriving DecidableEq, Repr

/-- One journal entry (R84). `addr` is control space address [25:2]. -/
structure JEntry where
  seq    : Nat
  time   : Nat
  addr   : Nat
  result : Nat
  func   : Nat
  src    : Nat
  kind   : Kind
  value  : Nat
  arg    : Nat
  tag    : Nat
deriving DecidableEq, Repr

/-- What a row of PG_CTRL of its own asks for (R60–R63). -/
inductive CtrlReq where
  | enable | disable
  | quiesce (on : Bool)
  | drain | drainClear | reset
deriving DecidableEq, Repr

/-- An access of a client to a page: a PG_CMD write with what the host's completions bring to an XFER, a request to PG_CTRL,
a write of a word, a read of a word with its byte enables. -/
inductive Access where
  | cmd (opcode : Nat) (req : Req) (host : HostCpl) (data : List Byte)
  | ctrl (a : CtrlReq)
  | write (off v : Nat)
  | read (off : Nat) (be : BitVec 4)
deriving DecidableEq, Repr

/-- An access that waits: a PG_CMD write under R81, or what the same client sends to the same page behind it (R72). -/
structure Waiting where
  page   : Page
  client : Client
  act    : Access
deriving DecidableEq, Repr

/-- The journal: the ring in MRAM, the counter, the accepted commands without a final code as their entries tell them, and
R81's spacing. `writing` is the number whose entry is in its first two phases (R87): that of the oldest waiting command. -/
structure Journal where
  nextSeq    : Nat := 1
  slots      : List (Nat × JEntry) := []
  unsettled  : List JEntry := []
  committed  : List Nat := []
  lastAccept : Option Nat := none
  deferred   : List Waiting := []
  writing    : Option Nat := none
  cycles     : Nat := 1
deriving DecidableEq, Repr

/-! ### Power, wake, time and boot (chapters 04–06) -/

/-- What advances device time (R139, R140). -/
inductive DtSrc where
  | pll | xtal | wakeOsc
deriving DecidableEq, Repr

/-- The power state (R112–R120). `booting` spans wake acceptance, or the trigger of a hub reset, to the declaration
of TRICKLE; `off` is a package whose always-on converter has stopped (R105). -/
inductive Mode where
  | off | dry | booting | trickle | flow
deriving DecidableEq, Repr

/-- Where a boot stands (R117, R130, R163). -/
inductive BootPhase where
  | idle
  | refclk
  | refWait (at_ : Nat)
  | cores
  | ready
deriving DecidableEq, Repr

/-- Causes of an entry into DRY: DRY_CAUSE (R121). -/
inductive DryCause where
  | command | underVoltage | overVoltage | coldStart
deriving DecidableEq, Repr

/-- The supply and the power state. `rising` is the die that powers up, `upQueue` the named dies after it, `falling`
the dies that go down, `dryWanted` the cause for which DRY is entered once no die is powered. `qualified`: V48_IN has not left
40–60 V since it was last qualified, or since the third REFCLK failure, which `exhausted` tells (R112, R130). -/
structure Power where
  mode      : Mode := .dry
  phase     : BootPhase := .idle
  dryWhy    : DryCause := .coldStart
  dryWanted : Option DryCause := none
  rising    : Option Nat := none
  upQueue   : List Nat := []
  falling   : List Nat := []
  qualified : Bool := false
  exhausted : Bool := false
  resetting : Bool := false
  refFailed : Nat := 0
  downMask  : Nat := 0
deriving DecidableEq, Repr

/-- PTP state: the four timestamps of a slave's exchange, ns, and their message number; when a better master was last heard,
and when this one last announced itself (R148). -/
structure Ptp where
  seqId : Nat := 0
  t1 : Option Int := none
  t2 : Option Int := none
  t3 : Option Int := none
  better   : Option Nat := none
  lastAnn  : Option Nat := none
deriving DecidableEq, Repr

/-- Clocks, device time, the wall clock and the wake logic. `trim` is the factor by which the wake oscillator's trim changes its
frequency (R128); `pins` the filtered levels of PERST_N (0) and GPIO0–GPIO3 (1–4) as last accepted (R133). -/
structure Clock where
  dt        : Nat := 0
  frac      : Nat := 0
  ticks     : Nat := 0
  src       : DtSrc := .xtal
  anchorDt  : Nat := 0
  anchorNs  : Rat := 0
  lastMsg   : Option Nat := none
  lastSync  : Option Nat := none
  syncId    : Nat := 0
  ptp       : Ptp := {}
  oscOn     : Bool := false
  lastCal   : Option Nat := none
  trim      : Rat := 1
  pins      : List (Nat × Bool) := []
  windows   : List (Nat × Nat) := []
  decoders  : List Nat := []
  pending   : Nat := 0
  kept      : Option (Nat × CanFrame) := none
  alarm     : Nat := 0
  alarmHit  : Bool := true
  wakeOut   : Bool := false
  refTries  : Nat := 0
  accepted  : Bool := false
deriving DecidableEq, Repr

/-- A flash operation that keeps the flash busy (R172). -/
structure FlashOp where
  opcode : Nat
  addr   : Nat
  since  : Nat
  data   : List Byte
deriving DecidableEq, Repr

/-- A service-core update in progress (R167). -/
structure Update where
  bank    : Nat
  version : Nat
  svn     : Nat
  since   : Nat
deriving DecidableEq, Repr

/-- Boot, images and the flash. -/
structure Boot where
  running  : Bool := false
  marks    : List (Nat × Nat) := []
  update   : Option Update := none
  cause    : Nat := 1
  resetSeq : Option Nat := none
  watchdog : Nat := 0
  sfdp     : Option Sfdp := none
  flash    : Memory := []
  busy     : Option FlashOp := none
  tap      : TapInstr := .idcode
deriving DecidableEq, Repr

/-! ### The event recorder (chapter 21) -/

/-- A record (R606). `uid` names it while it waits and after it is written; `stamp` is its log's STAMP. -/
structure Rec where
  uid      : Nat
  cycle    : Nat
  stamp    : Nat
  code     : Nat
  sev      : Nat
  deferred : Bool
  limited  : Bool
  die      : Nat
  inst     : Nat
  repeats  : Nat
  a        : Nat
  b        : Nat
  check    : Nat
deriving DecidableEq, Repr

/-- The limiter window of one key (R615). -/
structure LimWindow where
  opened : Nat
  count  : Nat
  last   : Option Nat
deriving DecidableEq, Repr

/-- An event in the DRY buffer: its device time, and the next instant that device time could resolve then (R15, R143, R618). -/
structure DryRec where
  at_  : Nat
  next : Nat
  body : Rec
deriving DecidableEq, Repr

/-- The event recorder: queues, logs, limiter windows and the DRY buffer. -/
structure Recorder where
  nextUid  : Nat := 0
  intake   : List Rec := []
  tamperQ  : List Rec := []
  ring     : List Rec := []
  nextSeq  : Nat := 1
  ff       : List Rec := []
  windows  : List ((Nat × Nat × Nat) × LimWindow) := []
  dry      : List DryRec := []
  dryLost  : Nat := 0
  opSec    : Nat := 0
  opNs     : Nat := 0
  opSaved  : Nat := 0
  lastWrite : Option Nat := none
deriving DecidableEq, Repr

/-! ### What the block sends (oldest first) -/

/-- One message that the block has sent to the outside. -/
inductive Out where
  /-- An MSI-X message of function `fn` (R436). -/
  | msix (fn vec : Nat)
  /-- A posted write to host memory. -/
  | hostWrite (fn addr : Nat) (data : List Byte)
  /-- A read request to host memory (R422). -/
  | hostRead (fn addr len : Nat)
  /-- A posted write to host memory whose data is marked poisoned (R288, R395). -/
  | hostPoison (fn addr : Nat) (data : List Byte)
  /-- The completion of a host read or AtomicOp. -/
  | completion (status : HostCpl) (data : List Byte)
  /-- A CAN frame on a port. -/
  | can (port : Nat) (f : CanFrame)
  /-- An Ethernet frame on the management port, without FCS. -/
  | eth (dst src : Nat) (tags : List (BitVec 16)) (etype : Nat) (payload : List Byte)
  /-- Bytes on a UART. -/
  | uart (port : Nat) (bytes : List Byte)
  /-- A frame on a Nerius port. -/
  | nerius (port : Nat) (f : NerFrame)
  /-- A PMBus transaction on a master, as address, command, protocol and data (R466). -/
  | pmb (port : Nat) (bytes : List Byte)
  /-- A UDP/IPv4 datagram from IP_ADDR and MGMT_UDP, TTL 64 (R509). -/
  | udp (mac ip port : Nat) (payload : List Byte)
  /-- An ICMP echo reply from IP_ADDR, TTL 64: identifier, sequence number and data (R472). -/
  | echo (mac ip : Nat) (payload : List Byte)
  /-- A PTP message (R148). -/
  | ptp (m : PtpMsg)
deriving DecidableEq, Repr

/-! ### The Weir (chapter 07) -/

/-- A credit (R192): array `array` of core `core` may issue in the format class `fmt` (R188) from epoch `first` to epoch `last`. -/
structure Credit where
  core  : Nat
  array : Nat
  fmt   : Nat
  first : Nat
  last  : Nat
deriving DecidableEq, Repr

/-- The Weir. Arrays are numbered 32·core + array, quadrants 4·die + q. `duty` is the VEC and DMA gate in sixteenths. -/
structure Weir where
  gain      : Rat := 1
  offset    : Rat := 0
  iRaw      : Rat := 0
  effJ      : Nat := 0
  rotor     : Nat := 0
  total     : Rat := 0
  duty      : Nat := 16
  requests  : List (Nat × List (Nat × Nat)) := []
  late      : List (Nat × List (Nat × Nat)) := []
  credits   : List Credit := []
  idle      : List (Nat × Nat) := []
  retained  : List Nat := []
  woken     : List Nat := []
  waking    : List (Nat × Nat) := []
  rotation  : Nat := 0
  atLimit   : Nat := 0
  inside    : Nat := 0
  waiters   : List Page := []
  room      : Rat := 0
  ramp      : List Page := []
  shedLast  : Option Nat := none
  breachAt  : Option Nat := none
  lastStep  : Option Nat := none
  lastEpoch : Option Nat := none
  lastSlice : Option Nat := none
deriving DecidableEq, Repr

/-! ### Energy (chapter 08) -/

/-- The open billing interval: its window, its flags and what its accounts have gathered, in µJ. `carry` is the
remainder below 2^-16 J that the last close left over (R232). -/
structure OpenInterval where
  index   : Nat := 1
  dtOpen  : Nat := 0
  len     : Nat := 15
  utcS    : Int := 0
  utcNs   : Nat := 0
  noWall  : Bool := true
  flags   : Nat := 0
  lenNew  : Bool := false
  totals  : List Rat := List.replicate 21 0
deriving DecidableEq, Repr

/-- A closed interval record (R231). `fields` holds SENSED, TENANT0–15, SITE, SITE_CHANNEL, AUX, RESIDUAL. -/
structure IntervalRec where
  index   : Nat
  flags   : Nat
  len     : Nat
  utcS    : Int
  utcNs   : Nat
  dtOpen  : Nat
  dtClose : Nat
  step    : Int
  fields  : List Int
  ready   : Bool
deriving DecidableEq, Repr

/-- The MRAM checkpoint of R229. -/
structure Checkpoint where
  dt    : Nat
  acc   : List Rat
  opened : OpenInterval
deriving DecidableEq, Repr

/-- The energy accounting unit. `counted` are the events that op-stream commands have counted since the last step. -/
structure Energy where
  acc      : List Rat := List.replicate 21 0
  slotAcc  : List Rat := List.replicate 32 0
  opened   : OpenInterval := {}
  triggers : List (Nat × Nat) := []
  step     : Int := 0
  ring     : List IntervalRec := []
  saved    : Option Checkpoint := none
  counted  : List Increment := []
deriving DecidableEq, Repr

/-! ### Frequency, droop and heat (chapter 09) -/

/-- A derate record (R255). -/
structure DerateRec where
  num   : Nat
  time  : Nat
  hours : Nat
  core  : Nat
  point : Nat
  old   : Nat
  new   : Nat
  cause : Nat
deriving DecidableEq, Repr

/-- A quadrant measurement in progress (R250), its rail at or on its way to voltage point `point`; `byCmd` for MEASURE. Once it is
`done`, `todo` holds the derates still to issue, as (core, point, new code) (R252). -/
structure Meas where
  die   : Nat
  q     : Nat
  start : Nat
  byCmd : Bool
  point : Nat := 0
  done  : Bool := false
  todo  : List (Nat × Nat × Nat) := []
deriving DecidableEq, Repr

/-- A stretch of core `core` detected at `since` (R256); its cycles are counted into DROOP_CYC up to `counted`. -/
structure Droop where
  core    : Nat
  since   : Nat
  counted : Nat
deriving DecidableEq, Repr

/-- Frequencies, certified tables, droop and heat. The certified copies list the entries that differ from the fused
table, by (core, point). -/
structure Freq where
  copyA    : List ((Nat × Nat) × Nat) := []
  copyB    : List ((Nat × Nat) × Nat) := []
  goodA    : Bool := true
  goodB    : Bool := true
  derates  : List DerateRec := []
  nextDr   : Nat := 1
  relock   : List (Nat × Nat) := []
  afterRail : List (Nat × Nat) := []
  rail     : List (Nat × Nat) := []
  meas     : List Meas := []
  overdue  : List Nat := []
  opMin    : List (Nat × Nat) := []
  lastMin  : List (Nat × Nat) := []
  opPart   : List (Nat × Nat) := []
  overSeen : Bool := false
  rampSeen : Bool := false
  thrSeen  : List (Nat × Nat) := []
  lastEval : Option Nat := none
  droop    : List Droop := []
  stretched : List Nat := []
  longSeen : List Nat := []
  below    : Nat := 0
  tripAt   : Option Nat := none
  tripPin  : Bool := false
  lastTherm : Option Nat := none
deriving DecidableEq, Repr

/-! ### Op streams (chapter 11) -/

/-- A descriptor: four words (R294). -/
structure Desc where
  w0 : Nat
  w1 : Nat
  w2 : Nat
  w3 : Nat
deriving DecidableEq, Repr

/-- A descriptor in a unit queue, its stepped fields in place (R296, R315). `done`: executed and not yet completed;
`tag`: the peer transfer whose WACK it waits for (R412). -/
structure QOp where
  pc   : Nat
  d    : Desc
  done : Bool := false
  tag  : Option Nat := none
deriving DecidableEq, Repr

/-- An active loop (R314). -/
structure LoopLvl where
  start : Nat
  last  : Nat
  i     : Nat
  n     : Nat
deriving DecidableEq, Repr

/-- An array that holds accumulators: their type and the 64 words, row by row (R305). -/
structure Held where
  array : Nat
  int   : Bool
  words : List Nat
deriving DecidableEq, Repr

/-- A SIGNAL issued and not yet performed (R330). `dev` is the group device of a remote one, `obj` its object there or
the physical object here, `tag` the tag under which its frame was sent. -/
structure Sig where
  dev   : Option Nat
  obj   : Nat
  set   : Bool
  value : Nat
  tag   : Option Nat := none
deriving DecidableEq, Repr

/-- The running part of a core: unit queues, active loops (innermost first), held accumulators, outstanding SIGNALs. -/
structure CoreRun where
  mma   : List QOp := []
  vec   : List QOp := []
  dma0  : List QOp := []
  dma1  : List QOp := []
  loops : List LoopLvl := []
  held  : List Held := []
  sigs  : List Sig := []
deriving DecidableEq, Repr

/-- Core SRAM (core g at g·2^22), die-shared SRAM (die d at d·2^25), the 64-bit words with an uncorrectable and with a
correctable error (byte address / 8), and what the cores run. -/
structure Cores where
  sram     : Memory := []
  sramBad  : List Nat := []
  sramSoft : List Nat := []
  dsram     : Memory := []
  dsramBad  : List Nat := []
  dsramSoft : List Nat := []
  dsramCorr : List (Nat × Nat) := []
  dsramUncorr : List (Nat × Nat) := []
  run      : List (Nat × CoreRun) := []
deriving DecidableEq, Repr

/-! ### Sync objects (chapter 12) -/

/-- A registered waiter: core, physical object, VALUE (R323, R324). -/
structure Waiter where
  core  : Nat
  obj   : Nat
  value : Nat
deriving DecidableEq, Repr

/-- The banks: CTRL and COUNT of every object that is not FREE with COUNT 0, and the waiter tables. -/
structure Sync where
  objs    : List (Nat × (Nat × Nat)) := []
  waiters : List Waiter := []
deriving DecidableEq, Repr

/-! ### Jobs (chapter 13) -/

/-- STATE of a slot (R371). -/
inductive JobState where
  | empty | loaded | starting | running | done | faulted | cancelled
deriving DecidableEq, Repr

/-- A record of the DIES section (R350). -/
structure JDie where
  cores   : Nat
  place   : Nat
  sram    : Nat
  objects : Nat
deriving DecidableEq, Repr

/-- A record of the CORES section (R351). -/
structure JCore where
  jdie     : Nat
  pin      : Nat
  base     : Nat
  initOff  : Nat
  initSize : Nat
deriving DecidableEq, Repr

/-- A record of the MEMORY section (R352). -/
structure Region where
  jbase    : Nat
  granules : Nat
  kind     : Nat
  dataOff  : Nat
  dataSize : Nat
deriving DecidableEq, Repr

/-- A record of the OBJECTS section (R354). -/
structure JObj where
  jobj  : Nat
  loc   : Nat
  ctrl  : Nat
  count : Nat
deriving DecidableEq, Repr

/-- A job image as the admission unit has read it (R349–R354). -/
structure Image where
  size       : Nat
  regime     : Nat
  canalN     : Nat
  dev        : Nat
  group      : Nat
  jobId      : Nat
  draw       : Nat
  hubObjects : Nat
  certDigest : List Byte
  certOff    : Nat
  certSize   : Nat
  dies       : List JDie
  cores      : List JCore
  regions    : List Region
  objects    : List JObj
deriving DecidableEq, Repr

/-- A leader that waits for its peers' RESTART_RESULTs: since when, and from which devices (R414). -/
structure GroupWait where
  since : Nat
  devs  : List Nat
deriving DecidableEq, Repr

/-- A job slot (R371–R385). `copyGr` are the granules of the image copy, `memGr` those of each region; `dies` and
`cores` are the placement, `srams` the first 64 KiB unit on each job die, `objs` the physical objects. -/
structure Slot where
  st       : JobState := .empty
  image    : Option Image := none
  copyGr   : List Nat := []
  memGr    : List (List Nat) := []
  dies     : List Nat := []
  cores    : List Nat := []
  srams    : List Nat := []
  objs     : List (Nat × Nat) := []
  ended    : List Nat := []
  run      : Nat := 0
  pendingRestart : Bool := false
  cause    : Nat := 0
  fcore    : Nat := 0
  fdetail  : Nat := 0
  fdev     : Nat := 0
  lastResult : Nat := 0
  autoCount : Nat := 0
  lastMark : Nat := 0
  throttle : Nat := 0
  canalInt : Nat := 0
  stale    : Nat := 0
  faultAt  : Option Nat := none
  announced : List (Nat × Nat) := []
  waitGroup : Option GroupWait := none
deriving DecidableEq, Repr

/-- A LOAD or RESTART that waits for the admission unit: its slot, and for a peer's re-admission the leader's new run
number (R366). -/
structure AdmReq where
  slot : Nat
  load : Bool
  peer : Option Nat
deriving DecidableEq, Repr

/-- The job slots that are not at reset, the admission unit's queue, and the events of R375 since the last attempts. -/
structure Jobs where
  slots  : List (Nat × Slot) := []
  queue  : List AdmReq := []
  retry  : List Nat := []
deriving DecidableEq, Repr

/-! ### Stacked memory and Nerius (chapter 14) -/

/-- The stacks: bytes by PMA, poisoned and correctable sectors (PMA / 32), the retired-granule list in MRAM (granule,
retired), and the sectors scrubbed in the present pass of each controller. -/
structure Stacks where
  data    : Memory := []
  bad     : List Nat := []
  soft    : List Nat := []
  marks   : List (Nat × Bool) := []
  scrub   : List (Nat × Nat) := []
deriving DecidableEq, Repr

/-- A frame in the replay buffer: when it was last sent and how often it has been replayed (R409, R410). -/
structure NerTx where
  frame   : NerFrame
  sent    : Nat
  replays : Nat
deriving DecidableEq, Repr

/-- A session (R407–R409): the next SEQ to send and the next to accept, unacknowledged frames, frames that wait for
credit, credits held and credits to return by class, the gap that a NAK has named, and since when something is to be
acknowledged or returned. -/
structure Session where
  port    : Nat
  mac     : Nat
  tx      : Nat := 0
  rx      : Nat := 0
  unacked : List NerTx := []
  queue   : List NerFrame := []
  credit  : List Nat := [2048, 64, 64]
  owed    : List Nat := [0, 0, 0]
  nakAt   : Option Nat := none
  hello   : Bool := false
  oweFrom : Option Nat := none
deriving DecidableEq, Repr

/-- The Nerius ports: open sessions, the next transfer tag, and per port the start of the training attempt or of the
1 s wait, and the failures since the last event (R416). -/
structure Nerius where
  sessions : List Session := []
  nextTag  : Nat := 0
  since    : List (Nat × Nat) := []
  fails    : List (Nat × Nat) := []
deriving DecidableEq, Repr

/-! ### The host bridge (chapter 15) -/

/-- PCIe state of the bridge: functions whose MSI-X is enabled, unmasked vectors, pending bits, VF Enable, the
Max_Read_Request_Size of each function, the channels whose transfer waits for host data and since when. -/
structure Bridge where
  msixOn   : List Nat := []
  unmasked : List (Nat × Nat) := []
  pba      : List (Nat × Nat) := []
  vfEnable : Bool := false
  mrrs     : List (Nat × Nat) := []
  xfers    : List (Nat × Nat) := []
deriving DecidableEq, Repr

/-! ### Fuses (chapter 20) -/

/-- The fields of the hub's fuse bank (R570), as the numbers their bits spell; FW_KEY_HASH is the factory's (log entry 10). -/
structure Fuses where
  denyPf0    : Nat := 0
  denySb     : Nat := 0
  debugLock  : Nat := 0
  tamperResp : Nat := 0
  mandatory  : Nat := 0
  commission : Nat := 0
  svnFloor   : Nat := 0
  epoch      : Nat := 0
  integrator : Nat := 0
  fwKeyHash  : Nat := Config.fwKeyHash.toNat
deriving DecidableEq, Repr

/-! ### Aux outputs and dual-channel inputs (chapter 18) -/

/-- The timers of an aux channel: nanoseconds of INRUSH before the present spell, and when the present INRUSH or
LIMITING spell began (R517, R518). -/
structure AuxRun where
  used  : Nat := 0
  since : Nat := 0
deriving DecidableEq, Repr

/-- A dual-channel pair: its filtered levels as asserting, its accepted state, the device time of the tick at which the
discrepancy timer began, the latched fault, the device time since which both wires agree inactive, CLEAR_READY
(R529–R533). -/
structure PairIn where
  a        : Bool := false
  b        : Bool := false
  accepted : Bool := false
  timing   : Option Nat := none
  fault    : Bool := false
  calm     : Option Nat := none
  ready    : Bool := false
deriving DecidableEq, Repr

/-- Aux channels, the two pairs and ALERT_N. `excess` is since when the sum exceeds AUX_GRANT, `fired` the channels
whose short protection fired and when, `relAt` the last release check, `alertAt` the last fall of ALERT_N. -/
structure SiteIo where
  aux     : List (Nat × AuxRun) := []
  excess  : Option Nat := none
  fired   : List (Nat × Nat) := []
  relAt   : Option Nat := none
  epo     : PairIn := {}
  tamp    : PairIn := {}
  epoLatched : Bool := false
  alertLow : Bool := false
  alertAt  : Nat := 0
deriving DecidableEq, Repr

/-! ### The site channel and the Castle table (chapter 19) -/

/-- A frame in the pipeline: its number, origin and pixel lines; whether its test lines are injected and whether they
differ; when pre-process was done; kicks and END of each core; the action block that compare has accepted; clean so far;
the stages whose windows are settled. -/
structure PipeFrame where
  num    : Nat
  origin : Nat
  lines  : List (List Nat)
  inject : Bool := false
  bad    : Bool := false
  pre    : Option Nat := none
  kicksA : Nat := 0
  kicksB : Nat := 0
  endA   : Bool := false
  endB   : Bool := false
  action : Option (List Byte) := none
  clean  : Bool := true
  settled : List Nat := []
deriving DecidableEq, Repr

/-- What the E2E check keeps of a source (R552): its last counter, sender time and stamp, its data, the run of good
frames, whether it has failed and whether by age alone, whether it has been OK since EN was set. -/
structure SrcRun where
  counter : Nat := 0
  time    : Nat := 0
  stamp   : Nat := 0
  seen    : Bool := false
  data    : List Byte := []
  good    : Nat := 0
  failed  : Bool := true
  aged    : Bool := false
  begun   : Bool := false
deriving DecidableEq, Repr

/-- The site channel: the last frame origin and counter, the frames in the pipeline (oldest first), sources, which
reserved cores are loaded, the site record in use, castling, the result in force, rule debounce and the timers of the
table. `armed`: UNCASTLE has been accepted since the last hard cause; `hard`: a hard cause has arisen since castling; `lost`: the POWER
condition stood at the last look. -/
structure SiteCh where
  lastOrigin  : Option Nat := none
  lastCounter : Option Nat := none
  pipe     : List PipeFrame := []
  srcs     : List (Nat × SrcRun) := []
  loadedA  : Bool := false
  loadedB  : Bool := false
  streamA  : Nat := 0
  streamB  : Nat := 0
  castledAt : Nat := 0
  hard     : Bool := false
  armed    : Bool := false
  inForce  : Option Nat := none
  cfgDone  : Bool := false
  rules    : List (Nat × (Bool × Nat)) := []
  lastEval : Option Nat := none
  lastPs   : Option Nat := none
  timeoutSeen : Bool := false
  lost     : Bool := false
deriving DecidableEq, Repr

/-! ### The gateway and the site bus (chapters 16, 17) -/

/-- A frame behind the parser (R457, R458): K0, KIND, ingress port, payload, the stamp of R456, AUTH_OK with the KEY_IN
that verified it, and the source MAC of an Ethernet frame. -/
structure GwFrame where
  k0      : Nat
  kind    : Nat
  port    : Nat
  payload : List Byte
  time    : Nat
  auth    : Bool := false
  keyIn   : Nat := 0
  mac     : Nat := 0
deriving DecidableEq, Repr

/-- An egress copy (R468): the words of the route entry it was classified with, its cells and whether they are shared,
the CAN frame of a CAN egress, the slot of a time-triggered copy, and whether the CAN controller holds it (R470). -/
structure GwCopy where
  egress : Nat
  cls    : Nat
  route  : Nat
  words  : List Nat
  frame  : GwFrame
  cells  : Nat
  shared : Bool := false
  can    : Option CanFrame := none
  slot   : Option Nat := none
  held   : Bool := false
deriving DecidableEq, Repr

/-- The gateway: route entries and tree nodes that are not at reset, queued copies (oldest first), token buckets in
millionths with the microsecond of their last credit (128 is the slow path's, 129 the management intake's), the class that
each egress serves in its round with what it may still send, last poll times, and what the service cores have recorded. -/
structure Gateway where
  routes  : List (Nat × List Nat) := []
  nodes   : List (Nat × Nat) := []
  copies  : List GwCopy := []
  buckets : List (Nat × (Nat × Nat)) := []
  rounds  : List (Nat × (Nat × Nat)) := []
  polls   : List ((Nat × Nat) × Nat) := []
  seen    : List (List Byte) := []
deriving DecidableEq, Repr

/-- A command that came over the site bus or the management Ethernet and has no reply yet (R508, R509): its page, its tag,
for a datagram the MAC, address and port that sent it, its sequence number once accepted, its PG_CMD_RESULT once it has ended. -/
structure SbReply where
  page   : Page
  tag    : Nat
  via    : Option (Nat × (Nat × Nat)) := none
  seq    : Option Nat := none
  result : Option Nat := none
deriving DecidableEq, Repr

/-- A WAKE_SEND in progress (R513): its mask, the frames sent, the device time of the last and the slot that carried it. -/
structure WakeRun where
  mask : Nat
  sent : Nat := 0
  last : Nat := 0
  slot : Option Int := none
deriving DecidableEq, Repr

/-- The site-bus service: STATE while the page is ACTIVE, global time with RATE in 2^-16 ppm, the stamp of the last
reference with its cycle, the previous correction's times and size, the listen time, the device time of the previous reference on
the bus, the last cycle whose slot 0 carried a reference, the last cycle counted, consecutive misses, cycles in
which the reference and each OWN slot were attempted, the hold window, acknowledgements and replies that wait, and the
freshness counters in MRAM. -/
structure SiteBus where
  st       : Nat := 1
  anchorGt : Int := 0
  anchorDt : Nat := 0
  rate     : Int := 0
  stamp    : Option (Nat × Nat) := none
  last     : Option (Nat × Int) := none
  lastE    : Option Int := none
  listen   : Option Nat := none
  prev     : Option Nat := none
  seen     : Option Int := none
  closed   : Option Int := none
  missed   : Nat := 0
  txCycle  : Option Int := none
  own      : List (Nat × Int) := []
  hold     : Option Nat := none
  acks     : List (Nat × Nat) := []
  wake     : Option WakeRun := none
  replies  : List SbReply := []
  fv       : List (Nat × Nat) := []
deriving DecidableEq, Repr

/-! ### Keys and tamper (chapter 20) -/

/-- State of a key slot (R577, R603). -/
inductive KeyState where
  | empty | valid | zeroized | fault
deriving DecidableEq, Repr

/-- A key slot: its attributes, generation, committed cell, key RAM and the operations performed with it (R576, R603). -/
structure KeySlot where
  st   : KeyState := .empty
  attr : Nat := 0
  gen  : Nat := 0
  cell : Nat := 0
  key  : List Byte := []
  uses : Nat := 0
deriving DecidableEq, Repr

/-- The key store and the tamper response: slots, storage cells and commit words in MRAM (R584), the TAMPER latch record
(R595), an epoch advance and an overwrite that are due, and per monitor the
device time of its last built-in test with its consecutive failures (R593). -/
structure Secure where
  slots   : List (Nat × KeySlot) := []
  cells   : List ((Nat × Nat) × List Byte) := []
  commits : List (Nat × Nat) := []
  latch   : Option Nat := none
  advance : Bool := false
  erase   : Bool := false
  bist    : List (Nat × (Nat × Nat)) := []
deriving DecidableEq, Repr

/-! ### The whole state -/

/-- The state of the device. -/
structure State where
  /-- Commands that wait, first in, first out. -/
  pending : List Instr := []
  /-- Messages sent, oldest first. -/
  out     : List Out := []
  /-- MODEL'S OWN: how many free values have been taken (log entry 2). -/
  fresh   : Nat := 0
  /-- Register fields that hold a value of their own; an unlisted field holds its reset value. -/
  rf      : List (RegKey × Nat) := []
  /-- The PF0 directory (R48–R50). -/
  dir     : List DirEntry := dirAll
  /-- Common headers; an unlisted page's header is at reset. -/
  hdr     : List (Page × Header) := []
  /-- Command contexts, by page and client. -/
  ctx     : List ((Page × Nat) × Ctx) := []
  jr      : Journal := {}
  pw      : Power := {}
  ck      : Clock := {}
  bt      : Boot := {}
  ev      : Recorder := {}
  we      : Weir := {}
  en      : Energy := {}
  fq      : Freq := {}
  fuse    : Fuses := {}
  fuseOn  : Fuses := {}
  br      : Bridge := {}
  /-- Bound job slots: slot, tenant and view (R362). -/
  views   : List (Nat × (Nat × Nat)) := []
  /-- The tenant that loaded each job slot (R219). -/
  tenants : List Nat := List.replicate 32 0
  /-- The island's filtered SHED_N level: true while asserted (R535). -/
  shedPin : Bool := true
  co      : Cores := {}
  sy      : Sync := {}
  jb      : Jobs := {}
  hbm     : Stacks := {}
  ner     : Nerius := {}
  io      : SiteIo := {}
  sc      : SiteCh := {}
  gw      : Gateway := {}
  sb      : SiteBus := {}
  sec     : Secure := {}
deriving DecidableEq, Repr

/-- The machine right after a cold start (R153): DRY until V48_IN qualifies (R112), MRAM of a new device. -/
def State.reset : State := {}

end Sys2Proof.Machine
end

