-- ==== Sys2Proof/Machine/Ops.lean ====
section
/-! DEFINITION. The operations every chapter shares: registers, page headers, interrupts, error records, the command
gate and the journal. -/

namespace Sys2Proof.Machine

/-! ### Register fields -/

/-- The key of field `f`, index `i`, of page `p`, for the client slot `c`. -/
def regKey (p : Page) (f : Fld) (i c : Nat) : RegKey := { page := p, client := c, off := f.off + f.stride * i, lo := f.lo }

/-- The reset value of a field. -/
def Fld.resetAt (f : Fld) (i : Nat) : Nat := f.reset + f.rstep * i

/-- The value of a shared field. -/
def rget (s : State) (p : Page) (f : Fld) (i : Nat := 0) : Nat := Assoc.getD s.rf (regKey p f i 0) (f.resetAt i)

/-- `s` with `v`, cut to the field's width, in a shared field. -/
def rset (p : Page) (f : Fld) (v : Nat) (s : State) (i : Nat := 0) : State :=
  { s with rf := Assoc.set s.rf (regKey p f i 0) (v % 2 ^ f.w) }

/-- The value of a field that belongs to each client. -/
def rgetC (s : State) (c : Client) (p : Page) (f : Fld) (i : Nat := 0) : Nat :=
  Assoc.getD s.rf (regKey p f i (c.index + 1)) (f.resetAt i)

/-- `s` with `v` in client `c`'s copy of a field. -/
def rsetC (c : Client) (p : Page) (f : Fld) (v : Nat) (s : State) (i : Nat := 0) : State :=
  { s with rf := Assoc.set s.rf (regKey p f i (c.index + 1)) (v % 2 ^ f.w) }

/-- A counter field advanced by `n`, held at its largest value. -/
def radd (p : Page) (f : Fld) (n : Nat) (s : State) (i : Nat := 0) : State :=
  rset p f (satN f.w (rget s p f i + n)) s i

/-- A counter field advanced by `n`, wrapping. -/
def rwrap (p : Page) (f : Fld) (n : Nat) (s : State) (i : Nat := 0) : State := rset p f (rget s p f i + n) s i

/-- A flag field set or cleared. -/
def rflag (p : Page) (f : Fld) (b : Bool) (s : State) (i : Nat := 0) : State := rset p f b.toNat s i

/-- A flag field read. -/
def rbit (s : State) (p : Page) (f : Fld) (i : Nat := 0) : Bool := rget s p f i == 1

/-- Words `vs` into the consecutive indices of a per-client field. -/
def rsetCs (c : Client) (p : Page) (f : Fld) (vs : List Nat) (s : State) : State :=
  vs.zipIdx.foldl (fun s x => rsetC c p f x.1 s x.2) s

/-- The bytes that `n` consecutive words of a per-client field hold, little-endian. -/
def rbytesC (s : State) (c : Client) (p : Page) (f : Fld) (n : Nat) : List Byte :=
  wordsBytes ((List.range n).map fun i => rgetC s c p f i)

/-- Every stored field of a page back at its reset value, but for the fields that `keep` names (R63). -/
def rclear (p : Page) (keep : Fld → Bool) (s : State) : State :=
  { s with rf := s.rf.filter fun x =>
      !(decide (x.1.page = p) &&
        (regsOf p.blk).all fun f => !(keep f && decide (f.lo = x.1.lo) && (List.range f.count).any fun i => f.off + f.stride * i == x.1.off)) }

/-! ### Headers and contexts -/

/-- The header of a page. -/
def hget (s : State) (p : Page) : Header := Assoc.getD s.hdr p {}

/-- The epoch after `e` (R62, R342). -/
def nextEpoch (e : Nat) : Nat := (e + 1) % 2 ^ 16

/-- `s` with a header. -/
def hset (p : Page) (h : Header) (s : State) : State := { s with hdr := Assoc.set s.hdr p h }

/-- The command context of a client on a page (R73). -/
def cget (s : State) (p : Page) (c : Client) : Ctx := Assoc.getD s.ctx (p, c.index) {}

/-- `s` with a command context. -/
def cset (p : Page) (c : Client) (x : Ctx) (s : State) : State := { s with ctx := Assoc.set s.ctx (p, c.index) x }

/-- `s` with one more message sent. -/
def send (o : Out) (s : State) : State := { s with out := s.out ++ [o] }

/-- `s` with messages sent in order. -/
def sendAll (os : List Out) (s : State) : State := { s with out := s.out ++ os }

/-- A free value number, and the state that has taken it (log entry 2). -/
def takeFree (s : State) : Nat × State := (s.fresh, { s with fresh := s.fresh + 1 })

/-! ### Which pages answer -/

/-- The pages of the boot in recovery mode (R166). -/
def answersInRecovery : Block → Bool
  | .directory | .journal | .powerState | .boot | .spiNor => true
  | _ => false

/-- The pages of the always-on island and the protection domain, which no hub reset touches (R153). -/
def inProtection : Block → Bool
  | .wake | .dualIn | .tamper | .weir | .energy | .tenantEnergy | .heat | .aux | .siteChannel | .castle
  | .keyStore | .keySlot | .fuse | .eventLog => true
  | _ => false

/-- The pages that follow the transit domains and not their die's core domain (R399, R402). -/
def inTransit : Block → Bool
  | .nerius | .stackCtrl | .fabricPort => true
  | _ => false

/-- Die `d`'s core domain is powered: DIE_ON (R121). -/
def diePowered (s : State) (d : Nat) : Bool := bitAt (rget s (hubPage .powerState) Reg.powerState.DIE_ON) d

/-- The transit domains are powered: whenever the device is in FLOW (R121). -/
def transitOn (s : State) : Bool := decide (s.pw.mode = .flow)

/-- The hub outside the island and the protection domain runs: from the trigger of a hub reset to TRICKLE its service cores,
gateway and host bridge stand still (R155, R156). -/
def hubRuns (s : State) : Bool := decide (s.pw.mode = .trickle ∨ s.pw.mode = .flow) && !s.pw.resetting

/-- The protection domain runs: in TRICKLE and FLOW and through a hub reset, not while the device leaves DRY (R117, R153,
R155). RESET_CAUSE tells the two boots apart. -/
def protRuns (s : State) : Bool :=
  decide (s.pw.mode = .trickle ∨ s.pw.mode = .flow) || (decide (s.pw.mode = .booting) && decide (4 ≤ s.bt.cause))

/-- The recovery mode of R166. -/
def recovery (s : State) : Bool := rbit s (hubPage .boot) Reg.boot.RECOVERY

/-- PG_STAT.OFFLINE: in reset, unpowered, or not answering in recovery mode (R47, R63, R166). -/
def offline (s : State) (p : Page) : Bool :=
  decide ((hget s p).phase = .inReset)
    || (recovery s && !answersInRecovery p.blk)
    || (if p.die ≤ 11 then (if inTransit p.blk then !transitOn s else !diePowered s p.die)
        else if p.die = 12 then (if inProtection p.blk then decide (s.pw.mode = .dry ∨ s.pw.mode = .off) else !hubRuns s)
        else decide (s.pw.mode = .dry ∨ s.pw.mode = .off))

/-- The block is in drain or drained: by its header (R62), or because its die goes down (R119). -/
def draining (s : State) (p : Page) : Bool :=
  decide ((hget s p).phase = .draining ∨ (hget s p).phase = .drained)
    || (decide (p.die ≤ 11) && !inTransit p.blk && s.pw.falling.contains p.die)

/-! ### Currents (R11, R12) -/

/-- V48_IN in 10 mV units as the hub measures it (R103). -/
def v48 (s : State) : Nat := rget s (hubPage .powerState) Reg.powerState.V48

/-- A reference cost at the measured input voltage, rounded up to whole mA-in (R12). -/
def atV48 (s : State) (cost : Nat) : Nat := ceilDiv (cost * 4800) (v48 s)

/-- PG_STAT.GRANT_OK (R64, R65). -/
def grantOk (s : State) (p : Page) : Bool :=
  if hasAllotment p.blk then
    decide ((hget s p).allotReq ≠ 0) && decide (atV48 s (hget s p).allotReq ≤ (hget s p).grant)
  else !offline s p

/-! ### Interrupts (R66, R434–R437) -/

/-- The vectors that a page's interrupt line feeds, as (function, vector) pairs (R434, R435). -/
def vectorsOf (s : State) (p : Page) : List (Nat × Nat) :=
  match p.blk with
  | .bridgeDma => [(0, 16 + p.inst)]
  | .objectPage =>
    if 16 ≤ p.die then [(p.die - 16, (p.inst - 256) / 30)]
    else [(0, rget s (hubPage .bridge) Reg.bridge.ROUTE_2 1)]
  | .jobSlot =>
    (0, 32 + p.inst) ::
      (match Assoc.get s.views p.inst with
       | some (t, v) => if t = 0 then [] else [(t, v)]
       | none => [])
  | .tenantEnergy =>
    let c := classOf p.blk
    (0, rget s (hubPage .bridge) { off := 0x060, lo := 8 * (c % 4), w := 6, stride := 4, count := 4, reset := c % 4, rstep := 4 } (c / 4))
      :: (if p.inst = 0 then [] else [(p.inst, 15)])
  | b =>
    let c := classOf b
    [(0, rget s (hubPage .bridge) { off := 0x060, lo := 8 * (c % 4), w := 6, stride := 4, count := 4, reset := c % 4, rstep := 4 } (c / 4))]

/-- A page raises its interrupt (R66). -/
def irqLine (h : Header) : Bool := decide (h.irqStat &&& h.irqEn ≠ 0)

/-- The vectors whose sources stand, as (function, vector) pairs (R436). -/
def vectorsUp (s : State) : List (Nat × Nat) :=
  s.hdr.flatMap fun x => if irqLine x.2 then vectorsOf s x.1 else []

/-- A rise of a vector: the message, the pending bit, or nothing (R436, R437). -/
def raiseVector (s : State) (fv : Nat × Nat) : State :=
  if rget s (hubPage .bridge) Reg.bridge.RATE = 0 then s
  else if !s.br.msixOn.contains fv.1 then s
  else if s.br.unmasked.contains fv then send (.msix fv.1 fv.2) s
  else { s with br := { s.br with pba := if s.br.pba.contains fv then s.br.pba else fv :: s.br.pba } }

/-- `s'`, which follows `s`, with one message for each vector that stands in `s'` and did not stand in `s` (R436). -/
def irqSettle (s s' : State) : State :=
  let was := vectorsUp s
  ((vectorsUp s').eraseDups.filter fun fv => !was.contains fv).foldl raiseVector s'

/-- `s` with a changed header, and the interrupt messages the change gives rise to. -/
def hupd (p : Page) (f : Header → Header) (s : State) : State :=
  let h := hget s p
  let s' := hset p (f h) s
  if irqLine (f h) && !irqLine h then irqSettle s s' else s'

/-- An interrupt source that rises for a moment: it latches (R66). -/
def irqPulse (p : Page) (bit : Nat) (s : State) : State :=
  hupd p (fun h => { h with irqStat := putBit h.irqStat bit true }) s

/-- An interrupt source that follows a level: a rise latches (R66). -/
def irqLevel (p : Page) (bit : Nat) (on : Bool) (s : State) : State :=
  hupd p (fun h =>
    if on && !bitAt h.irqRaw bit then
      { h with irqRaw := putBit h.irqRaw bit true, irqStat := putBit h.irqStat bit true }
    else { h with irqRaw := putBit h.irqRaw bit on }) s

/-- A non-OK result recorded on a page: PG_ERR, and the ERR source where the count is incremented (R66, R67). -/
def pgErr (p : Page) (code : Nat) (s : State) : State :=
  let t := hset p { hget s p with errCode := code, errCount := satN 16 ((hget s p).errCount + 1) } s
  if (hget s p).errCount < 65535 then irqPulse p 1 t else t

/-- BAD_ADDR on the directory head page (R45, R46). -/
def badAddr (s : State) : State := pgErr headPage 0x0008 s

/-- PG_STAT.FAULT rises (R64, R66). -/
def pgFault (p : Page) (on : Bool) (s : State) : State :=
  irqLevel p 3 on (hset p { hget s p with fault := on } s)

/-! ### Result codes (R79) -/

namespace Code
def ok : Nat := 0x0000
def pending : Nat := 0x0001
def busy : Nat := 0x0002
def draining : Nat := 0x0003
def locked : Nat := 0x0004
def deniedFuse : Nat := 0x0005
def offline : Nat := 0x0006
def badOpcode : Nat := 0x0007
def badAddr : Nat := 0x0008
def badArg : Nat := 0x0100
def noGrant : Nat := 0x0101
def notErased : Nat := 0x0102
def refusedFit : Nat := 0x0103
def refusedCert : Nat := 0x0104
def refusedCap : Nat := 0x0105
def refusedFmax : Nat := 0x0106
def refusedSlot : Nat := 0x0107
def deniedTenant : Nat := 0x0108
def authFail : Nat := 0x0109
def duplicate : Nat := 0x010A
def aborted : Nat := 0x010B
def faulted : Nat := 0x010C
def timeout : Nat := 0x010D
end Code

/-! ### Events (R606, R608, R610–R618) -/

/-- The severities of R608: 0 INFO, 1 WARN, 2 FAULT, 3 TAMPER. -/
def severityOf (code : Nat) (hard : Bool) : Nat :=
  if code = 0xA001 then 3
  else if code = 0x7009 ∨ code = 0x700A then 2
  else if 0x7000 ≤ code ∧ code ≤ 0x70FF then 1
  else if code = 0x9001 then (if hard then 2 else 1)
  else if code = 0x4002 ∨ code = 0xA005 ∨ code = 0xE004 then 0
  else if code = 0x1001 ∨ code = 0x2002 ∨ code = 0x4001 ∨ code = 0x7102 ∨ code = 0x7103 ∨ code = 0x8003
    ∨ code = 0xA004 ∨ code = 0xC001 ∨ code = 0xE003 ∨ code = 0xE005 ∨ code = 0xF002 then 1
  else 2

/-- The first 28 bytes of a record (R606). -/
def recBytes (r : Rec) : List Byte :=
  leBytes 8 r.stamp ++ leBytes 2 r.code
    ++ leBytes 1 (r.sev % 4 + r.deferred.toNat * 4 + r.limited.toNat * 8)
    ++ leBytes 1 r.die ++ leBytes 2 r.inst ++ leBytes 2 r.repeats ++ leBytes 8 r.a ++ leBytes 4 r.b

/-- CHECK of a record (R606). -/
def recCheck (r : Rec) : Nat := crc32 (recBytes r)

/-- One more event folded into a record: REPEAT, LIMITED and CHECK (R606, R615). -/
def foldRec (r : Rec) : Rec :=
  let r := { r with repeats := satN 16 (r.repeats + 1), limited := true }
  { r with check := recCheck r }

/-- The limiter's N and W in ns for a code (R616). -/
def limitOf (s : State) (code : Nat) : Nat × Nat :=
  let p := hubPage .eventLog
  if 0x7000 ≤ code ∧ code ≤ 0x70FF then (1, 1000000000)
  else
    match (List.range 32).find? fun e =>
      rget s p Reg.eventLog.LVALID e = 1 && rget s p Reg.eventLog.CODE e = code with
    | some e => (rget s p Reg.eventLog.LN e, rget s p Reg.eventLog.LW e * 1000000)
    | none => (rget s p Reg.eventLog.DEF_N, rget s p Reg.eventLog.DEF_W * 1000000)

/-- `r` put into the intake queue behind every record of an earlier Weir cycle and, within one cycle, in ascending
order of DIE, INST, CODE (R610). -/
def intakeInsert (r : Rec) : List Rec → List Rec
  | [] => [r]
  | x :: xs =>
    if x.cycle = r.cycle ∧
        (r.die < x.die ∨ (r.die = x.die ∧ (r.inst < x.inst ∨ (r.inst = x.inst ∧ r.code < x.code)))) then
      r :: x :: xs
    else x :: intakeInsert r xs

/-- The newest queued record below severity `sev` taken out of a queue (R611). -/
def displace (sev : Nat) (q : List Rec) : Option (List Rec) :=
  match q.reverse.findIdx? (fun x => x.sev < sev) with
  | none => none
  | some i => some (q.eraseIdx (q.length - 1 - i))

/-- LOST advanced (R611, R613, R617, R618). -/
def lost (n : Nat) (s : State) : State := radd (hubPage .eventLog) Reg.eventLog.LOST n s

/-- A record enters its queue (R610, R611). -/
def enqueueRec (r : Rec) (s : State) : State :=
  if r.sev = 3 then
    if s.ev.tamperQ.length < 8 then { s with ev := { s.ev with tamperQ := s.ev.tamperQ ++ [r] } }
    else
      let q := s.ev.tamperQ.take 7 ++ (s.ev.tamperQ.drop 7).map foldRec
      { s with ev := { s.ev with tamperQ := q } }
  else if s.ev.intake.length < 64 then { s with ev := { s.ev with intake := intakeInsert r s.ev.intake } }
  else
    match displace r.sev s.ev.intake with
    | none => lost 1 s
    | some q => lost 1 { s with ev := { s.ev with intake := intakeInsert r q } }

/-- A fold into the last record of a key, in each log where it stands (R615, R617). -/
def foldInto (uid : Nat) (s : State) : State :=
  let f := fun r : Rec => if r.uid = uid then foldRec r else r
  let here := s.ev.intake.any (·.uid == uid) || s.ev.tamperQ.any (·.uid == uid) || s.ev.ring.any (·.uid == uid)
  let s' := { s with ev := { s.ev with
    intake := s.ev.intake.map f
    tamperQ := s.ev.tamperQ.map f
    ring := s.ev.ring.map f
    ff := s.ev.ff.map f } }
  if here then s' else lost 1 s'

/-- Device time as die `d` has it: a compute die's copy lies within 4 ns of the hub's count (R142). -/
def dieTime (s : State) (d : Nat) : Nat :=
  if d ≤ 11 then ((s.ck.dt : Int) + max (-4) (min 4 (Config.dieLead d s.ck.dt))).toNat else s.ck.dt

/-- The time to the next instant that device time resolves: a time-PLL cycle, an XTAL32 edge, a wake-oscillator cycle (R139, R143). -/
def tickNs (s : State) : Nat :=
  match s.ck.src with
  | .pll => 1
  | .xtal => 30517 + (s.ck.frac + 37) / 64
  | .wakeOsc => 62 + (s.ck.frac + 32) / 64

/-- An event of the device time `t` passes its limiter and becomes a record or a fold (R615, R616). The close of its window is rounded
down to the instants that device time resolved, of which `next` followed `t` (R15). -/
def limitEvent (r : Rec) (t next : Nat) (s : State) : State :=
  let key := (r.code, r.die, r.inst)
  let nw := limitOf s r.code
  let fresh := { s with ev := { s.ev with
    nextUid := s.ev.nextUid + 1
    windows := Assoc.set s.ev.windows key { opened := t, count := 1, last := some r.uid } } }
  if r.sev = 3 then enqueueRec r { s with ev := { s.ev with nextUid := s.ev.nextUid + 1 } }
  else
    match Assoc.get s.ev.windows key with
    | none => enqueueRec r fresh
    | some w =>
      if next ≤ w.opened + nw.2 then
        if w.count < nw.1 then
          enqueueRec r { s with ev := { s.ev with
            nextUid := s.ev.nextUid + 1
            windows := Assoc.set s.ev.windows key { w with count := w.count + 1, last := some r.uid } } }
        else
          match w.last with
          | some u => foldInto u s
          | none => s
      else enqueueRec r fresh

/-- A new record for an event of now. -/
def mkRec (s : State) (code sev die inst a b : Nat) : Rec :=
  { uid := s.ev.nextUid, cycle := s.ck.dt / 4, stamp := 0, code := code, sev := sev, deferred := false,
    limited := false, die := die % 256, inst := inst % 65536, repeats := 0, a := a % 2 ^ 64, b := b % 2 ^ 32, check := 0 }

/-- One more event of a code that the full DRY buffer already holds, in the newest entry of that code (R618). -/
def dryFold (code : Nat) (q : List DryRec) : List DryRec :=
  (q.foldr (fun x acc =>
    if !acc.2 && x.body.code == code then
      ({ x with body := { x.body with repeats := satN 16 (x.body.repeats + 1) } } :: acc.1, true)
    else (x :: acc.1, acc.2)) ([], false)).1

/-- The DRY buffer's entries in order with DEFERRED set, and what was discarded into LOST (R618). -/
def dryTake (s : State) : State :=
  let n := s.ev.dryLost
  let q := s.ev.dry
  let s := { s with ev := { s.ev with dry := [], dryLost := 0 } }
  let s := if n = 0 then s else lost n s
  q.foldl (fun s x =>
    limitEvent { x.body with uid := s.ev.nextUid, cycle := s.ck.dt / 4, deferred := true } x.at_ x.next s) s

/-- The recorder takes the DRY buffer before any live event of the hub (R618). -/
def dryFirst (s : State) : State := if hubRuns s && (!s.ev.dry.isEmpty || decide (s.ev.dryLost ≠ 0)) then dryTake s else s

/-- The event of a block: to the recorder with its die's device time, or in DRY to the island's DRY buffer (R142, R609, R618). -/
def raiseSev (code sev die inst a b : Nat) (s : State) : State :=
  let s := dryFirst s
  let r := mkRec s code sev die inst a b
  if s.pw.mode = .dry ∨ s.pw.mode = .off then
    if s.ev.dry.length < 16 then
      { s with ev := { s.ev with nextUid := s.ev.nextUid + 1, dry := s.ev.dry ++ [{ at_ := s.ck.dt, next := s.ck.dt + tickNs s, body := r }] } }
    else if s.ev.dry.any (fun x => x.body.code == code) then
      { s with ev := { s.ev with dry := dryFold code s.ev.dry } }
    else { s with ev := { s.ev with dryLost := s.ev.dryLost + 1 } }
  else limitEvent r (dieTime s die) (dieTime s die + 1) s

/-- The event `code` of a block on `die`, at its fixed severity (R608). -/
def raise (code die inst a b : Nat) (s : State) : State := raiseSev code (severityOf code false) die inst a b s

/-! ### The journal (R80–R96) -/

/-- The journal page. -/
def journalPage : Page := hubPage .journal

/-- JNL_OLDEST_SEQ (R93). -/
def jOldest (s : State) : Nat := max 1 (s.jr.nextSeq - 8192)

/-- Control space address [25:2] of a page's register (R42, R84). -/
def addrOf (s : State) (p : Page) (off : Nat) : Nat :=
  match s.dir.find? fun e => decide (e.page = p) with
  | some e => (e.page.die * 2 ^ 22 + e.num * 2 ^ 12 + off) / 4
  | none => 0

/-- An entry at the next sequence number, in its slot (R86, R87). -/
def jWrite (mk : Nat → JEntry) (s : State) : State :=
  let q := s.jr.nextSeq
  { s with jr := { s.jr with nextSeq := q + 1, slots := Assoc.set s.jr.slots (q % 8192) (mk q) } }

/-- A MARK entry (R85) and the MARK source of the journal page (R93). DESIGN CHOICE (log entry 107): R84 gives TIME as the
device time at acceptance, which a mark does not have; TIME is the device time at which the entry is written. -/
def jMark (code arg : Nat) (s : State) : State :=
  irqPulse journalPage 8 (jWrite (fun q =>
    { seq := q, time := s.ck.dt, addr := 0, result := 0, func := 16, src := 3, kind := .mark, value := code,
      arg := arg, tag := 0 }) s)

/-- The entry that still stands for sequence number `q`. -/
def jEntry (s : State) (q : Nat) : Option JEntry :=
  match Assoc.get s.jr.slots (q % 8192) with
  | some e => if e.seq = q then some e else none
  | none => none

/-- The original that a COMPLETION names (R84). -/
def origOf (e : JEntry) : Nat := e.value + e.arg % 32768 * 2 ^ 32

/-- The outcome of the command with sequence number `q` (R90). -/
def jOutcome (s : State) (q : Nat) : Option Nat :=
  match ((s.jr.slots.map (·.2)).filter fun e => decide (e.kind = .completion) && origOf e == q).foldl
      (fun m e => match m with
        | some x => if x.seq < e.seq then some e else m
        | none => some e) (none : Option JEntry) with
  | some e => some e.result
  | none => (jEntry s q).map (·.result)

/-- The number of the original that a command with this FUNCTION, ADDR and TAG retries (R96). -/
def jRetry (s : State) (func addr tag : Nat) : Option Nat :=
  if tag = 0 then none
  else
    ((s.jr.slots.map (·.2)).filterMap fun e =>
      if e.func = func ∧ e.addr = addr ∧ e.tag = tag ∧ (e.kind = .command ∨ e.kind = .completion) then
        let q := if e.kind = .command then e.seq else origOf e
        match jOutcome s q with
        | some r => if r = Code.ok ∨ r = Code.pending then some q else none
        | none => none
      else none).foldl (fun m q => match m with
        | some x => some (max x q)
        | none => some q) none

/-- The final code of an accepted command, into its entry or a COMPLETION (R88). DESIGN CHOICE (log entry 107): TIME of a
COMPLETION, for which R84 names no acceptance, is the device time at which it is written. -/
def jFinish (e : JEntry) (code : Nat) (s : State) : State :=
  let s := { s with jr := { s.jr with unsettled := s.jr.unsettled.filter (·.seq ≠ e.seq),
                                      committed := s.jr.committed.filter (· ≠ e.seq) } }
  match jEntry s e.seq with
  | some x => { s with jr := { s.jr with slots := Assoc.set s.jr.slots (e.seq % 8192) { x with result := code } } }
  | none => jWrite (fun q => { e with seq := q, time := s.ck.dt, kind := .completion, result := code,
                                      value := e.seq % 2 ^ 32, arg := e.seq / 2 ^ 32 % 32768 }) s

/-! ### The command gate (R73–R79) -/

/-- The fuses deny a client the class of a page (R570, R573). Class 15 is never denied. -/
def fuseDenied (s : State) (c : Client) (b : Block) : Bool :=
  decide (classOf b ≠ 15) &&
    (match c with
     | .pf0 => bitAt s.fuseOn.denyPf0 (classOf b)
     | .siteBus => bitAt s.fuseOn.denySb (classOf b)
     | _ => false)

/-- The opcodes that each page defines (the command tables of the chapters). -/
def opcodesOf : Block → List Nat
  | .powerState => [1, 2, 3] | .time => [1] | .boot => [1, 2, 3, 4] | .spiNor => [1, 2, 3] | .weir => [1]
  | .energy => [1] | .dieFreq => [1, 2] | .heat => [1] | .admission => [1] | .jobSlot => [1, 2, 3, 4, 5]
  | .bridgeDma => [1] | .gateway => [1, 2, 3, 4] | .siteBus => [1] | .aux => [1, 2] | .dualIn => [1, 2]
  | .siteChannel => [1, 2, 3] | .keyStore => [1, 2, 3, 4, 5, 6, 7, 8, 9, 10, 11] | .fuse => [1] | .eventLog => [1]
  | _ => []

/-- An opcode that a set lock bit covers: SC_RELOAD under PG_LOCK[1] of the site channel page (R568), ROUTE_SET and
ROOT_SET under PG_LOCK[0] of the gateway page (R482). -/
def opcodeLocked (s : State) (p : Page) (op : Nat) : Bool :=
  (decide (p.blk = .siteChannel) && decide (op = 3) && bitAt (hget s p).lock 1)
    || (decide (p.blk = .gateway) && (op == 1 || op == 3) && bitAt (hget s p).lock 0)

/-- The gate of R75: the first refusal that applies. A VF's view of a job slot defines no LOAD (R364). -/
def gate (s : State) (p : Page) (c : Client) (op : Nat) : Option Nat :=
  if s.bt.update.isSome then some Code.busy
  else if fuseDenied s c p.blk then some Code.deniedFuse
  else if offline s p then some Code.offline
  else if draining s p then some Code.draining
  else if !(opcodesOf p.blk).contains op || (c.isVf && decide (p.blk = .jobSlot) && decide (op = 1)) then some Code.badOpcode
  else if opcodeLocked s p op then some Code.locked
  else if (hget s p).cmd.isSome then some Code.busy
  else none

/-- DENIED_FUSE refusals reach the event logs (R78, R608). -/
def recordDenied (c : Client) (p : Page) (off : Nat) (s : State) : State :=
  raise 0xF002 12 c.index (addrOf s p off * 4) (classOf p.blk) s

/-- The low half of PG_CMD_RESULT, and the high half where the device writes it (R75). -/
def setResult (p : Page) (c : Client) (code : Nat) (upper : Option Nat) (s : State) : State :=
  let x := cget s p c
  cset p c { x with result := code % 65536 + (match upper with
    | some u => u % 65536
    | none => x.result / 65536) * 65536 } s

/-- A refusal at the gate (R75, R67, R78). -/
def refuse (p : Page) (c : Client) (code : Nat) (s : State) : State :=
  let s := pgErr p code (setResult p c code none s)
  if code = Code.deniedFuse then recordDenied c p 0x030 s else s

/-- The command that has just been accepted on a page takes its final code: its chapter has decided its end. -/
def endCmd (p : Page) (code : Nat) (s : State) : State :=
  let h := hget s p
  match h.cmd with
  | some r => hset p { h with cmd := some { r with final := some code } } s
  | none => s

/-- The same, with bits [31:16] of the result (R96, and the results that carry a number). -/
def endCmdWith (p : Page) (code upper : Nat) (s : State) : State :=
  let h := hget s p
  match h.cmd with
  | some r => hset p { h with cmd := some { r with final := some code, upper := some upper } } s
  | none => s

/-- The commit record of the command that executes on a page is written (R89). -/
def commitCmd (p : Page) (s : State) : State :=
  match (hget s p).cmd with
  | some r => { s with jr := { s.jr with committed := r.seq :: s.jr.committed } }
  | none => s

/-- The first reply that waits for a command of this page and tag, with its sequence number or, without one, its result. -/
def markReply (p : Page) (tag : Nat) (seq : Option Nat) (res : Nat) : List SbReply → List SbReply
  | [] => []
  | x :: xs =>
    if x.page = p ∧ x.tag = tag ∧ x.seq = none ∧ x.result = none then
      { x with seq := seq, result := if seq.isSome then none else some res } :: xs
    else x :: markReply p tag seq res xs

/-- What a reply over the site bus or the management Ethernet waits for (R508, R509): a refusal ends it, an acceptance gives it
a sequence number. -/
def replyGate (p : Page) (r : Req) (seq : Option Nat) (s : State) : State :=
  if r.client ≠ .siteBus then s
  else { s with sb := { s.sb with replies := markReply p r.tag.toNat seq (cget s p .siteBus).result s.sb.replies } }

/-- The command with sequence number `q` has its final result on page `p`. -/
def replyEnd (p : Page) (c : Client) (q : Nat) (s : State) : State :=
  if c ≠ .siteBus then s
  else
    { s with sb := { s.sb with replies := s.sb.replies.map fun x =>
        if x.page = p ∧ x.seq = some q then { x with result := some (cget s p .siteBus).result } else x } }

/-- The page of VF t's directory (R55). -/
def vfHead (t : Nat) : Page := { blk := .directory, inst := 16 + t, die := 12 }

/-- The pages that VF t reaches: its directory, its bound job slots, its energy page and its windows (R54, R57, R334). -/
def vfReaches (s : State) (t : Nat) (p : Page) : Bool :=
  match p.blk with
  | .directory => p == vfHead t
  | .jobSlot => (match Assoc.get s.views p.inst with
    | some (t', _) => t' == t
    | none => false)
  | .tenantEnergy => p.inst == t
  | .objectPage => p.die == 16 + t
  | _ => false

/-- A VF's command names a job slot that belongs to another tenant (R57). -/
def foreignSlot (s : State) (c : Client) (p : Page) : Bool :=
  match c with
  | .vf i => decide (p.blk = .jobSlot) && !vfReaches s (i.val + 1) p
  | _ => false

/-- The COMMAND entry with number `q` of a command accepted now (R84). -/
def commandEntry (s : State) (p : Page) (op : Nat) (r : Req) (res q : Nat) : JEntry :=
  { seq := q, time := s.ck.dt, addr := addrOf s p 0x030, result := res, func := r.client.index, src := r.source.code,
    kind := .command, value := op, arg := r.arg.toNat, tag := r.tag.toNat }

/-- The number whose first phases have been written for the oldest waiting command, while its slot still holds it (R87). -/
def jDrawn (s : State) : Option Nat := s.jr.writing.filter fun q => (jEntry s q).isSome

/-- The number that a command accepted now has. -/
def jNumber (s : State) : Nat := (jDrawn s).getD s.jr.nextSeq

/-- The entry of a command accepted now: the third phase of the one begun, or all three (R86, R87). -/
def jCommand (mk : Nat → JEntry) (s : State) : State :=
  match jDrawn s with
  | some q => { s with jr := { s.jr with writing := none, slots := Assoc.set s.jr.slots (q % 8192) (mk q) } }
  | none => jWrite mk { s with jr := { s.jr with writing := none } }

/-- A PG_CMD write at the gate: refused, a retry, or accepted with its effect (R75, R80, R88, R96). -/
def accept (p : Page) (op : Nat) (r : Req) (eff : State → State) (s : State) : State :=
  let s := cset p r.client { cget s p r.client with cmd := op, arg := r.arg.toNat, tag := r.tag.toNat } s
  match gate s p r.client op with
  | some code => replyGate p r none (refuse p r.client code { s with jr := { s.jr with writing := none } })
  | none =>
    let q := jNumber s
    let dup := jRetry s r.client.index (addrOf s p 0x030) r.tag.toNat
    let e := commandEntry s p op r (if dup.isSome then Code.duplicate else Code.pending)
    let s := jCommand e s
    let s := { s with jr := { s.jr with lastAccept := some s.ck.dt } }
    match dup with
    | some o => irqPulse p 0 (pgErr p Code.duplicate (replyGate p r none (setResult p r.client Code.duplicate (some (o % 65536)) s)))
    | none =>
      let s := { s with jr := { s.jr with unsettled := s.jr.unsettled ++ [e q] } }
      let s := replyGate p r (some q) (setResult p r.client Code.pending (some (q % 65536)) s)
      let s := hset p { hget s p with cmd := some { client := r.client, source := r.source, seq := q, opcode := op,
                                                    arg := r.arg.toNat, tag := r.tag.toNat, final := none, upper := none } } s
      if foreignSlot s r.client p then endCmd p Code.deniedTenant s else eff s

/-- A PG_CMD write comes too soon after the previous acceptance (R81). -/
def tooSoon (s : State) : Bool :=
  match s.jr.lastAccept with
  | some t => decide (s.ck.dt < t + 10000)
  | none => false

/-- The link or the service that carries a client's accesses is up. -/
def clientUp (s : State) (c : Client) : Bool :=
  hubRuns s &&
    (match c with
     | .pf0 => decide (rget s (hubPage .bridge) Reg.bridge.RATE ≠ 0)
     | .vf t => decide (rget s (hubPage .bridge) Reg.bridge.RATE ≠ 0) && s.br.vfEnable && decide (t.val < 15)
     | .firmware => s.bt.running
     | .siteBus => true)

/-- A window page of a view that holds no job (R334). Windows have instance 256 + 30·view + window under 16 + t. -/
def windowIdle (s : State) (p : Page) : Bool :=
  decide (16 ≤ p.die) &&
    (match s.views.find? fun v => v.2 == (p.die - 16, (p.inst - 256) / 30) with
     | some v => decide ((Assoc.getD s.jb.slots v.1 {}).st = .empty)
     | none => true)

/-- A VF that does not see page `p` (R54, R57). A job slot that another tenant holds is no unassigned page: the command that
names it ends with DENIED_TENANT. -/
def vfBlind (s : State) (c : Client) (p : Page) : Option Page :=
  match c with
  | .vf i => if vfReaches s (i.val + 1) p || decide (p.blk = .jobSlot) then none else some (vfHead (i.val + 1))
  | _ => none

/-- An access of client `c` to page `p` waits, so that what `c` sends there next waits behind it (R72). -/
def waits (s : State) (c : Client) (p : Page) : Bool := s.jr.deferred.any fun w => decide (w.page = p ∧ w.client = c)

/-- An access joins those that wait. -/
def hold (c : Client) (p : Page) (a : Access) (s : State) : State :=
  { s with jr := { s.jr with deferred := s.jr.deferred ++ [{ page := p, client := c, act := a }] } }

/-- `f` now, or the access behind the same client's earlier ones to the page (R72). -/
def inOrder (c : Client) (p : Page) (a : Access) (f : State → State) (s : State) : State :=
  if clientUp s c && waits s c p then hold c p a s else f s

/-- A write to PG_CMD: at the gate now, or waiting under R81; a VF that does not see the page records BAD_ADDR (R54). -/
def command (p : Page) (op : Nat) (r : Req) (eff : State → State) (s : State) (host : HostCpl := .ok)
    (data : List Byte := []) : State :=
  if !clientUp s r.client then s
  else if let some h := vfBlind s r.client p then pgErr h Code.badAddr s
  else if tooSoon s || !s.jr.deferred.isEmpty then hold r.client p (.cmd op r host data) s
  else accept p op r eff s

/-- The end of the command that executes on a page (R75, R88): its final code to the journal, to the client's context,
to PG_ERR when it is not OK, and CMD_DONE. -/
def finishCmd (p : Page) (code : Nat) (s : State) : State :=
  match (hget s p).cmd with
  | none => s
  | some r =>
    let e : JEntry := { seq := r.seq, time := s.ck.dt, addr := addrOf s p 0x030, result := code, func := r.client.index,
                        src := r.source.code, kind := .command, value := r.opcode, arg := r.arg, tag := r.tag }
    let s := hset p { hget s p with cmd := none } s
    let s := jFinish e code s
    let s := replyEnd p r.client r.seq (setResult p r.client code r.upper s)
    let s := if code = Code.ok then s else pgErr p code s
    irqPulse p 0 s

/-- A command that executes when its block enters drain or reset ends with ABORTED (R77). -/
def abortCmd (p : Page) (s : State) : State :=
  match (hget s p).cmd with
  | some _ => finishCmd p Code.aborted s
  | none => s

/-! ### A client's accesses to registers (R45–R47, R56, R69, R573) -/

/-- A client's write reaches page `p`: it is up, sees the page, and the fuses do not deny it. A denied write records
DENIED_FUSE (R573). DESIGN CHOICE (log entry 107): where a write with partial byte enables is also denied, R69 names
BAD_ADDR and R573 DENIED_FUSE and no rule orders them; the denial is recorded. -/
def reaches (c : Client) (p : Page) (off : Nat) (f : State → State) (s : State) : State :=
  if !clientUp s c then s
  else
    match c with
    | .vf i =>
      if !vfReaches s (i.val + 1) p then pgErr (vfHead (i.val + 1)) Code.badAddr s else if windowIdle s p then s else f s
    | _ => if fuseDenied s c p.blk then recordDenied c p off (pgErr p Code.deniedFuse s) else f s

/-- A client's write to a block-specific register: an OFFLINE page discards it and records OFFLINE (R47). -/
def blockWrite (c : Client) (p : Page) (off : Nat) (f : State → State) (s : State) : State :=
  reaches c p off (fun s => if offline s p then pgErr p Code.offline s else f s) s

/-! ### Device time guards -/

/-- A periodic action that last ran in the period that holds `last`: due once device time has entered a later period. -/
def duePeriod (period : Nat) (last : Option Nat) (s : State) : Bool :=
  match last with
  | none => true
  | some t => decide (t / period < s.ck.dt / period)

/-- `n` ns have passed since `t`. -/
def passed (t n : Nat) (s : State) : Bool := decide (t + n ≤ s.ck.dt)

end Sys2Proof.Machine
end

