-- ==== Sys2Proof/Machine/Flash.lean ====
section
/-! DEFINITION. The SPI NOR flash as bytes (R159–R173). -/

namespace Sys2Proof.Machine

def spiPage : Page := hubPage .spiNor

/-- What an unlisted flash byte reads as: erased (log entry 4). -/
def flashByte : Byte := 0xFF

def flashRead (s : State) (a n : Nat) : List Byte := Mem.readN flashByte s.bt.flash a n
def flashWrite (a : Nat) (bs : List Byte) (s : State) : State :=
  { s with bt := { s.bt with flash := Mem.writeL flashByte s.bt.flash a bs } }
/-- Bytes back to erased. -/
def flashErase (a n : Nat) (s : State) : State := { s with bt := { s.bt with flash := Mem.forget s.bt.flash a n } }

/-- The size of the flash in bytes (R171). DESIGN CHOICE (log entry 108): with no SFDP figures SIZE_LOG2 stands at its reset value
0, to which R172's test of the range is applied as written. -/
def flashSize (s : State) : Nat := 2 ^ rget s spiPage Reg.spiNor.SIZE_LOG2

end Sys2Proof.Machine
end

