-- ==== Sys2Proof/Machine/AuxOps.lean ====
section
/-! DEFINITION. The aux channels: their states, timers and the order in which they give way (R516–R528). -/

namespace Sys2Proof.Machine

def auxPage : Page := hubPage .aux

/-- AUX_GRANT: the aux page's grant (R521). -/
def auxGrant (s : State) : Nat := (hget s auxPage).grant

/-- STATE of a channel: 0 OFF, 1 INRUSH, 2 HELD, 3 STEADY, 4 LIMITING, 5 GRANT_OFF, 6 FAULT (R516, R537). -/
def chState (s : State) (n : Nat) : Nat := rget s auxPage Reg.aux.STATE n

/-! ### ALERT_N (R536) -/

def dualPage : Page := hubPage .dualIn

/-- The site channel is castled: the Castle table is in control of the outputs (R540). -/
def castled (s : State) : Bool := rbit s (hubPage .siteChannel) Reg.siteChannel.CASTLED

/-- ALERT_SRC. -/
def alertSrc (s : State) : Nat :=
  let on := !decide (s.pw.mode = .dry ∨ s.pw.mode = .off)
  maskOf 9 fun i =>
    match i with
    | 0 => on && (List.range 8).any fun n => chState s n == 6
    | 1 => on && (List.range 8).any fun n => chState s n == 2 || chState s n == 5
    | 2 => s.io.epoLatched
    | 3 => s.io.epo.fault || s.io.tamp.fault
    | 4 => on && rbit s (hubPage .weir) Reg.weir.THERM_CAP_VALID
    | 5 => on && rbit s (hubPage .weir) Reg.weir.SHED_ACTIVE
    | 6 => on && rbit s (hubPage .powerState) Reg.powerState.BROWNOUT
    | 7 => on && rbit s (hubPage .heat) Reg.heat.TRIPPED
    | _ => on && castled s

/-- ALERT_N follows its sources: it falls with them, and rises once they are gone and 10 ms have passed. -/
def alertSettle (s : State) : State :=
  let want := decide (alertSrc s &&& rget s dualPage Reg.dualIn.ALERT_MASK ≠ 0)
  if want then
    if s.io.alertLow then s else { s with io := { s.io with alertLow := true, alertAt := s.ck.dt } }
  else if s.io.alertLow && passed s.io.alertAt 10000000 s then { s with io := { s.io with alertLow := false } }
  else s

/-- A new STATE of a channel, and ALERT_N with it. -/
def setCh (n v : Nat) (s : State) : State := alertSettle (rset auxPage Reg.aux.STATE v s n)

/-- Limits of a channel in mA. -/
def chSteady (s : State) (n : Nat) : Nat := 10 * rget s auxPage Reg.aux.STEADY n
def chHold (s : State) (n : Nat) : Nat := 10 * rget s auxPage Reg.aux.HOLD n
def chInrush (s : State) (n : Nat) : Nat := 10 * rget s auxPage Reg.aux.INRUSH n
def chShort (s : State) (n : Nat) : Nat := 1000 * rget s auxPage Reg.aux.SHORT_A n
def chPrio (s : State) (n : Nat) : Nat := rget s auxPage Reg.aux.PRIO n
def chOwner (s : State) (n : Nat) : Nat := rget s auxPage Reg.aux.OWNER n
def chNow (s : State) (n : Nat) : Nat := rget s auxPage Reg.aux.I_NOW n

def auxRun (s : State) (n : Nat) : AuxRun := Assoc.getD s.io.aux n {}
def setAuxRun (n : Nat) (r : AuxRun) (s : State) : State := { s with io := { s.io with aux := Assoc.set s.io.aux n r } }

/-- Inrush time of a channel so far, ns: it counts only in INRUSH (R517). -/
def inrushNs (s : State) (n : Nat) : Nat :=
  let r := auxRun s n
  if chState s n = 1 then r.used + (s.ck.dt - r.since) else r.used

/-- The demand of a channel (R537). -/
def demanded (s : State) (n : Nat) : Bool := bitAt (rget s auxPage Reg.aux.DEMAND) n
def setDemand (n : Nat) (on : Bool) (s : State) : State :=
  rset auxPage Reg.aux.DEMAND (putBit (rget s auxPage Reg.aux.DEMAND) n on) s

/-- The inrush timer stops at what it has counted. -/
def pauseInrush (n : Nat) (s : State) : State := setAuxRun n { used := inrushNs s n, since := s.ck.dt } s

/-- A channel starts (again) in INRUSH with a fresh timer (R517). -/
def startInrush (n : Nat) (s : State) : State :=
  setCh n 1 (setAuxRun n { used := 0, since := s.ck.dt } s)

/-- A channel goes OFF; its timer is discarded. -/
def chOff (n : Nat) (s : State) : State := setCh n 0 (setAuxRun n {} s)

/-- A channel in INRUSH is held: HELD, HOLDS and the HOLD source (R522). -/
def chHeld (n : Nat) (s : State) : State :=
  if chState s n = 1 then irqPulse auxPage 9 (radd auxPage Reg.aux.HOLDS 1 (setCh n 2 (pauseInrush n s)) n) else s

/-- A channel is turned off for the allotment, its demand kept (R516, R522). -/
def chGrantOff (n : Nat) (s : State) : State := irqPulse auxPage 10 (setCh n 5 (setAuxRun n {} s))

/-- A latched fault of a channel: 1 SHORT, 2 INRUSH_TIMEOUT, 3 OVERLOAD (R537). -/
def chFault (n cause : Nat) (s : State) : State :=
  irqPulse auxPage 8 (rset auxPage Reg.aux.CAUSE cause (setCh n 6 (pauseInrush n s)) n)

/-! ### The combined current (R522) -/

/-- A channel's share of the sum: nothing while off or for 2 µs after its short protection fired, at most HOLD while
held. -/
def chShare (s : State) (n : Nat) : Nat :=
  let x := chState s n
  if x = 0 ∨ x = 5 ∨ x = 6 then 0
  else if s.io.fired.any fun f => f.1 == n && decide (s.ck.dt < f.2 + 2000) then 0
  else if x = 2 then min (chNow s n) (chHold s n)
  else chNow s n

def auxSum (s : State) : Nat := ((List.range 8).map (chShare s)).foldl (· + ·) 0

/-- `a` is turned off before `b`: the lower PRIO, then the higher number (R522). -/
def offBefore (s : State) (a b : Nat) : Bool :=
  decide (chPrio s a < chPrio s b) || (decide (chPrio s a = chPrio s b) && decide (b < a))

/-- Insertion by an order, for lists of channels. -/
def insertBy (le : Nat → Nat → Bool) (x : Nat) : List Nat → List Nat
  | [] => [x]
  | y :: ys => if le x y then x :: y :: ys else y :: insertBy le x ys

def sortBy (le : Nat → Nat → Bool) (xs : List Nat) : List Nat := xs.foldr (insertBy le) []

/-- Channels in state `st` in the order in which they are turned off. -/
def offOrder (s : State) (st : Nat) : List Nat := sortBy (offBefore s) ((List.range 8).filter fun n => chState s n == st)

/-- Channels turned off in turn, only as many as it takes (R522). -/
def offUntil : List Nat → State → State
  | [], s => s
  | n :: ns, s => if auxGrant s < auxSum s then offUntil ns (chGrantOff n s) else s

/-- Step 1 of R522. -/
def holdAll (s : State) : State := (List.range 8).foldl (fun s n => chHeld n s) s

/-- Steps 2 and 3 of R522: LIMITING, then STEADY, then HELD. -/
def escalate (s : State) : State := offUntil (offOrder s 4 ++ offOrder s 3 ++ offOrder s 2) s

/-- AUX_GRANT has fallen: the steps are applied at once; a grant of zero turns every channel off (R522, R525). -/
def auxGrantFell (s : State) : State :=
  if auxGrant s = 0 then
    (List.range 8).foldl (fun s n => if chState s n = 0 ∨ 5 ≤ chState s n then s else chGrantOff n s) s
  else if auxGrant s < auxSum s then escalate (holdAll s)
  else s

/-- Every channel off, its demand cleared: EN = 0 keeps demands (R537), DRY clears them (R528). -/
def allChannelsOff (clear : Bool) (s : State) : State :=
  (List.range 8).foldl (fun s n => chOff n (if clear then setDemand n false s else s)) s

/-- A channel leaves OFF for its demand while the page is enabled: INRUSH under a grant, else it waits in GRANT_OFF (R37, R516, R517).
While the page waits for ramp room nothing starts (R187). -/
def chStart (n : Nat) (s : State) : State :=
  if (hget s auxPage).en && !s.we.ramp.contains auxPage && decide (chState s n = 0) then
    (if auxGrant s = 0 then chGrantOff n s else startInrush n s)
  else s

/-- The demand of a channel from its owner (R517, R526, R560): a rise starts it, a fall turns it off. A channel in
FAULT stays there (R520); one in EPO_MASK stays off while EPO is latched (R527). -/
def ownerDemand (n : Nat) (on : Bool) (s : State) : State :=
  if chState s n = 6 then s
  else if on && s.io.epoLatched && bitAt (rget s auxPage Reg.aux.EPO_MASK) n then s
  else if on then
    if demanded s n then s
    else chStart n (setDemand n true s)
  else chOff n (setDemand n false s)

end Sys2Proof.Machine
end

