-- ==== Sys2Proof/Machine/Model.lean ====
section
/-! DEFINITION. The Weir's predictive model, the effective cap, and grants (R179–R190, R26, R65). -/

namespace Sys2Proof.Machine

def weirPage : Page := hubPage .weir
def heatPage : Page := hubPage .heat
def powerPage : Page := hubPage .powerState

/-! ### Coefficients and tables (R188, R189) -/

/-- The family ceiling values (R188). -/
def coefCeiling (i : Nat) : Nat :=
  ([3200, 3800, 4800, 6400, 120, 480, 1600, 2400, 2000, 2400, 6000, 7200, 4000, 4800, 2000, 40000, 44000, 60000,
    16000, 16000, 16000, 16000, 150, 60000] : List Nat).getD i 0

/-- COEF_VALID of die `d`: the CRC holds and every coefficient lies inside its bound (R188). -/
def coefValid (d : Nat) : Bool :=
  Config.coefCrcOk d && (List.range 24).all fun i =>
    if i = 22 then decide (150 ≤ Config.coef d 22) else decide (Config.coef d i ≤ coefCeiling i)

/-- The coefficient that the Weir and the energy unit use. -/
def coef (d i : Nat) : Nat := if coefValid d then Config.coef d i else coefCeiling i

/-- KV[k] (R189). -/
def kv (k : Nat) : Nat := (roundAway (16384 * ((600 + 5 * k : Nat) / 750 : Rat) ^ 2)).toNat

/-- KL[k] (R189). -/
def kl (k : Nat) : Nat := (roundAway (16384 * ((600 + 5 * k : Nat) / 750 : Rat) ^ 3)).toNat

/-- F[n]: core cycles in one epoch (R189). -/
def cyclesPerEpoch (n : Nat) : Rat := 64 + 16 / 10 * n

/-- The voltage code of quadrant `q` of die `d`: 0.600 V in retention (R201), else the higher of the old and the new while the
rail slews (R243). -/
def codeOf (s : State) (d q : Nat) : Nat :=
  let k := rget s (pageOf .dieFreq 0 d) Reg.dieFreq.K_NOW q
  if s.we.retained.contains (4 * d + q) then 0 else max k (Assoc.getD s.fq.rail (4 * d + q) 0)

/-- EFF[j] as the Weir page shows it, in units of 2^-16 (R189). -/
def effOf (s : State) : Rat := rget s weirPage Reg.weir.EFF s.we.effJ / 65536

/-- V48_IN in volts. -/
def volts (s : State) : Rat := v48 s / 100

/-- A signed 1/16 °C register in degrees. -/
def celsius (v : Nat) : Rat := (toInt 16 v : Int) / 16

/-- t(q): the higher of the quadrant's two sensors, at least 60 °C on a die without valid coefficients (R188, R190). -/
def quadTemp (s : State) (d q : Nat) : Rat :=
  let p := pageOf .dieFreq 0 d
  let t := max (celsius (rget s p Reg.dieFreq.TEMP (2 * q))) (celsius (rget s p Reg.dieFreq.TEMP (2 * q + 1)))
  if coefValid d then t else max t 60

/-- 2^x: exact at whole x, open elsewhere (log entry 2). -/
def pow2 (x : Rat) : Rat :=
  if x = x.floor then (if 0 ≤ x.floor then (2 : Rat) ^ x.floor.toNat else 1 / (2 : Rat) ^ (-x.floor).toNat)
  else Config.pow2 x

/-- Leakage of a quadrant, mW (R190). -/
def leak (s : State) (d q : Nat) : Rat :=
  coef d (18 + q) / 10 * kl (codeOf s d q) / 16384 * pow2 ((quadTemp s d q - 60) / (coef d 22 / 10))

/-- The leakage of a powered die's quadrants, mW. -/
def dieLeak (s : State) (d : Nat) : Rat := ((List.range 4).map (leak s d)).foldl (· + ·) 0

/-- Static draw of every die, mW: leakage of powered quadrants, transit domains while powered (R190). -/
def staticMw (s : State) : Rat :=
  ((List.range 12).map fun d =>
    (if diePowered s d then dieLeak s d else 0) + (if transitOn s then (coef d 23 : Rat) / 10 else 0)).foldl (· + ·) 0

/-- p_hub in mW: the tier-0 reserve and tier-2 floor at the 48.0 V reference (R190). -/
def pHub : Rat := (200 + 220) * 48

/-- Transit-domain classes are priced at KV = 2^14 (R189). -/
def isTransitClass (i : Nat) : Bool := i == 13 || i == 15 || i == 16 || i == 17

/-- The energy of `n` events of class `i` on quadrant `q` of die `d`, in units of 0.01 pJ (R190, R215). -/
def eventEnergy (s : State) (d q i n : Nat) : Rat :=
  coef d i * n * (if isTransitClass i then 16384 else kv (codeOf s d q)) / 16384

/-- mW to mA-in at the measured voltage and the efficiency in force (R190). -/
def toMaIn (s : State) (mw : Rat) : Rat :=
  if effOf s * volts s = 0 then 0 else mw / (effOf s * volts s)

/-! ### The effective cap (R26, R179–R183) -/

/-- The shed cap limits while the shed is active or the thermal trip holds (R182). -/
def shedGoverns (s : State) : Bool := rbit s weirPage Reg.weir.SHED_ACTIVE || rbit s heatPage Reg.heat.TRIPPED

/-- The limits in force, by their place in CAP_SRC (R180, R181, R210). The package limit binds the package part of
the governed current: the sensed aux current stands beside it. -/
def caps (s : State) : List (Nat × Nat) :=
  [(0, rget s weirPage Reg.weir.HOST_CAP)]
    ++ (if shedGoverns s then [(1, rget s weirPage Reg.weir.SHED_CAP)] else [])
    ++ (if rbit s weirPage Reg.weir.SITE_CAP_VALID then [(2, rget s weirPage Reg.weir.SITE_CAP)] else [])
    ++ (if rbit s weirPage Reg.weir.SC_CAP_VALID then [(3, rget s weirPage Reg.weir.SC_CAP)] else [])
    ++ (if rbit s weirPage Reg.weir.THERM_CAP_VALID then [(4, rget s weirPage Reg.weir.THERM_CAP)] else [])
    ++ (if v48 s = 0 then [] else [(5, 125000000 / v48 s + rget s weirPage Reg.weir.I_AUX)])

/-- CAP_EFF (R26, R210). -/
def effCap (s : State) : Nat :=
  (caps s).foldl (fun m x => min m x.2) (rget s weirPage Reg.weir.HOST_CAP)

/-- CAP_SRC: the sources equal to CAP_EFF (R210). -/
def capSrc (s : State) : Nat :=
  maskOf 6 fun i => (caps s).any fun x => x.1 == i && x.2 == effCap s

/-- The site channel is enabled (R30, R539, R575). -/
def scEnabled (s : State) : Bool := (hget s (hubPage .siteChannel)).en || decide (s.fuseOn.mandatory = 1)

/-- SITE_RESERVED of core `g`: the site channel holds cores 0 and 96 while it is enabled (R30, R290). -/
def siteReserved (s : State) (g : Nat) : Bool := (g == 0 || g == 96) && scEnabled s

/-- The tier-1 floor applies: the site channel is enabled and the device is in FLOW (R183). -/
def tier1Applies (s : State) : Bool := scEnabled s && transitOn s

/-- FLOOR_SUM with the dies that `on` picks, before R12 (R183). -/
def floorRef (s : State) (on : Nat → Bool) : Nat :=
  let t1 := tier1Applies s
  200 + (if t1 then 2000 else 0) + 220
    + 90 * (pick 12 fun d => on d && !(t1 && (d == 0 || d == 6))).length
    + (if t1 || !transitOn s then 0 else 1400)

/-- FLOOR_SUM (R183, R210). -/
def floorSum (s : State) : Nat := atV48 s (floorRef s (diePowered s))

/-! ### Grants (R65, R184–R186) -/

/-- The sum of held grants, the aux page's included (R210). -/
def grantSum (s : State) : Nat := (s.hdr.map fun x => x.2.grant).foldl (· + ·) 0

/-- The tier of a page for the order of R184 (R27). The reserved cores are of tier 1 while the site channel holds them (R30, R31). -/
def tierOf (s : State) (p : Page) : Nat :=
  match p.blk with
  | .keyStore => 0
  | .siteChannel => 1
  | .gateway | .canPort | .ethPort | .uartPort | .pmbPort | .aux => 2
  | .core => if siteReserved s (16 * p.die + p.inst) then 1 else 3
  | _ => 3

/-- R110: the power-state page and the die power pages hold a grant of zero. -/
def grantHeldAtZero (s : State) (p : Page) : Bool :=
  (decide (p.blk = .powerState) || decide (p.blk = .diePower))
    && (rbit s powerPage Reg.powerState.BROWNOUT || rbit s powerPage Reg.powerState.STAGE_DEGRADED)

/-- A request of page `p` at the effective size `e` fits (R184, R185). -/
def grantFits (s : State) (p : Page) (e : Nat) : Bool :=
  !grantHeldAtZero s p && decide (grantSum s ≤ effCap s)
    && decide (atV48 s 200 + (grantSum s - (hget s p).grant) + e ≤ effCap s)

/-- A changed grant, with the GRANT source of R66; the aux channels give way when theirs falls (R522). -/
def setGrant (p : Page) (g : Nat) (s : State) : State :=
  let was := (hget s p).grant
  if was = g then s
  else
    let s := irqPulse p 2 (hset p { hget s p with grant := g } s)
    if p = auxPage ∧ g < was then auxGrantFell s else s

/-- A page that waits for its grant, at the end of the line (R184). -/
def addWaiter (p : Page) (s : State) : State :=
  if s.we.waiters.contains p then s else { s with we := { s.we with waiters := s.we.waiters ++ [p] } }

/-- A page that waits no longer. -/
def dropWaiter (p : Page) (s : State) : State :=
  { s with we := { s.we with waiters := s.we.waiters.filter (· ≠ p) } }

/-- A write to PG_ALLOT_REQ: a reduction is granted at once, an increase if it fits, and else waits (R65, R184). -/
def requestAllot (p : Page) (v : Nat) (s : State) : State :=
  if !hasAllotment p.blk then s
  else
    let s := hset p { hget s p with allotReq := v } s
    let e := atV48 s v
    if e ≤ (hget s p).grant then setGrant p e (dropWaiter p s)
    else if grantFits s p e then setGrant p e (dropWaiter p s)
    else addWaiter p s

/-- `a` is examined before `b`: by tier, then by arrival (R184). -/
def waitsBefore (s : State) (a b : Page) : Bool :=
  decide (tierOf s a < tierOf s b)
    || (decide (tierOf s a = tierOf s b) && decide (s.we.waiters.idxOf a < s.we.waiters.idxOf b))

/-- A waiting request is granted: it fits, and no request examined before it fits (R184). -/
def grantWaiting (p : Page) (s : State) : State :=
  let e := atV48 s (hget s p).allotReq
  if s.we.waiters.contains p && grantFits s p e
      && !(s.we.waiters.any fun x => waitsBefore s x p && grantFits s x (atV48 s (hget s x).allotReq)) then
    setGrant p e (dropWaiter p s)
  else s

/-- A grant cut by the Weir: the request stands and waits (R184, R200). -/
def cutGrant (p : Page) (s : State) : State := addWaiter p (setGrant p 0 s)

/-- The effective requests follow the measured voltage: a smaller one is granted at once, a larger one waits (R12). -/
def followVoltage (s : State) : State :=
  (s.hdr.map (·.1)).foldl (fun s p =>
    let e := atV48 s (hget s p).allotReq
    if (hget s p).allotReq = 0 ∨ e = (hget s p).grant then s
    else if e < (hget s p).grant then setGrant p e s
    else addWaiter p s) s

/-- Slots with RESTART_PENDING are due for another attempt (R375). -/
def retryAll (s : State) : State :=
  { s with jb := { s.jb with retry := (s.jb.slots.filter fun x => x.2.pendingRestart).map (·.1) } }

/-- CAP_CHANGE and OVERCOMMIT follow the caps and the grants (R185, R210). `was` is the effective cap before. -/
def weirSettle (was : Nat) (s : State) : State :=
  let s := if effCap s = was then s else irqPulse weirPage 8 s
  let s := if was < effCap s then retryAll s else s
  let tooMuch := decide (effCap s < grantSum s)
  let s := irqLevel weirPage 10 tooMuch (rflag weirPage Reg.weir.OVERCOMMIT tooMuch s)
  let breach := decide (effCap s < floorSum s)
  let s := if breach && s.we.breachAt.isNone then { s with we := { s.we with breachAt := some s.ck.dt } }
    else if breach then s else { s with we := { s.we with breachAt := none } }
  irqLevel weirPage 11 breach (rflag weirPage Reg.weir.FLOOR_BREACH breach s)

/-- `f`, and then what the Weir makes of a changed cap or grant. -/
def withCaps (f : State → State) (s : State) : State := weirSettle (effCap s) (f s)

/-! ### Enabling a block (R61, R187) -/

/-- The Weir cycle of the epoch, 0–15 (R194). -/
def weirCycle (s : State) : Nat := s.ck.dt % 64 / 4

/-- The ramp limiter has room for a draw of `e` mA-in. -/
def rampRoom (s : State) (e : Nat) : Bool := decide ((e : Rat) ≤ s.we.room)

/-- `e` mA-in of ramp room taken: the predicted total of this epoch grows by it (R199). -/
def takeRoom (e : Rat) (s : State) : State := { s with we := { s.we with room := s.we.room - e, total := s.we.total + e } }

/-- A block that leaves its off state takes ramp room, or waits for it (R187). DESIGN CHOICE (log entry 112): its predicted draw, of
which the spec gives no figure, is the effective allotment request of its page. -/
def rampEnter (p : Page) (s : State) : State :=
  let e := atV48 s (hget s p).allotReq
  if !hasAllotment p.blk then s
  else if rampRoom s e then takeRoom e s
  else if s.we.ramp.contains p then s
  else { s with we := { s.we with ramp := s.we.ramp ++ [p] } }

/-- A block no longer waits for ramp room. -/
def rampLeave (p : Page) (s : State) : State :=
  { s with we := { s.we with ramp := s.we.ramp.filter (· ≠ p) } }

/-! ### A page whose block EN switches (R64, R187) -/

/-- ACTIVE of a page on which EN has an effect: enabled, powered, with its ramp room, in neither drain nor reset. -/
def enActive (s : State) (p : Page) : Bool :=
  (hget s p).en && !offline s p && !draining s p && !s.we.ramp.contains p

end Sys2Proof.Machine
end

