-- ==== Sys2Proof/Machine/Wall.lean ====
section
/-! DEFINITION. Device time and the wall clock as readings (R139, R144), and what other chapters take from them. -/

namespace Sys2Proof.Machine

def timePage : Page := hubPage .time
def wakePage : Page := hubPage .wake

/-- RATE_ADJ as a factor's excess over 1: signed, 2^-16 ppm (R144, R150). -/
def rateAdj (s : State) : Rat := (toInt 32 (rget s timePage Reg.time.RATE_ADJ) : Int) / (65536 * 1000000)

/-- The wall clock in TAI nanoseconds at device time `t` (R144). -/
def wallAt (s : State) (t : Nat) : Rat := s.ck.anchorNs + ((t : Rat) - s.ck.anchorDt) * (1 + rateAdj s)

/-- The wall clock now, in whole TAI nanoseconds. -/
def wallNs (s : State) : Int := (wallAt s s.ck.dt).floor

/-- The wall clock at device time `t` in UTC nanoseconds: TAI less UTC_OFFSET seconds (R144). -/
def utcAt (s : State) (t : Nat) : Int := (wallAt s t).floor - toInt 16 (rget s timePage Reg.time.UTC_OFFSET) * 1000000000

/-- The wall clock now in UTC nanoseconds. -/
def utcNs (s : State) : Int := utcAt s s.ck.dt

/-- The wall clock starts anew from its present reading, so that a change of rate applies from now. -/
def reanchor (s : State) : State := { s with ck := { s.ck with anchorNs := wallAt s s.ck.dt, anchorDt := s.ck.dt } }

/-- WALL_VALID (R150). -/
def wallValid (s : State) : Bool := rbit s timePage Reg.time.WALL_VALID

end Sys2Proof.Machine
end

