-- ==== Sys2Proof/Machine/Energy.lean ====
section
/-! DEFINITION. Chapter 08: energy accounts and billing intervals. -/

namespace Sys2Proof.Machine

def energyPage : Page := hubPage .energy

/-- The accounts: 0–15 tenants, 16 SITE, 17 SITE_CHANNEL, 18 AUX, 19 RESIDUAL, 20 SENSED (R234). -/
def accSite : Nat := 16
def accSiteChannel : Nat := 17
def accAux : Nat := 18
def accResidual : Nat := 19
def accSensed : Nat := 20

/-- The account of a tag (R217). -/
def accountOf (s : State) : Tag → Nat
  | .slot j => (s.tenants.getD j.val 0)
  | .siteChannel => accSiteChannel
  | .func f => f.val
  | .site => accSite

/-- The tag that core `g` carries: its job slot, SITE_CHANNEL for a reserved core in use, or SITE (R214). -/
def coreTag (s : State) (g : Nat) : Tag :=
  let p := corePage .core g
  if siteReserved s g then .siteChannel
  else if rbit s p Reg.core.SLOT_VALID then .slot (Fin.ofNat 32 (rget s p Reg.core.SLOT))
  else .site

/-- `e` µJ of model energy under tag `t`, into its account, its slot accumulator and the open interval. -/
def addAt (xs : List Rat) (i : Nat) (e : Rat) : List Rat := xs.set i (xs.getD i 0 + e)

/-- `e` µJ into account `a` and into the open interval's total of it. -/
def credit (a : Nat) (e : Rat) (s : State) : State :=
  { s with en := { s.en with
      acc := addAt s.en.acc a e
      opened := { s.en.opened with totals := addAt s.en.opened.totals a e } } }

/-- `e` µJ under a tag (R215, R217). -/
def creditTag (t : Tag) (e : Rat) (s : State) : State :=
  let s := credit (accountOf s t) e s
  match t with
  | .slot j => { s with en := { s.en with slotAcc := addAt s.en.slotAcc j.val e } }
  | _ => s

/-- The model energy of one step by tag, µJ, before gain and efficiency (R215). -/
def stepEnergy (s : State) (incs : List Increment) : List (Tag × Rat) :=
  incs.map (fun x => (x.tag, eventEnergy s x.die.val x.quad.val x.cls.val x.count / 100000000))
    ++ (List.range 12).flatMap (fun d =>
      if diePowered s d then
        (List.range 16).map fun c => (coreTag s (16 * d + c), leak s d (c / 4) / 1000 / 4)
      else [])
    ++ [(.site, (((List.range 12).map fun d => if transitOn s then (coef d 23 : Rat) / 10 else 0).foldl (· + ·) 0 + pHub) / 1000)]

/-- A step meets every condition of R221. -/
def accurate (s : State) : Bool :=
  ((List.range 12).all fun d => !diePowered s d || coefValid d)
    && !rbit s weirPage Reg.weir.MODEL_FAULT && !rbit s powerPage Reg.powerState.STAGE_DEGRADED
    && decide (4000 ≤ v48 s ∧ v48 s ≤ 6000)

/-- `account_step` of R215: `iSense` and `iAux` in mA. -/
def accountStep (iSense iAux : Nat) (incs : List Increment) (s : State) : State :=
  let es := stepEnergy s incs
  let k := if effOf s = 0 then 0 else s.we.gain / effOf s
  let sensed : Rat := iSense * volts s / 1000
  let s' := es.foldl (fun s x => creditTag x.1 (k * x.2) s) s
  let s' := credit accAux (iAux * volts s / 1000) s'
  let s' := credit accSensed sensed s'
  let s' := credit accResidual (sensed - k * (es.map (·.2)).foldl (· + ·) 0) s'
  if accurate s then s'
  else { s' with en := { s'.en with opened := { s'.en.opened with flags := putBit s'.en.opened.flags 5 true } } }

/-! ### Billing intervals (R223–R233) -/

/-- Nanoseconds of a minute. -/
def minuteNs : Nat := 60000000000

/-- The open interval has reached its boundary at device time `t` (R224, R227). -/
def boundaryReached (s : State) (t : Nat) : Bool :=
  let o := s.en.opened
  let l := o.len * minuteNs
  if o.noWall then decide (l ≠ 0 ∧ (o.dtOpen / l + 1) * l ≤ t)
  else
    let start : Int := o.utcS * 1000000000 + o.utcNs
    decide (l ≠ 0 ∧ (start / (l : Int) + 1) * (l : Int) ≤ utcAt s t)

/-- The trigger with flag bit `bit` falls now (R226). -/
def closeTrigger (bit : Nat) (s : State) : State :=
  { s with en := { s.en with triggers := s.en.triggers ++ [(bit, s.ck.dt)] } }

/-- The trigger flags that have fallen at or before `t` (R226). -/
def triggerFlags (s : State) (t : Nat) : Nat := maskOf 8 fun b => s.en.triggers.any fun x => x.1 == b && decide (x.2 ≤ t)

/-- A trigger of R226 has fallen at or before `t`. -/
def closeDue (s : State) (t : Nat) : Bool := (s.en.triggers.any fun x => decide (x.2 ≤ t)) || boundaryReached s t

/-- The start of the correction step that holds device time `t`, and that of the first one at or after it (R225, R226). -/
def stepStart (t : Nat) : Nat := t / 1000 * 1000
def stepAfter (t : Nat) : Nat := (t + 999) / 1000 * 1000

/-- The order of the energy fields in a record (R231). -/
def recordOrder : List Nat := accSensed :: List.range 16 ++ [accSite, accSiteChannel, accAux, accResidual]

/-- µJ in whole 2^-16 J, and the remainder that stays with the account (R232). -/
def wholeUnits (e : Rat) : Int := (e * 65536 / 1000000).floor

/-- The interval that opens at device time `t`; UTC_START is the wall clock's reading there (R227, R228). `left` are the remainders of
the closed one. -/
def openInterval (s : State) (t : Nat) (left : List Rat) : OpenInterval :=
  let len := rget s energyPage Reg.energy.INT_LEN
  let u := utcAt s t
  { index := s.en.opened.index + 1, dtOpen := t, len := len,
    utcS := if wallValid s then u / 1000000000 else 0, utcNs := if wallValid s then (u % 1000000000).toNat else 0,
    noWall := !wallValid s, flags := 0, lenNew := decide (len ≠ s.en.opened.len), totals := left }

/-- The record of the open interval closed at `t` with trigger flags `fl` (R226, R231, R232). -/
def closedRecord (s : State) (t fl : Nat) : IntervalRec :=
  let o := s.en.opened
  { index := o.index
    flags := fl ||| o.flags ||| (if o.noWall then 2 else 0) ||| (if o.lenNew then 64 else 0)
    len := o.len, utcS := o.utcS, utcNs := o.utcNs, dtOpen := o.dtOpen, dtClose := t
    step := if bitAt fl 0 then s.en.step else 0
    fields := recordOrder.map fun a => wholeUnits (o.totals.getD a 0), ready := false }

/-- The last 4,096 records. -/
def keepRing (xs : List IntervalRec) : List IntervalRec := xs.drop (xs.length - 4096)

/-- What a record's whole units leave of the totals for the same accounts of the next interval (R232). -/
def remainders (totals : List Rat) : List Rat := totals.map fun e => e - (wholeUnits e : Rat) * 1000000 / 65536

/-- The open interval closes at `t` and the next opens there, with the flag of every trigger that fell before the step (R226); the
close is checkpointed (R229), and a record that CLOSE_NOW asked for is its commit record (R235). -/
def closeInterval (t : Nat) (s : State) : State :=
  let fl := triggerFlags s t
  let r := closedRecord s t fl
  let o := openInterval s t (remainders s.en.opened.totals)
  let s := { s with en := { s.en with opened := o, ring := keepRing (s.en.ring ++ [r])
                                      triggers := s.en.triggers.filter (t < ·.2), step := 0 } }
  let s := { s with en := { s.en with saved := some { dt := t, acc := s.en.acc, opened := o } } }
  if bitAt fl 4 then commitCmd energyPage s else s

/-- Bytes of a record (R231). -/
def recordBytes (r : IntervalRec) : List Byte :=
  let noWall := bitAt r.flags 1
  let body := leBytes 8 r.index ++ leBytes 4 r.flags ++ leBytes 4 r.len
    ++ leBytes 8 (if noWall then 0 else ofInt 48 r.utcS) ++ leBytes 4 r.utcNs ++ leBytes 4 0
    ++ leBytes 8 r.dtOpen ++ leBytes 8 r.dtClose ++ leBytes 8 (ofInt 64 r.step)
    ++ r.fields.flatMap (fun f => leBytes 8 (ofInt 64 f)) ++ List.replicate 28 0
  body ++ leBytes 4 (crc32 body)

/-- OLDEST_INDEX (R234). -/
def oldestIndex (s : State) : Nat :=
  match s.en.ring with
  | r :: _ => r.index
  | [] => s.en.opened.index

/-- A fetch of interval `x`: RD_STAT and the record (R233). -/
def fetchInterval (s : State) (x : Nat) : Nat × List Nat :=
  if s.en.opened.index ≤ x then (2, List.replicate 64 0)
  else
    match s.en.ring.find? (·.index == x) with
    | some r => if r.ready then (0, leWords (recordBytes r) 64) else (2, List.replicate 64 0)
    | none => (1, List.replicate 64 0)

/-! ### The commands of the chapter -/

/-- The correction step of this microsecond has run: the energy of every step before it is accounted (R215). -/
def stepAccounted (s : State) : Bool := s.we.lastStep.any fun t => t / 1000 == s.ck.dt / 1000

/-- INTERVAL_CLOSE (R225, R226): at the start of the present correction step, once the steps before it are accounted. -/
def execIntervalClose (s : State) : Host.Outcome State Fault Refusal :=
  .next (if protRuns s && stepAccounted s && decide (s.en.opened.dtOpen < stepStart s.ck.dt) && closeDue s (stepStart s.ck.dt) then
      closeInterval (stepStart s.ck.dt) s
    else s)

/-- The record of index `x` is that of the CLOSE_NOW in execution: the newest one with MANUAL, and no MANUAL trigger waits. -/
def answersCloseNow (s : State) (x : Nat) : Bool :=
  (s.en.ring.filter fun r => bitAt r.flags 4).getLast?.any (·.index == x) && !(s.en.triggers.any (·.1 == 4))

/-- INTERVAL_RECORD_READY (R233): the oldest closed record that is not yet readable; CLOSE_NOW ends with it (R235). -/
def execIntervalRecordReady (s : State) : Host.Outcome State Fault Refusal :=
  .next (match s.en.ring.find? (fun r => !r.ready) with
    | none => s
    | some r =>
      let s := { s with en := { s.en with ring := s.en.ring.map fun x => if x.index = r.index then { x with ready := true } else x } }
      let s := irqPulse energyPage 8 s
      if answersCloseNow s r.index then endCmd energyPage Code.ok s else s)

/-- ENERGY_CHECKPOINT (R229), as of the start of the present correction step, which DT_CLOSE may become (R225). -/
def execEnergyCheckpoint (s : State) : Host.Outcome State Fault Refusal :=
  .next (if protRuns s && duePeriod 1000000000 (s.en.saved.map (·.dt)) s then
    { s with en := { s.en with saved := some { dt := max s.en.opened.dtOpen (stepStart s.ck.dt), acc := s.en.acc, opened := s.en.opened } } } else s)

/-- The effect of CLOSE_NOW: MANUAL falls as a trigger (R226, R235). -/
def closeNowEffect (r : Req) (s : State) : State :=
  if r.arg = 0 then closeTrigger 4 s
  else endCmd energyPage Code.badArg s

/-- CLOSE_NOW (R235). -/
def execCloseNow (r : Req) (s : State) : Host.Outcome State Fault Refusal :=
  .next (command energyPage 0x01 r (closeNowEffect r) s)

/-- The fetch on the energy page (R234). -/
def fetchEnergy (c : Client) (hi : Nat) (s : State) : State :=
  let s := rsetC c energyPage Reg.energy.RD_INDEX_HI hi s
  let x := fetchInterval s (hi % 2 ^ 32 * 2 ^ 32 + rgetC s c energyPage Reg.energy.RD_INDEX_LO)
  rsetCs c energyPage Reg.energy.RD_REC x.2 (rsetC c energyPage Reg.energy.RD_STAT x.1 s)

/-- The fetch on tenant t's energy page: bytes 0x00–0x37 and TENANTt (R236). -/
def fetchTenant (c : Client) (p : Page) (hi : Nat) (s : State) : State :=
  let s := rsetC c p Reg.tenantEnergy.RD_INDEX_HI hi s
  let x := fetchInterval s (hi % 2 ^ 32 * 2 ^ 32 + rgetC s c p Reg.tenantEnergy.RD_INDEX_LO)
  let ws := x.2.take 14 ++ (x.2.drop (16 + 2 * p.inst)).take 2
  rsetCs c p Reg.tenantEnergy.RD_T ws (rsetC c p Reg.tenantEnergy.RD_STAT x.1 s)

/-- ENERGY_RECORD_FETCH (R233): a write to RD_INDEX_HI of the energy page or of a tenant's energy page. -/
def execEnergyRecordFetch (c : Client) (p : Page) (hi : Word) (s : State) : Host.Outcome State Fault Refusal :=
  .next (match p.blk with
    | .energy => inOrder c energyPage (.write 0x064 hi.toNat) (blockWrite c energyPage 0x064 (fetchEnergy c hi.toNat)) s
    | .tenantEnergy => inOrder c p (.write 0x05C hi.toNat) (blockWrite c p 0x05C (fetchTenant c p hi.toNat)) s
    | _ => s)

end Sys2Proof.Machine
end

