-- ==== Sys2Proof/Machine/Identity.lean ====
section
/-! DEFINITION. What the fuses of one device hold within the forms of the spec: V/F tables (R237) and identity records (R174). -/

namespace Sys2Proof.Machine

/-- A V/F entry: a setting 0–56, or 63 (R237). -/
def vfEntry (x : Nat) : Nat := if x % 58 = 57 then 63 else x % 58

/-- The fused V/F entry of core g at point p; at point 7 at least 32 (R237; log entry 10). -/
def fusedVf (g p : Nat) : Nat := if p = 7 then 32 + Config.fusedVf g p % 25 else vfEntry (Config.fusedVf g p)

/-- The bytes of compute die d's fused V/F table, core by core. -/
def vfTable (d : Nat) : List Byte :=
  (List.range 16).flatMap fun c => (List.range 8).map fun p => BitVec.ofNat 8 (fusedVf (16 * d + c) p)

/-- DIE_TYPE: compute, hub or power stage (R174). -/
def dieType (d : Nat) : Nat := if d ≤ 11 then 1 else if d = 12 then 2 else 3

/-- LOT: seven characters of six bits, with the codes 0–36 (R174). -/
def lotOf (x : Nat) : Nat := ((List.range 7).map fun i => x / 64 ^ i % 37 * 64 ^ i).foldl (· + ·) 0

/-- The 224 bits of die d's identity record below REC_CRC: this device's own values in the fields that R174 leaves to the die. -/
def idFields (d : Nat) : Nat :=
  let own := ((List.range 8).map fun w => (Config.idRecord d w).toNat * 2 ^ (32 * w)).foldl (· + ·) 0
  lotOf own + (1 + own / 2 ^ 42 % 32 % 25) * 2 ^ 42 + own / 2 ^ 47 % 2 ^ 16 * 2 ^ 47 + dieType d * 2 ^ 63
    + own / 2 ^ 67 % 2 ^ 24 * 2 ^ 67 + (decide (d ≤ 11)).toNat * 2 ^ 91
    + (if d ≤ 11 then (Config.tableCrc (vfTable d)).toNat else own / 2 ^ 92 % 2 ^ 16) * 2 ^ 92

/-- Word w of die d's identity record (R174). A record whose fuses no longer hold what was programmed is whatever it reads. -/
def idWord (d w : Nat) : Nat :=
  if !Config.idIntact d then (Config.idRecord d w).toNat
  else if w < 7 then idFields d / 2 ^ (32 * w) % 2 ^ 32
  else crc32 (leBytes 28 (idFields d))

end Sys2Proof.Machine
end

