-- ==== Sys2Proof/Machine/Vf.lean ====
section
/-! DEFINITION. Chapter 09: certified tables, regimes, core settings and rails (R237–R243). -/

namespace Sys2Proof.Machine

/-- Core `g` serves a job (R290). -/
def coreAssigned (s : State) (g : Nat) : Bool := rbit s (corePage .core g) Reg.core.SLOT_VALID

def freqPage (d : Nat) : Page := pageOf .dieFreq 0 d

/-! ### Certified tables (R237–R240) -/

/-- The certified entry of core `g` at point `p`. -/
def cert (s : State) (g p : Nat) : Nat := Assoc.getD s.fq.copyA (g, p) (fusedVf g p)

/-- The order of R238: code 63 stands for −1. -/
def vfOrd (v : Nat) : Int := if v = 63 then -1 else v

/-- The voltage code of each point (Figures). -/
def pointCode (p : Nat) : Nat := ([0, 10, 20, 30, 40, 50, 55, 60] : List Nat).getD p 60

/-- A core whose entry at point 7 is 63 is retired (R240). -/
def retired (s : State) (g : Nat) : Bool := cert s g 7 == 63

/-- The reserved role of core `g` is in use: the site channel's pipeline runs, its results in force or not (R30, R540; log
entry 113). -/
def reservedInUse (s : State) (g : Nat) : Bool :=
  (g == 0 || g == 96) && decide (2 ≤ rget s (hubPage .siteChannel) Reg.siteChannel.STATE)

/-- Core `g` runs: it serves a job or its reserved role, and is not retired (R241). -/
def coreRuns (s : State) (g : Nat) : Bool := (coreAssigned s g || reservedInUse s g) && !retired s g

/-- N_NOW of core `g`, and REGIME: RETIRED where the table says so (R240). -/
def nNow (s : State) (g : Nat) : Nat := rget s (freqPage (g / 16)) Reg.dieFreq.N_NOW (g % 16)
def regime (s : State) (g : Nat) : Nat := if retired s g then 3 else rget s (freqPage (g / 16)) Reg.dieFreq.REGIME (g % 16)
def setRegime (g v : Nat) (s : State) : State := rset (freqPage (g / 16)) Reg.dieFreq.REGIME v s (g % 16)
def setN (g n : Nat) (s : State) : State := rset (freqPage (g / 16)) Reg.dieFreq.N_NOW n s (g % 16)

/-- The NOMINAL setting: min(32, certified entry at point 7) (R241). -/
def nominalN (s : State) (g : Nat) : Nat := min 32 (vfOrd (cert s g 7)).toNat

/-- The four cores of quadrant `x` (4·die + q). -/
def quadCores (x : Nat) : List Nat := (List.range 4).map fun i => 4 * x + i

/-- The lowest point whose certified entry is at least `n`, as its voltage code (R242). -/
def requiredCode (s : State) (g n : Nat) : Nat :=
  match (List.range 8).find? fun p => decide ((n : Int) ≤ vfOrd (cert s g p)) with
  | some p => pointCode p
  | none => 60

/-- A CANAL core holds the quadrant (R242). -/
def canalQuad (s : State) (x : Nat) : Bool := (quadCores x).any fun g => coreRuns s g && regime s g == 2

/-- The settings that core `g` runs at or goes to: a rise in wait of its rail, a change of its synthesizer, and, while its clock runs,
the present one, which a fall leaves last (R243). -/
def settingsOf (s : State) (g : Nat) : List Nat :=
  (Assoc.get s.fq.afterRail g).toList ++ (Assoc.get s.fq.relock g).toList ++ (if coreRuns s g then [nNow s g] else [])

/-- k(q): the highest code its running cores need (R242). -/
def quadCode (s : State) (x : Nat) : Nat :=
  if canalQuad s x then 30
  else ((quadCores x).flatMap fun g => (settingsOf s g).map (requiredCode s g)).foldl max 0

/-- The quadrant's rail starts toward code `k`, unless it stands there. K_NOW keeps the higher of where it may come from (R243). -/
def railTo (x k : Nat) (s : State) : State :=
  let now := rget s (freqPage (x / 4)) Reg.dieFreq.K_NOW (x % 4)
  let moving := Assoc.get s.fq.rail x
  if moving.isNone ∧ now = k then s
  else rset (freqPage (x / 4)) Reg.dieFreq.K_NOW (max now (moving.getD 0)) { s with fq := { s.fq with rail := Assoc.set s.fq.rail x k } } (x % 4)

/-- The quadrant's rail follows its running cores (R242). -/
def railFollows (x : Nat) (s : State) : State := railTo x (quadCode s x) s

/-- The rail of quadrant `x` stands at code `k` or above. -/
def railHolds (s : State) (x k : Nat) : Bool :=
  (Assoc.get s.fq.rail x).isNone && decide (k ≤ rget s (freqPage (x / 4)) Reg.dieFreq.K_NOW (x % 4))

/-- The highest setting of core `g` up to `n`: in a CANAL quadrant no core runs above its entry at point 3 (R242). -/
def quadCap (s : State) (g n : Nat) : Nat := if canalQuad s (g / 4) then min n (vfOrd (cert s g 3)).toNat else n

/-- The synthesizer of core `g` starts to relock at `n` (R132). -/
def relockTo (g n : Nat) (s : State) : State := { s with fq := { s.fq with relock := Assoc.set s.fq.relock g n } }

/-- Core `g` goes to setting `n`: a rise waits for its rail, a fall relocks first (R243). -/
def setFreq (g n : Nat) (s : State) : State :=
  let n := quadCap s g n
  let rest := s.fq.afterRail.filter (·.1 ≠ g)
  let s := { s with fq := { s.fq with afterRail := Assoc.set rest g n } }
  if railHolds s (g / 4) (quadCode s (g / 4)) then relockTo g n { s with fq := { s.fq with afterRail := rest } }
  else railFollows (g / 4) s

/-- The clock of core `g` stops, and the rail follows the rest of its quadrant (R241, R242). DESIGN CHOICE (log entry 113): N_NOW of a
stopped core reads 0. -/
def stopClock (g : Nat) (s : State) : State :=
  let s := { s with fq := { s.fq with relock := s.fq.relock.filter (·.1 ≠ g), afterRail := s.fq.afterRail.filter (·.1 ≠ g) } }
  railFollows (g / 4) (setN g 0 s)

/-- cost(n, k) at the 48.0 V reference, mA-in (R291). -/
def coreCost (n k : Nat) : Nat := (44 * cyclesPerEpoch n * 10 / 1152 * kv k / 16384 : Rat).ceil.toNat

/-- A core's setting, or the one it goes to. -/
def nTarget (s : State) (g : Nat) : Nat := Assoc.getD s.fq.afterRail g (Assoc.getD s.fq.relock g (nNow s g))

/-- The settings below NOMINAL, or without a boost, that a CANAL core's quadrant has held down rise again (R241, R242). -/
def liftCaps (x : Nat) (s : State) : State :=
  (quadCores x).foldl (fun s g =>
    if coreRuns s g && regime s g ≠ 2 && decide (nTarget s g < quadCap s g (nominalN s g)) then setFreq g (nominalN s g) s else s) s

/-- A measurement of a quadrant stops within 10 µs and its rail follows its cores (R251). A MEASURE ends with ABORTED, and the other
quadrants it named are no longer measured for it. -/
def abortMeas (x : Nat) (s : State) : State :=
  match s.fq.meas.find? fun m => 4 * m.die + m.q == x with
  | none => s
  | some m =>
    let ends := s.fq.meas.filter fun y => 4 * y.die + y.q == x || (m.byCmd && y.byCmd && y.die == m.die)
    let s := { s with fq := { s.fq with meas := s.fq.meas.filter fun y => !ends.contains y } }
    let s := ends.foldl (fun s y => railFollows (4 * y.die + y.q) s) s
    if m.byCmd then endCmd (freqPage m.die) Code.aborted s else s

/-! ### Stretching (R256) -/

/-- The cycles of a stretch between two device times: core cycles of setting n, lengthened by 25 % or 50 %, from the second cycle after
detection on. -/
def stretchCycles (s : State) (x : Droop) : Nat :=
  let f : Rat := cyclesPerEpoch (nNow s x.core) / 64
  let long : Rat := if rbit s (freqPage (x.core / 16)) Reg.dieFreq.DROOP_STRETCH then 3 / 2 else 5 / 4
  let first : Rat := if x.counted = x.since then 1 else 0
  (((s.ck.dt - x.counted : Nat) * f - first) / long).floor.toNat

/-- DROOP_CYC of core `g`, the cycles of a stretch under way included (R256). -/
def droopCycles (s : State) (g : Nat) : Nat :=
  (rget s (freqPage (g / 16)) Reg.dieFreq.DROOP_CYC (g % 16)
    + (match s.fq.droop.find? (·.core == g) with
       | some x => stretchCycles s x
       | none => 0)) % 2 ^ 64

/-- The cycles stretched so far go into the counter, before the core's clock changes or its stretch ends. -/
def bankStretch (g : Nat) (s : State) : State :=
  let s' := rset (freqPage (g / 16)) Reg.dieFreq.DROOP_CYC (droopCycles s g) s (g % 16)
  { s' with fq := { s'.fq with droop := s'.fq.droop.map fun x => if x.core = g then { x with counted := s.ck.dt } else x } }

end Sys2Proof.Machine
end

