-- ==== Sys2Proof/Machine/Ram.lean ====
section
/-! DEFINITION. Core SRAM, die-shared SRAM and stacked memory as the machine reads and writes them: bytes, error
words and sectors, and the counts of R288 and R394–R399. -/

namespace Sys2Proof.Machine

/-- What an unlisted byte of SRAM and of stacked memory reads as (log entry 4). -/
def ramByte : Byte := 0x00

def coreSize : Nat := 3 * 2 ^ 20
def dieSramSize : Nat := 32 * 2 ^ 20
def granuleSize : Nat := 2 ^ 21
def stackGranules : Nat := 18432
def allGranules : Nat := 110592

/-! ### Blocks of check bits -/

/-- The blocks of `k` bytes that [a, a + n) touches. -/
def blocksOf (k a n : Nat) : List Nat :=
  if n = 0 then [] else (List.range ((a + n - 1) / k + 1 - a / k)).map (a / k + ·)

/-- Block `b` of `k` bytes lies wholly in [a, a + n). -/
def blockIn (k a n b : Nat) : Bool := decide (a ≤ k * b ∧ k * (b + 1) ≤ a + n)

/-- Block `b` of `k` bytes meets [a, a + n). -/
def blockMeets (k a n b : Nat) : Bool := decide (a < k * (b + 1) ∧ k * b < a + n)

/-- The poisoned blocks after a write to [a, a + n) that carries poison in the blocks `p`: a whole block is fresh, a
partly written one keeps its error (R288, R395). -/
def badAfter (k a n : Nat) (p bad : List Nat) : List Nat :=
  (bad.filter fun b => !blockIn k a n b) ++ p.filter fun b => !(bad.any fun x => x == b && !blockIn k a n x)

/-- The blocks with a correctable error after a write: every touched block is written back corrected. -/
def softAfter (k a n : Nat) (soft : List Nat) : List Nat := soft.filter fun b => !blockMeets k a n b

/-- Correctable blocks that a write merges into, and so corrects. -/
def merged (k a n : Nat) (soft : List Nat) : Nat := (soft.filter fun b => blockMeets k a n b && !blockIn k a n b).length

/-! ### Core SRAM -/

/-- The place of byte `a` of core `g`. -/
def coreAt (g a : Nat) : Nat := g * 2 ^ 22 + a

/-- A read of core SRAM: the data, and the 64-bit words (by byte offset / 8 within the core) that deliver poison. -/
def coreRead (s : State) (g a n : Nat) : List Byte × List Nat :=
  (Mem.readN ramByte s.co.sram (coreAt g a) n,
   (s.co.sramBad.filter (blockMeets 8 (coreAt g a) n)).map (· - coreAt g 0 / 8))

/-- The counts of a core-SRAM read (R288, R290). -/
def coreReadCounts (g a n : Nat) (s : State) : State :=
  let p := corePage .core g
  radd p Reg.core.SRAM_CORR (s.co.sramSoft.filter (blockMeets 8 (coreAt g a) n)).length
    (radd p Reg.core.SRAM_UNCORR (s.co.sramBad.filter (blockMeets 8 (coreAt g a) n)).length s)

/-- A write of core SRAM; `poison` are the poisoned words by byte offset / 8 within the core (R288). -/
def coreWrite (g a : Nat) (bs : List Byte) (poison : List Nat) (s : State) : State :=
  let x := coreAt g a
  let n := bs.length
  let s := radd (corePage .core g) Reg.core.SRAM_CORR (merged 8 x n s.co.sramSoft) s
  { s with co := { s.co with
      sram := Mem.writeL ramByte s.co.sram x bs
      sramBad := badAfter 8 x n (poison.map (· + coreAt g 0 / 8)) s.co.sramBad
      sramSoft := softAfter 8 x n s.co.sramSoft } }

/-- Core `g`'s SRAM zeroed from byte `a` to its end. -/
def coreZero (g a : Nat) (s : State) : State :=
  let n := coreSize - a
  { s with co := { s.co with
      sram := Mem.forget s.co.sram (coreAt g a) n
      sramBad := s.co.sramBad.filter fun b => !blockIn 8 (coreAt g a) n b
      sramSoft := softAfter 8 (coreAt g a) n s.co.sramSoft } }

/-! ### Die-shared SRAM -/

def dieAt (d a : Nat) : Nat := d * 2 ^ 25 + a

def dieRead (s : State) (d a n : Nat) : List Byte × List Nat :=
  (Mem.readN ramByte s.co.dsram (dieAt d a) n,
   (s.co.dsramBad.filter (blockMeets 8 (dieAt d a) n)).map (· - dieAt d 0 / 8))

/-- `n` errors of die `d`'s shared SRAM corrected, or not correctable (R288); no register shows them (log entry 46). -/
def dieErrors (corr uncorr d : Nat) (s : State) : State :=
  { s with co := { s.co with
      dsramCorr := if corr = 0 then s.co.dsramCorr else Assoc.set s.co.dsramCorr d (Assoc.getD s.co.dsramCorr d 0 + corr)
      dsramUncorr := if uncorr = 0 then s.co.dsramUncorr else Assoc.set s.co.dsramUncorr d (Assoc.getD s.co.dsramUncorr d 0 + uncorr) } }

/-- The counts of a die-SRAM read (R288). -/
def dieReadCounts (d a n : Nat) (s : State) : State :=
  dieErrors (s.co.dsramSoft.filter (blockMeets 8 (dieAt d a) n)).length (s.co.dsramBad.filter (blockMeets 8 (dieAt d a) n)).length d s

/-- A write of die-shared SRAM; `poison` are the poisoned words by byte offset / 8 within the die (R288). -/
def dieWrite (d a : Nat) (bs : List Byte) (poison : List Nat) (s : State) : State :=
  let x := dieAt d a
  let n := bs.length
  let s := dieErrors (merged 8 x n s.co.dsramSoft) 0 d s
  { s with co := { s.co with
      dsram := Mem.writeL ramByte s.co.dsram x bs
      dsramBad := badAfter 8 x n (poison.map (· + dieAt d 0 / 8)) s.co.dsramBad
      dsramSoft := softAfter 8 x n s.co.dsramSoft } }

def dieZero (d a n : Nat) (s : State) : State :=
  { s with co := { s.co with
      dsram := Mem.forget s.co.dsram (dieAt d a) n
      dsramBad := s.co.dsramBad.filter fun b => !blockIn 8 (dieAt d a) n b
      dsramSoft := softAfter 8 (dieAt d a) n s.co.dsramSoft } }

/-! ### The stacks (R387–R399) -/

/-- The stack of a PMA (R388). -/
def stackOf (pma : Nat) : Nat := pma / granuleSize / stackGranules

/-- The pseudo-channel of a PMA within its stack (R389). -/
def pseudoChannel (pma : Nat) : Nat :=
  let b := pma % (stackGranules * granuleSize) / 256
  (b % 32) ^^^ (b / 32 % 32) ^^^ (b / 1024 % 32)

/-- The die whose controller serves a PMA (R389). -/
def ctrlDie (pma : Nat) : Nat := 2 * stackOf pma + (if pseudoChannel pma / 2 < 8 then 0 else 1)

def stackPage (d : Nat) : Page := pageOf .stackCtrl 0 d

/-- The first granule of the host region (R391). -/
def hostBase (s : State) : Nat := allGranules - rget s (stackPage 0) Reg.stackCtrl.HOST_GRANULES

/-- Granule `g` holds poison: it is marked, while the list has room; a full list records a WARN event (R397). -/
def markGranule (g : Nat) (s : State) : State :=
  if s.hbm.marks.any (·.1 == g) then s
  else if s.hbm.marks.length < 512 then
    let s := { s with hbm := { s.hbm with marks := s.hbm.marks ++ [(g, false)] } }
    if s.hbm.marks.length = 512 then raise 0x1001 12 0 g 0 s else s
  else s

/-- One uncorrectable read of the sector at `pma` (R395, R399). -/
def countUe (pma : Nat) (s : State) : State :=
  let p := stackPage (ctrlDie pma)
  irqPulse p 8 (rset p Reg.stackCtrl.LAST_UE pma (radd p Reg.stackCtrl.UE 1 s))

/-- One corrected error at `pma`. -/
def countCe (pma : Nat) (s : State) : State := radd (stackPage (ctrlDie pma)) Reg.stackCtrl.CE 1 s

/-- A read of stacked memory by PMA: the data, and the sectors (PMA / 32) that deliver poison. -/
def stackRead (s : State) (a n : Nat) : List Byte × List Nat :=
  (Mem.readN ramByte s.hbm.data a n, s.hbm.bad.filter (blockMeets 32 a n))

/-- The counts of a stack read (R394, R395). -/
def stackReadCounts (a n : Nat) (s : State) : State :=
  let s := (s.hbm.bad.filter (blockMeets 32 a n)).foldl (fun s b => countUe (32 * b) s) s
  (s.hbm.soft.filter (blockMeets 32 a n)).foldl (fun s b => countCe (32 * b) s) s

/-- A write of stacked memory; `poison` are the sectors that the data poisons (R394, R395, R397). -/
def stackWrite (a : Nat) (bs : List Byte) (poison : List Nat) (s : State) : State :=
  let n := bs.length
  let fix := s.hbm.soft.filter fun b => blockMeets 32 a n b && !blockIn 32 a n b
  let s := fix.foldl (fun s b => countCe (32 * b) s) s
  let s := { s with hbm := { s.hbm with
      data := Mem.writeL ramByte s.hbm.data a bs
      bad := badAfter 32 a n poison s.hbm.bad
      soft := softAfter 32 a n s.hbm.soft } }
  poison.foldl (fun s b => markGranule (32 * b / granuleSize) s) s

/-- Granule `g` zeroed. -/
def zeroGranule (g : Nat) (s : State) : State :=
  { s with hbm := { s.hbm with
      data := Mem.forget s.hbm.data (g * granuleSize) granuleSize
      bad := s.hbm.bad.filter fun b => !blockIn 32 (g * granuleSize) granuleSize b
      soft := softAfter 32 (g * granuleSize) granuleSize s.hbm.soft } }

end Sys2Proof.Machine
end

