-- ==== Sys2Proof/Machine/Fabric.lean ====
section
/-! DEFINITION. The Confluence fabric (R19–R24): where the compute dies lie, what each port joins, the way of a transfer, and the events
that memory accesses and hops count, each under the tag of the request that caused it (R188, R191, R213, R214). -/

namespace Sys2Proof.Machine

/-! ### The mesh (R19–R21) -/

/-- Row and column of compute die `d`: four columns, row 0 nearest the hub (R19). -/
def meshRow (d : Nat) : Nat := d / 4
def meshCol (d : Nat) : Nat := d % 4

/-- The die at a mesh position. -/
def meshDie (row col : Nat) : Nat := 4 * row + col

/-- What a fabric port joins (R21). -/
inductive PortLink where
  | die (d : Nat)
  | hubLane (n : Nat)
  | nerius (p : Nat)
  | unconnected
deriving DecidableEq, Repr

/-- Port 0 north, 1 east, 2 south, 3 west of die `d`: inward to the adjacent die, outward as the table of R21 says. -/
def portLink (d port : Nat) : PortLink :=
  match port with
  | 0 => if 0 < meshRow d then .die (d - 4) else if d = 1 then .hubLane 0 else if d = 2 then .hubLane 1 else .unconnected
  | 1 => if meshCol d < 3 then .die (d + 1) else if d = 3 then .nerius 1 else if d = 11 then .nerius 3 else .unconnected
  | 2 => if meshRow d < 2 then .die (d + 4) else .unconnected
  | 3 => if 0 < meshCol d then .die (d - 1) else if d = 0 then .nerius 0 else if d = 8 then .nerius 2 else .unconnected
  | _ => .unconnected

/-- A port that joins something is powered with its transit domain; an unconnected one is power-gated at all times (R21). -/
def portPowered (s : State) (d port : Nat) : Bool := transitOn s && decide (portLink d port ≠ .unconnected)

/-! ### The way of a transfer (R22) -/

/-- The dies from `x` toward column `c` of its row, `x` itself left out; `n` bounds their number. -/
def alongRow : Nat → Nat → Nat → List Nat
  | 0, _, _ => []
  | n + 1, x, c =>
    if meshCol x < c then (x + 1) :: alongRow n (x + 1) c
    else if c < meshCol x then (x - 1) :: alongRow n (x - 1) c
    else []

/-- The dies from `x` toward row `r` of its column, `x` itself left out. -/
def alongColumn : Nat → Nat → Nat → List Nat
  | 0, _, _ => []
  | n + 1, x, r =>
    if meshRow x < r then (x + 4) :: alongColumn n (x + 4) r
    else if r < meshRow x then (x - 4) :: alongColumn n (x - 4) r
    else []

/-- The dies that a transfer from `a` to `b` enters: along the row to the destination's column, then along that column. -/
def route (a b : Nat) : List Nat := alongRow 3 a (meshCol b) ++ alongColumn 2 (meshDie (meshRow a) (meshCol b)) (meshRow b)

/-- The hops of a transfer. -/
def hops (a b : Nat) : Nat := (route a b).length

/-- The two buffer classes (R22). -/
inductive FabricClass where
  | request | response
deriving DecidableEq, Repr

/-- A transfer over the fabric. -/
structure Transfer where
  src   : Nat
  dst   : Nat
  cls   : FabricClass
  bytes : Nat
deriving DecidableEq, Repr

/-- A write of `n` bytes from die `a` to die `b`: the data travels with the request. -/
def writeLegs (a b n : Nat) : List Transfer := [{ src := a, dst := b, cls := .request, bytes := n }, { src := b, dst := a, cls := .response, bytes := 0 }]

/-- A read of `n` bytes by die `a` at die `b`: the data travels with the response. -/
def readLegs (a b n : Nat) : List Transfer := [{ src := a, dst := b, cls := .request, bytes := 0 }, { src := b, dst := a, cls := .response, bytes := n }]

/-- The die by which a host access enters the fabric (R21, R24). DESIGN CHOICE (log entry 115): the lane nearer to the destination, lane 0
where both are as near. -/
def hostEntry (dst : Nat) : Nat := if hops 2 dst < hops 1 dst then 2 else 1

/-! ### Counting (R188, R191, R213) -/

/-- `n` events of class `cls` in quadrant `q` of die `d`: into the die's counter, and toward the next correction step under `tag`. -/
def countAt (d q cls n : Nat) (tag : Tag) (s : State) : State :=
  if n = 0 then s
  else
    let s := rwrap (pageOf .dieModel 0 d) Reg.dieModel.CNT n s cls
    let i : Increment := { die := Fin.ofNat 12 d, quad := Fin.ofNat 4 q, cls := Fin.ofNat 18 cls, count := n, tag := tag }
    { s with en := { s.en with counted := s.en.counted ++ [i] } }

/-- `n` events of class `cls` at core `g`, under the tag that the core carries now (R213, R214, R268, R307, R310, R311). -/
def countCore (g cls n : Nat) (s : State) : State := countAt (g / 16) (g % 16 / 4) cls n (coreTag s g) s

/-- Scrub accesses of die `d`, billed to SITE (R214, R396). -/
def countScrub (d n : Nat) (s : State) : State := countAt d 0 15 n .site s

/-- The 64-byte units that [a, a + n) touches. -/
def units64 (a n : Nat) : Nat := if n = 0 then 0 else (a + n - 1) / 64 + 1 - a / 64

/-- A transfer's hops, one event for each 64 bytes of its data at each die that it leaves (class 13). -/
def countLeg (tag : Tag) (s : State) (t : Transfer) : State :=
  ((t.src :: route t.src t.dst).dropLast).foldl (fun s d => countAt d 0 13 ((t.bytes + 63) / 64) tag s) s

def countLegs (tag : Tag) (ts : List Transfer) (s : State) : State := ts.foldl (countLeg tag) s

/-- Who makes an access: the die by which it enters the fabric, the tag it carries, and whether it is a core, which reaches the
controllers of its own pair without the fabric (R389). -/
structure Requester where
  die  : Nat
  tag  : Tag
  core : Bool
deriving DecidableEq, Repr

/-- Core `g` as a requester (R214). -/
def coreReq (s : State) (g : Nat) : Requester := { die := g / 16, tag := coreTag s g, core := true }

/-- PCIe function `f` as a requester toward die `d` (R214, R24). -/
def hostReq (f d : Nat) : Requester := { die := hostEntry d, tag := .func (Fin.ofNat 16 f), core := false }

/-- A frame that arrived at Nerius port `p` for slot `j` as a requester (R214). -/
def frameReq (p j : Nat) : Requester := { die := neriusDie p, tag := .slot (Fin.ofNat 32 j), core := false }

/-- The pieces of [a, a + n) by 256-byte block, which no access crosses (R389, R393). -/
def blocks256 (a n : Nat) : List (Nat × Nat) :=
  (blocksOf 256 a n).map fun b => (max a (256 * b), min (a + n) (256 * (b + 1)) - max a (256 * b))

/-- The events of an access to stacked memory, piece by piece: class 15 or 16 at the controller's die, and the hops to it. -/
def countStack (r : Nat → Requester) (write : Bool) (a n : Nat) (s : State) : State :=
  (blocks256 a n).foldl (fun s x =>
    let d := ctrlDie x.1
    let q := r d
    let s := countAt d 0 (if write then 16 else 15) (units64 x.1 x.2) q.tag s
    if q.core && q.die / 2 == d / 2 then s
    else countLegs q.tag (if write then writeLegs q.die d x.2 else readLegs q.die d x.2) s) s

/-- The events of an access to the shared SRAM of die `d`: class 10 or 11, and the hops to it. -/
def countDie (r : Requester) (write : Bool) (d a n : Nat) (s : State) : State :=
  countLegs r.tag (if write then writeLegs r.die d n else readLegs r.die d n)
    (countAt d 0 (if write then 11 else 10) (units64 a n) r.tag s)

/-- The events of an access to core `g`'s SRAM: class 8 or 9, and the hops to its die. -/
def countCoreMem (r : Requester) (write : Bool) (g a n : Nat) (s : State) : State :=
  countLegs r.tag (if write then writeLegs r.die (g / 16) n else readLegs r.die (g / 16) n)
    (countAt (g / 16) (g % 16 / 4) (if write then 9 else 8) (units64 a n) r.tag s)

/-- A sync operation on object `n`'s die by a requester: one event of class 14 there, and one 64-byte unit for each hop of its message
(R23, R188). Objects of the hub are reached over the spine. -/
def countSync (r : Requester) (d : Nat) (s : State) : State :=
  if 12 ≤ d then s else countLegs r.tag (writeLegs r.die d 1) (countAt d 0 14 1 r.tag s)

end Sys2Proof.Machine
end

