-- ==== Sys2Proof/Machine/SyncOps.lean ====
section
/-! DEFINITION. Sync objects: where they live, how an update changes them, whom it releases (R317–R325). -/

namespace Sys2Proof.Machine

/-! ### Numbering (R317) -/

def objDie (n : Nat) : Nat := if n < 49152 then n / 4096 else 12
def objIndex (n : Nat) : Nat := if n < 49152 then n % 4096 else n - 49152
def objBank (n : Nat) : Page := pageOf .syncBank (objIndex n / (if n < 49152 then 1024 else 4096)) (objDie n)
def objPage (n : Nat) : Page := pageOf .objectPage (objIndex n / 256) (objDie n)

/-- The object at slot `i` of an object page. -/
def objAt (p : Page) (i : Nat) : Nat := (if p.die ≤ 11 then 4096 * p.die else 49152) + 256 * p.inst + i

/-- CTRL and COUNT (R318, R320). -/
def objGet (s : State) (n : Nat) : Nat × Nat := Assoc.getD s.sy.objs n (0, 0)

/-- CTRL fields (R318). -/
def ctrlType (c : Nat) : Nat := c % 4
def ctrlOwner (c : Nat) : Nat := bitsOf c 2 5
def ctrlPair (c : Nat) : Bool := bitAt c 7
def ctrlParties (c : Nat) : Nat := bitsOf c 8 12
def ctrlNotify (c : Nat) : Bool := bitAt c 20
def ctrlNshift (c : Nat) : Nat := bitsOf c 21 5
def ctrlHostSet (c : Nat) : Bool := bitAt c 31

/-- An object written as the admission unit writes it; FREE objects are not listed (R319, R320). -/
def objWrite (n ctrl count : Nat) (s : State) : State :=
  let objs :=
    if ctrlType ctrl = 0 then s.sy.objs.filter (·.1 ≠ n) else Assoc.set s.sy.objs n (ctrl % 2 ^ 32, count % 2 ^ 32)
  { s with sy := { s.sy with objs := objs } }

/-- Objects back to FREE with COUNT 0. -/
def objsFree (p : Nat → Bool) (s : State) : State :=
  { s with sy := { s.sy with objs := s.sy.objs.filter fun x => !p x.1 } }

/-! ### WAIT conditions (R322) -/

/-- A WAIT for `v` holds on (CTRL, COUNT). -/
def waitHolds (x : Nat × Nat) (v : Nat) : Bool :=
  match ctrlType x.1 with
  | 1 => decide ((x.2 + 2 ^ 32 - v % 2 ^ 32) % 2 ^ 32 < 2 ^ 31)
  | 2 => x.2 == (decide (v ≠ 0)).toNat
  | 3 => decide ((x.2 / 4096 + 2 ^ 20 - v % 2 ^ 20) % 2 ^ 20 < 2 ^ 19)
  | _ => false

/-! ### Cores that wait -/

def seqPage (g : Nat) : Page := corePage .sequencer g

/-- A grant of zero on core `g`'s page (R202). -/
def coreStalled (s : State) (g : Nat) : Bool := decide ((hget s (corePage .core g)).grant = 0)

/-- Core `g`'s quadrant is in retention, with its clocks stopped until a wake has completed (R201). -/
def inRetention (s : State) (g : Nat) : Bool := s.we.retained.contains (g / 4) || s.we.waking.any (·.1 == g / 4)

/-- STATE: 0 IDLE, 1 RUNNING, 2 WAITING, 3 STALLED (running without a grant), 4 ENDED, 5 ERROR (R202, R316). -/
def seqState (s : State) (g : Nat) : Nat :=
  let v := rget s (seqPage g) Reg.sequencer.STATE
  if v = 1 ∧ coreStalled s g = true then 3 else v
def setSeq (g v : Nat) (s : State) : State := rset (seqPage g) Reg.sequencer.STATE v s

def coreRun (s : State) (g : Nat) : CoreRun := Assoc.getD s.co.run g {}
def setRun (g : Nat) (r : CoreRun) (s : State) : State := { s with co := { s.co with run := Assoc.set s.co.run g r } }

/-- A core goes on (R316). -/
def seqResume (g : Nat) (s : State) : State := setSeq g 1 s

/-- One descriptor of core `g` completes (R316). -/
def retire (g : Nat) (s : State) : State := rwrap (seqPage g) Reg.sequencer.RETIRED 1 s

/-- Every waiter on object `n` whose condition holds is released (R323). -/
def releaseWaiters (n : Nat) (s : State) : State :=
  let x := objGet s n
  let go := s.sy.waiters.filter fun w => w.obj == n && waitHolds x w.value
  go.foldl (fun s w => retire w.core (seqResume w.core s))
    { s with sy := { s.sy with waiters := s.sy.waiters.filter fun w => !(w.obj == n && waitHolds x w.value) } }

/-! ### Updates (R321, R325) -/

/-! #### Window pages (R334): the object pages of VF t, view j, window w -/

/-- The page of a window: instance 256 + 30·j + w, under the number 16 + t of its function. -/
def winPage (t j w : Nat) : Page := { blk := .objectPage, inst := 256 + 30 * j + w, die := 16 + t }

/-- The physical object at slot `i` of a window; none where the job does not use the number. -/
def winObj (s : State) (t j w i : Nat) : Option Nat :=
  match s.views.find? fun v => v.2 == (t, j) with
  | some v => ((Assoc.getD s.jb.slots v.1 {}).objs.find? fun o => o.1 == 256 * w + i).map (·.2)
  | none => none

/-- The physical object in slot `i` of an object page of the directory, or of a VF's window page (R334). -/
def pageObj (s : State) (p : Page) (i : Nat) : Option Nat :=
  if p.blk ≠ .objectPage then none
  else if 16 ≤ p.die then winObj s (p.die - 16) ((p.inst - 256) / 30) ((p.inst - 256) % 30) i
  else if (p.die ≤ 11 ∧ p.inst < 16) ∨ (p.die = 12 ∧ p.inst < 64) then some (objAt p i)
  else none

/-- The windows that show object `n`, with its slot there. -/
def windowsOf (s : State) (n : Nat) : List (Nat × Nat × Nat × Nat) :=
  s.views.flatMap fun v =>
    if v.2.1 = 0 then []
    else ((Assoc.getD s.jb.slots v.1 {}).objs.filter fun o => o.2 == n).map fun o => (v.2.1, v.2.2, o.1 / 256, o.1 % 256)

/-- The notify bit of object `n` (R325, R343). -/
def notifyBit (s : State) (n : Nat) : Bool :=
  let i := objIndex n % 256
  bitAt (rget s (objPage n) Reg.objectPage.NOTIFY_PEND (i / 32)) (i % 32)

/-- A notify bit of the object page is set. -/
def anyNotify (s : State) (p : Page) : Bool := (List.range 8).any fun w => rget s p Reg.objectPage.NOTIFY_PEND w != 0

/-- A notify bit of a window is set. -/
def winNotify (s : State) (t j w : Nat) : Bool := (List.range 256).any fun i =>
  match winObj s t j w i with
  | some n => notifyBit s n
  | none => false

/-- The NOTIFY sources of object `n`'s page and windows follow their bits (R325). -/
def notifyLevels (n : Nat) (s : State) : State :=
  let s := irqLevel (objPage n) 8 (anyNotify s (objPage n)) s
  (windowsOf s n).foldl (fun s x => irqLevel (winPage x.1 x.2.1 x.2.2.1) 8 (winNotify s x.1 x.2.1 x.2.2.1) s) s

/-- The notify bit of object `n` set or cleared. -/
def setNotify (n : Nat) (on : Bool) (s : State) : State :=
  let p := objPage n
  let i := objIndex n % 256
  rset p Reg.objectPage.NOTIFY_PEND (putBit (rget s p Reg.objectPage.NOTIFY_PEND (i / 32)) (i % 32) on) s (i / 32)

/-- A notification of object `n` (R325). -/
def notify (n : Nat) (s : State) : State := notifyLevels n (setNotify n true s)

/-- The update that changes COUNT from `a` to `b` meets the notify condition of its type (R325). -/
def notifies (ctrl a b : Nat) : Bool :=
  ctrlNotify ctrl &&
    (match ctrlType ctrl with
     | 1 => decide (a / 2 ^ ctrlNshift ctrl ≠ b / 2 ^ ctrlNshift ctrl)
     | 2 => decide (a ≠ b)
     | 3 => decide (a / 4096 ≠ b / 4096)
     | _ => false)

/-- COUNT of object `n` becomes `v`: notification and releases follow (R323, R325). -/
def objUpdate (n v : Nat) (s : State) : State :=
  let x := objGet s n
  let s' := objWrite n x.1 v s
  releaseWaiters n (if notifies x.1 x.2 (v % 2 ^ 32) then notify n s' else s')

/-- COUNT after a SIGNAL (R321): add or arrive, set. -/
def signalled (ctrl count : Nat) (set : Bool) (v : Nat) : Nat :=
  match ctrlType ctrl with
  | 1 => if set then v % 2 ^ 32 else (count + v) % 2 ^ 32
  | 2 => (decide (v ≠ 0)).toNat
  | 3 =>
    let arrived := count % 4096 + 1
    if arrived = ctrlParties ctrl + 1 then (count / 4096 + 1) % 2 ^ 20 * 4096 else count / 4096 * 4096 + arrived % 4096
  | _ => count

/-- A SIGNAL, an arrival or a FetchAdd performed on physical object `n`; a FREE object discards it and its page
records BAD_ARG (R320, R321). -/
def objSignal (n : Nat) (set : Bool) (v : Nat) (s : State) : State :=
  let x := objGet s n
  if ctrlType x.1 = 0 then pgErr (objPage n) Code.badArg s
  else
    let carry := decide (ctrlType x.1 = 1) && ctrlPair x.1 && !set && decide (2 ^ 32 ≤ x.2 + v % 2 ^ 32)
    let s := objUpdate n (signalled x.1 x.2 set v) s
    if carry && decide (ctrlType (objGet s (n + 1)).1 = 1) then
      objUpdate (n + 1) ((objGet s (n + 1)).2 + 1) s
    else s

/-- The combinations of TYPE, ACT and VALUE that a SIGNAL may have (R321). -/
def signalAllowed (ctrl : Nat) (set : Bool) (v : Nat) : Bool :=
  match ctrlType ctrl with
  | 1 => true
  | 2 => true
  | 3 => !set && decide (v = 1)
  | _ => false

/-! ### Banks (R338–R342) -/

/-- The page of a bank or object page belongs to a bank that takes requests: powered, and in neither drain nor reset. -/
def bankOpen (s : State) (b : Page) : Bool := !offline s b && !draining s b

/-- Object `n` lies in bank `b`. -/
def inBank (b : Page) (n : Nat) : Bool := decide (objBank n = b)

/-- Registered waiters of bank `b`: WAITERS. -/
def bankWaiters (s : State) (b : Page) : List Waiter := s.sy.waiters.filter fun w => inBank b w.obj

/-- The bank ends its drain or reset: its objects are FREE and EPOCH advances (R339, R342). -/
def bankEnd (b : Page) (s : State) : State :=
  rwrap b Reg.syncBank.EPOCH 1 (objsFree (inBank b) s)

/-- A die's banks lose their objects and advance EPOCH (R115, R342). -/
def banksLost (d : Nat) (s : State) : State := (List.range 4).foldl (fun s b => bankEnd (pageOf .syncBank b d) s) s

end Sys2Proof.Machine
end

