-- ==== Sys2Proof/Machine/NerOps.lean ====
section
/-! DEFINITION. Job slots as records, peer tables, and what a Nerius port sends (R403–R412, R417). -/

namespace Sys2Proof.Machine

/-! ### Slots -/

def slotPage (j : Nat) : Page := hubPage .jobSlot |> fun p => { p with inst := j }
def slotGet (s : State) (j : Nat) : Slot := Assoc.getD s.jb.slots j {}
def slotSet (j : Nat) (x : Slot) (s : State) : State := { s with jb := { s.jb with slots := Assoc.set s.jb.slots j x } }

/-- A slot in STARTING or RUNNING. -/
def slotLive (s : State) (j : Nat) : Bool :=
  decide ((slotGet s j).st = .starting ∨ (slotGet s j).st = .running)

/-- GROUP_SIZE and DEV_INDEX of the slot's image. -/
def groupSize (x : Slot) : Nat := match x.image with
  | some i => i.group
  | none => 1
def devIndex (x : Slot) : Nat := match x.image with
  | some i => i.dev
  | none => 0

/-- The other devices of a slot's group. -/
def peersOf (x : Slot) : List Nat := (List.range (groupSize x)).filter (· ≠ devIndex x)

/-! ### The peer table (R417) -/

def peerPage (j : Nat) : Page := pageOf .peerTable j 12
def peerMac (s : State) (j p : Nat) : Nat :=
  rget s (peerPage j) Reg.peerTable.MAC_HI_P p * 2 ^ 32 + rget s (peerPage j) Reg.peerTable.MAC_LO_P p
def peerPorts (s : State) (j p : Nat) : List Nat := bitsSet 4 (rget s (peerPage j) Reg.peerTable.PORTS_P p)
def peerTag (s : State) (j p : Nat) : Nat := rget s (peerPage j) Reg.peerTable.TAG_P p
def peerValid (s : State) (j p : Nat) : Bool := rbit s (peerPage j) Reg.peerTable.VALID_P p
def groupTag (s : State) (j : Nat) : Nat := rget s (peerPage j) Reg.peerTable.GROUP_TAG

/-- A live slot names the pair (port, MAC) (R407). -/
def sessionNamed (s : State) (port mac : Nat) : Bool :=
  (List.range 32).any fun j => slotLive s j && (peersOf (slotGet s j)).any fun p =>
    peerValid s j p && (peerPorts s j p).contains port && peerMac s j p == mac

/-! ### Ports and sessions -/

def portMac (s : State) (n : Nat) : Nat :=
  rget s (neriusPage n) Reg.nerius.MAC_HI * 2 ^ 32 + rget s (neriusPage n) Reg.nerius.MAC_LO

/-- LSTATE = UP. -/
def linkIsUp (s : State) (n : Nat) : Bool := rget s (neriusPage n) Reg.nerius.LSTATE == 2

def sessGet (s : State) (port mac : Nat) : Option Session := s.ner.sessions.find? fun x => x.port == port && x.mac == mac

/-- A session in the place of the one with its port and MAC. -/
def sessSet (x : Session) (s : State) : State :=
  { s with ner := { s.ner with sessions := s.ner.sessions.map fun y => if y.port = x.port ∧ y.mac = x.mac then x else y } }

/-- The class of an operation: 0 request, 1 response, 2 control (R406). -/
def opClass : NerOp → Nat
  | .write | .signal => 0
  | .wack | .sack => 1
  | _ => 2

/-- Credits that a frame of `n` bytes needs (R408). -/
def creditUnits (n : Nat) : Nat := (n + 63) / 64

/-- The length of an untagged frame with a payload of `n` bytes, padded to 64 (R403). -/
def frameLength (n : Nat) : Nat := max 64 (58 + n)

def addList (xs : List Nat) (i n : Nat) : List Nat := xs.set i (xs.getD i 0 + n)
def subList (xs : List Nat) (i n : Nat) : List Nat := xs.set i (xs.getD i 0 - n)

/-- A frame's credits for its class. -/
def frameCost (f : NerFrame) : Nat := creditUnits f.length

/-- A frame leaves on its session: SEQ, acknowledgement and returned credits are filled in, and it is kept until it is
acknowledged (R405, R408, R409). -/
def nerEmit (x : Session) (f : NerFrame) (s : State) : State :=
  let f := { f with hdr := { f.hdr with
    seq := BitVec.ofNat 32 x.tx, ackSeq := BitVec.ofNat 32 (x.rx + 2 ^ 32 - 1)
    creditReq := BitVec.ofNat 12 (x.owed.getD 0 0), creditRsp := BitVec.ofNat 10 (x.owed.getD 1 0)
    creditCtl := BitVec.ofNat 10 (x.owed.getD 2 0) } }
  send (.nerius x.port f) (sessSet { x with
    tx := (x.tx + 1) % 2 ^ 32
    unacked := x.unacked ++ [{ frame := f, sent := s.ck.dt, replays := 0 }]
    credit := subList x.credit (opClass f.hdr.op) (frameCost f)
    owed := [0, 0, 0], oweFrom := none } s)

/-- Credits cover a frame. -/
def covered (x : Session) (f : NerFrame) : Bool := decide (frameCost f ≤ x.credit.getD (opClass f.hdr.op) 0)

/-- A frame goes out, or waits for credit behind the frames of its class (R408). -/
def nerSend (port mac : Nat) (f : NerFrame) (s : State) : State :=
  match sessGet s port mac with
  | none => s
  | some x =>
    if covered x f && !(x.queue.any fun g => opClass g.hdr.op == opClass f.hdr.op) then nerEmit x f s
    else sessSet { x with queue := x.queue ++ [f] } s

/-- The first waiting frame that its class's credits cover, none of its class before it. -/
def nextSendable (x : Session) : List NerFrame → List Nat → Option NerFrame
  | [], _ => none
  | f :: fs, held =>
    let c := opClass f.hdr.op
    if held.contains c then nextSendable x fs held
    else if covered x f then some f
    else nextSendable x fs (c :: held)

/-- Waiting frames go out while credits last. -/
def nerPump : Nat → Nat → Nat → State → State
  | 0, _, _, s => s
  | n + 1, port, mac, s =>
    match sessGet s port mac with
    | none => s
    | some x =>
      match nextSendable x x.queue [] with
      | none => s
      | some f => nerPump n port mac (nerEmit { x with queue := x.queue.erase f } f s)

/-- An empty header. -/
def nerHdr (op : NerOp) : NerHdr :=
  { op := op, groupTag := 0, run := 0, srcDev := 0, dstDev := 0, space := 0, die := 0, last := false, seq := 0, ackSeq := 0,
    creditReq := 0, creditRsp := 0, creditCtl := 0, tag := 0, address := 0, obj := 0, act := false, value := 0 }

/-- A frame of port `n` to a MAC. -/
def nerFrame (s : State) (n mac : Nat) (h : NerHdr) (payload : List Byte) : NerFrame :=
  { dst := BitVec.ofNat 48 mac, src := BitVec.ofNat 48 (portMac s n), tags := 0, etype := 0x88B5, fcsOk := true,
    length := frameLength payload.length, hdr := h, payload := payload }

/-- The header of a frame from slot `j` to group device `p`. -/
def groupHdr (s : State) (j p : Nat) (op : NerOp) : NerHdr :=
  let x := slotGet s j
  { nerHdr op with groupTag := BitVec.ofNat 16 (peerTag s j p), run := BitVec.ofNat 32 x.run,
                   srcDev := BitVec.ofNat 4 (devIndex x), dstDev := BitVec.ofNat 4 p }

/-- A frame from slot `j` to group device `p` on one of its ports. -/
def sendTo (j p port : Nat) (h : NerHdr) (payload : List Byte) (s : State) : State :=
  nerSend port (peerMac s j p) (nerFrame s port (peerMac s j p) h payload) s

/-- The port of a control frame to device `p`: the first port of its mask that is up (log entry 20). -/
def ctlPort (s : State) (j p : Nat) : Option Nat := (peerPorts s j p).find? (linkIsUp s)

/-- One control frame to every peer of slot `j`. -/
def sendPeers (j : Nat) (op : NerOp) (payload : List Byte) (s : State) : State :=
  (peersOf (slotGet s j)).foldl (fun s p =>
    match ctlPort s j p with
    | some n => sendTo j p n (groupHdr s j p op) payload s
    | none => s) s

/-- The port of core `g`'s frames to device `p` (R411). -/
def corePort (s : State) (j p g : Nat) : Option Nat :=
  let m := peerPorts s j p
  if m.isEmpty then none else m[g % m.length]?

/-- The port of core `g`'s frames to device `p` takes no new transfer or signal (R60; log entry 104). -/
def portQuiet (s : State) (j p g : Nat) : Bool :=
  match corePort s j p g with
  | some n => (hget s (neriusPage n)).quiesce
  | none => false

/-- DEVICE_ID as 16 bytes. -/
def deviceId (s : State) : List Byte :=
  ((List.range 4).reverse.map fun i => rget s (hubPage .identity) Reg.identity.DEVICE_ID i).flatMap (beBytes 4)

/-- The session of a port and MAC opens with HELLO (R407). -/
def sessOpen (port mac : Nat) (s : State) : State :=
  if (sessGet s port mac).isSome || !linkIsUp s port then s
  else
    let s := { s with ner := { s.ner with sessions := s.ner.sessions ++ [{ port := port, mac := mac }] } }
    nerSend port mac (nerFrame s port mac (nerHdr .hello) (deviceId s)) s

/-- Every session that slot `j` names opens (R407). -/
def openSessions (j : Nat) (s : State) : State :=
  (peersOf (slotGet s j)).foldl (fun s p =>
    (peerPorts s j p).foldl (fun s n => sessOpen n (peerMac s j p) s) s) s

/-- Sessions that no live slot names close, once what they hold is acknowledged (R407). -/
def closeSessions (s : State) : State :=
  let live := s.ner.sessions.filter fun x => sessionNamed s x.port x.mac || !x.unacked.isEmpty || !x.queue.isEmpty
  { s with ner := { s.ner with sessions := live } }

/-- A port closes its sessions at once (R401, R410). -/
def dropSessions (n : Nat) (s : State) : State :=
  { s with ner := { s.ner with sessions := s.ner.sessions.filter (·.port ≠ n) } }

/-- Port `n` leaves UP or TRAINING for LSTATE `v`: its sessions close (R401, R402, R410). -/
def portLeaves (n v : Nat) (s : State) : State :=
  let up := linkIsUp s n
  let s := dropSessions n (rset (neriusPage n) Reg.nerius.LSTATE v s)
  let s := { s with ner := { s.ner with since := s.ner.since.filter (·.1 ≠ n) } }
  if up then irqPulse (neriusPage n) 9 s else s

/-- A port begins a training attempt (R416). -/
def trainStart (n : Nat) (s : State) : State :=
  rset (neriusPage n) Reg.nerius.LSTATE 1 { s with ner := { s.ner with since := Assoc.set s.ner.since n s.ck.dt } }

/-- Every port goes down with the transit domains (R401). -/
def portsDown (s : State) : State := (List.range 4).foldl (fun s n => portLeaves n 0 s) s

end Sys2Proof.Machine
end

