-- ==== Sys2Proof/Machine/KeyOps.lean ====
section
/-! DEFINITION. Chapter 20: key slots, wrapped cells, the load at a cold start, the tamper response, and the tags of R503
and R504. -/

namespace Sys2Proof.Machine

def keyPage : Page := hubPage .keyStore
def tamperPage : Page := hubPage .tamper
def fusePage : Page := hubPage .fuse

/-! ### Fuses (R570, R572) -/

/-- EPOCH: blown bits, in effect at once. -/
def epochCount (s : State) : Nat := (bitsSet 128 s.fuse.epoch).length
/-- SVN_FLOOR: blown bits, in effect at once. -/
def svnFloor (s : State) : Nat := (bitsSet 128 s.fuse.svnFloor).length
/-- Development mode: the DEBUG_LOCK in effect is 0 (R574). -/
def devMode (s : State) : Bool := decide (s.fuseOn.debugLock = 0)
/-- SEALED (R599). -/
def keySealed (s : State) : Bool := decide (epochCount s = 128)
def tampered (s : State) : Bool := rbit s keyPage Reg.keyStore.TAMPERED

/-! ### Slots (R576–R578) -/

def ksGet (s : State) (n : Nat) : KeySlot := Assoc.getD s.sec.slots n {}
def ksSet (n : Nat) (k : KeySlot) (s : State) : State := { s with sec := { s.sec with slots := Assoc.set s.sec.slots n k } }

def attrType (a : Nat) : Nat := a % 16
def attrOrigin (a : Nat) : Nat := bitsOf a 14 2
def attrPersist (a : Nat) : Bool := bitAt a 13
def attrExport (a : Nat) : Bool := bitAt a 12

/-- Key bytes of a TYPE. -/
def keyLen (t : Nat) : Nat := if t = 1 ∨ t = 5 then 32 else 48

/-- The slot can be used: VALID, and not found otherwise under R597. -/
def ksValid (s : State) (n : Nat) : Bool := decide ((ksGet s n).st = .valid) && !tampered s

/-- The slot is VALID with this TYPE and this attribute bit. -/
def ksHas (s : State) (n t bit : Nat) : Bool :=
  ksValid s n && attrType (ksGet s n).attr == t && bitAt (ksGet s n).attr bit

/-- One operation performed with a slot: USES (R603). -/
def ksUse (n : Nat) (s : State) : State := ksSet n { ksGet s n with uses := satN 32 ((ksGet s n).uses + 1) } s

/-- The integer of a private scalar. -/
def scalar (k : List Byte) : Nat := beNat k

/-- The check function of R578. -/
def keyCheck (k : KeySlot) : List Byte :=
  match attrType k.attr with
  | 1 => Crypto.cmac k.key (List.replicate 16 0)
  | 2 | 5 => Crypto.hmac384 k.key (List.replicate 16 0)
  | 3 | 4 => Crypto.sha384 (Crypto.p384Public (scalar k.key))
  | _ => []

/-! ### Derivation (R579, R580) -/

def ascii (t : String) : List Byte := t.toList.map fun c => BitVec.ofNat 8 c.toNat

def rootBytes : List Byte := beBytes 32 Config.rootKey.toNat

/-- The key-encryption key in force. -/
def kek (s : State) : List Byte :=
  Crypto.kdf rootBytes (ascii (if devMode s then "LF-KEK-DEV" else "LF-KEK")) (beBytes 4 (epochCount s) ++ deviceId s) 256

/-- The scalar of the attestation key. -/
def attestKey (s : State) : Nat :=
  beNat (Crypto.kdf rootBytes (ascii "LF-ATTEST") (deviceId s) 448) % (Crypto.pN - 1) + 1

/-! ### Blobs (R582) -/

/-- Bytes 0x00–0x33 of a blob: the additional data. -/
def blobHead (kind attr slot gen epoch : Nat) (target iv : List Byte) : List Byte :=
  leBytes 4 0x4C464B42 ++ leBytes 2 1 ++ leBytes 1 kind ++ leBytes 1 (attrType attr) ++ leBytes 4 attr ++ leBytes 1 slot
    ++ leBytes 1 (keyLen (attrType attr)) ++ [0, 0] ++ leBytes 4 gen ++ leBytes 4 epoch ++ target ++ iv

/-- A whole blob, sealed under `k`. -/
def blobSeal (k head key : List Byte) (iv : List Byte) : List Byte :=
  let c := Crypto.gcmSeal k iv head (key ++ List.replicate (48 - key.length) 0)
  head ++ c.1 ++ c.2

/-- The fields of a blob. -/
def blobField (b : List Byte) (off n : Nat) : Nat := leNat (sliceB b off n)

/-- The 48 bytes of a blob's key in clear, none where the tag differs. -/
def blobOpen (k b : List Byte) : Option (List Byte) :=
  Crypto.gcmOpen k (sliceB b 0x28 12) (b.take 0x34) (sliceB b 0x34 48) (sliceB b 0x64 16)

/-- The header values of R582 for a KIND. -/
def blobGood (b : List Byte) (kind : Nat) : Bool :=
  let t := blobField b 7 1
  decide (blobField b 0 4 = 0x4C464B42 ∧ blobField b 4 2 = 1 ∧ blobField b 6 1 = kind ∧ 1 ≤ t ∧ t ≤ 5)
    && decide (attrType (blobField b 8 4) = t ∧ blobField b 8 4 < 2 ^ 19 ∧ blobField b 0x0D 1 = keyLen t ∧ blobField b 0x0E 2 = 0)

/-- 12 bytes of the DRBG (R588). -/
def drawIv (s : State) : List Byte × State :=
  let x := takeFree s
  (beBytes 12 ((Config.drbg x.1).toNat % 2 ^ 96), x.2)

/-! ### Storage cells and commit words (R584, R585) -/

def cellGet (s : State) (n c : Nat) : List Byte := Assoc.getD s.sec.cells (n, c) (List.replicate 128 0)
def commitGet (s : State) (n : Nat) : Nat := Assoc.getD s.sec.commits n 0

/-- A commit word of VALID, GEN and CELL. -/
def commitWord (valid : Bool) (gen cell : Nat) : Nat := valid.toNat * 2 ^ 31 + gen % 2 ^ 30 * 2 + cell

def commitSet (n w : Nat) (s : State) : State := { s with sec := { s.sec with commits := Assoc.set s.sec.commits n w } }
def cellZero (n c : Nat) (s : State) : State := { s with sec := { s.sec with cells := s.sec.cells.filter (·.1 ≠ (n, c)) } }

/-- The storage blob of a key into a cell. -/
def cellStore (n c : Nat) (k : KeySlot) (s : State) : State :=
  let x := drawIv s
  let head := blobHead (if devMode s then 2 else 0) k.attr n k.gen (epochCount s) (deviceId s) x.1
  let b := blobSeal (kek s) head k.key x.1 ++ List.replicate 12 0
  { x.2 with sec := { x.2.sec with cells := Assoc.set x.2.sec.cells (n, c) b } }

/-! ### The tamper response (R592–R600) -/

/-- Key RAM wiped: every VALID slot is ZEROIZED (R595). -/
def wipeKeys (s : State) : State :=
  { s with sec := { s.sec with slots := s.sec.slots.map fun x =>
      if x.2.st = .valid then (x.1, { x.2 with st := .zeroized, key := [] }) else x } }

/-- The key command that executes ends with ABORTED unless its commit record is written (R597). -/
def abortKeyCmd (s : State) : State :=
  match (hget s keyPage).cmd with
  | some r => if r.final.isNone && r.opcode != 9 then endCmd keyPage Code.aborted s else s
  | none => s

/-- TAMPERED, the cause, the record and the latch record; in DRY the latch record waits for the wake (R595). -/
def tamperRecord (cause : Nat) (s : State) : State :=
  let s := if tampered s then s
    else
      let s := rset tamperPage Reg.tamper.TAMPER_CAUSE cause (rset tamperPage Reg.tamper.TAMPER_TIME s.ck.dt s)
      rset keyPage Reg.keyStore.TAMPERED 1 s
  let s := radd tamperPage Reg.tamper.TAMPERS 1 s
  let s := raise 0xA001 12 0 cause (rget s tamperPage Reg.tamper.MON_STAT) s
  let s := if (s.pw.mode = .dry ∨ s.pw.mode = .off) ∨ s.sec.latch.isSome then s
    else { s with sec := { s.sec with latch := some (rget s tamperPage Reg.tamper.TAMPER_CAUSE) } }
  irqPulse tamperPage 8 s

/-- The response of a level: 0 RECORD, 1 VOLATILE, 2 and 3 FULL (R594, R595). -/
def tamperRespond (level cause : Nat) (s : State) : State :=
  let s := tamperRecord cause s
  if level = 0 then s
  else
    let s := abortKeyCmd (wipeKeys s)
    if level = 1 then s
    else { s with sec := { s.sec with advance := true, erase := true } }

/-- A tamper is accepted: TAMPER_RESP chooses the response (R594). -/
def tamperAccept (cause : Nat) (s : State) : State := tamperRespond s.fuseOn.tamperResp cause s

/-- The next EPOCH bit is blown (R596). A ZEROIZE that waits for it ends OK (R602). -/
def epochBlow (s : State) : State :=
  let e := s.fuse.epoch
  let s := { s with
    sec := { s.sec with advance := false }
    fuse := { s.fuse with epoch := if epochCount s < 128 then e ||| (e + 1) else e } }
  match (hget s keyPage).cmd with
  | some r => if r.opcode = 9 ∧ r.final = none then endCmd keyPage Code.ok s else s
  | none => s

/-- Every stored cell and commit word zeroed (R595). -/
def eraseCells (s : State) : State := { s with sec := { s.sec with cells := [], commits := [], erase := false } }

/-! ### The key load (R586) -/

/-- How the load finds a slot's committed cell. -/
inductive CellFound where
  | good (attr : Nat) (key : List Byte)
  | stale
  | dev
  | bad
deriving DecidableEq, Repr

def cellTest (s : State) (n : Nat) : CellFound :=
  let w := commitGet s n
  let b := cellGet s n (w % 2)
  let names := decide (blobField b 0x10 4 = bitsOf w 1 30 ∧ blobField b 0x0C 1 = n)
  let kind := blobField b 6 1
  if names && blobGood b 2 && !devMode s then .dev
  else if names && (blobGood b 0 || blobGood b 2) && decide (blobField b 0x14 4 < epochCount s) then .stale
  else if names && (blobGood b kind) && decide ((kind = 0 ∨ kind = 2) ∧ blobField b 0x14 4 = epochCount s) then
    match blobOpen (kek s) b with
    | some k => .good (blobField b 8 4) (k.take (blobField b 0x0D 1))
    | none => .bad
  else .bad

/-- One slot at the load; whether its cell was stale. -/
def loadSlot (n : Nat) (s : State) : State × Bool :=
  let w := commitGet s n
  let gen := bitsOf w 1 30
  if !bitAt w 31 then (ksSet n { gen := gen, cell := w % 2 } s, false)
  else
    match cellTest s n with
    | .good attr key => (ksSet n { st := .valid, attr := attr, gen := gen, cell := w % 2, key := key } s, false)
    | .stale => (ksSet n {} (commitSet n 0 (cellZero n (w % 2) s)), true)
    | .dev =>
      let s := raise 0xA005 12 n (blobField (cellGet s n (w % 2)) 0x10 4) 0 s
      let gen' := (gen + 1) % 2 ^ 30
      (ksSet n { gen := gen' } (commitSet n (commitWord false gen' 0) (cellZero n (w % 2) s)), false)
    | .bad => (ksSet n { st := .fault, gen := gen, cell := w % 2 } (raise 0xA002 12 n gen 0 s), false)

/-- Every slot with a commit word is loaded; stale cells without a latch record are a tamper (R586). -/
def loadKeys (s : State) : State :=
  let r := (s.sec.commits.map (·.1)).foldl (fun (x : State × Bool) n =>
    let y := loadSlot n x.1
    (y.1, x.2 || y.2)) (s, false)
  let s := rset keyPage Reg.keyStore.LOADED 1 r.1
  if r.2 && s.sec.latch.isNone && !tampered s then tamperAccept 7 s else s

/-- The key store at a hub boot: the keys are loaded after a cold start, and a latch record that a tamper in DRY left due
is written (R586, R595, R598). -/
def keyStoreLoad (s : State) : State :=
  let s := if rbit s keyPage Reg.keyStore.LOADED then s else loadKeys s
  if tampered s && s.sec.latch.isNone then
    { s with sec := { s.sec with latch := some (rget s tamperPage Reg.tamper.TAMPER_CAUSE) } }
  else s

/-! ### Frame authentication (R503–R505) -/

/-- The smallest payload length of a CAN frame that holds `n` bytes; none where the format holds fewer. -/
def dlcLen (fdf : Bool) (n : Nat) : Option Nat :=
  ((if fdf then List.range 9 ++ [12, 16, 20, 24, 32, 48, 64] else List.range 9).find? fun l => decide (n ≤ l))

/-- The bytes under the tag. -/
def authMsg (ident : Nat) (ide fdf : Bool) (l fv : Nat) (p : List Byte) : List Byte :=
  beBytes 4 (ide.toNat * 2 ^ 29 + ident) ++ beBytes 1 fdf.toNat ++ beBytes 1 l ++ beBytes 8 fv ++ p

/-- auth_field of R503 as a whole payload; none where the format has no room. -/
def authPayload (key : List Byte) (ident : Nat) (ide fdf : Bool) (d : List Byte) (fv : Nat) : Option (List Byte) :=
  (dlcLen fdf (d.length + 7)).map fun l =>
    let p := d ++ List.replicate (l - 7 - d.length) 0
    p ++ beBytes 3 (fv % 2 ^ 24) ++ (Crypto.cmac key (authMsg ident ide fdf l fv p)).take 4

/-- verify of R504: the new counter value and the delivered bytes. -/
def authVerify (key : List Byte) (ident : Nat) (ide fdf : Bool) (payload : List Byte) (last : Nat) : Option (Nat × List Byte) :=
  let l := payload.length
  if l < 7 then none
  else
    let r := beNat (sliceB payload (l - 7) 3)
    let c0 := last - last % 2 ^ 24 + r
    let c := if c0 ≤ last then c0 + 2 ^ 24 else c0
    if 2 ^ 23 ≤ c - last then none
    else if (Crypto.cmac key (authMsg ident ide fdf l c (payload.take (l - 7)))).take 4 == payload.drop (l - 4) then
      some (c, payload.take (l - 7))
    else none

def fvGet (s : State) (i : Nat) : Nat := Assoc.getD s.sb.fv i 0
def fvSet (i v : Nat) (s : State) : State := { s with sb := { s.sb with fv := Assoc.set s.sb.fv i (v % 2 ^ 64) } }

/-- The key of a slot that the CMAC unit may use: VALID, AES-256, GATEWAY, and the usage bit (R576). -/
def cmacKey (s : State) (n bit : Nat) : Option (List Byte) :=
  if ksHas s n 1 bit && bitAt (ksGet s n).attr 16 then some (ksGet s n).key else none

/-- A CAN frame signed with key slot `n` and counter `i`, which advances first; none without a usable key or room. -/
def canSign (n i : Nat) (f : CanFrame) (s : State) : Option (CanFrame × State) :=
  match cmacKey s n 6 with
  | none => none
  | some k =>
    let fv := fvGet s i + 1
    match authPayload k f.ident.toNat f.ide f.fdf f.payload fv with
    | some p => some ({ f with payload := p }, ksUse n (fvSet i fv s))
    | none => none

/-- A CAN frame verified with key slot `n` and counter `i`: the delivered bytes, and the state with the new counter. -/
def canVerify (n i : Nat) (f : CanFrame) (s : State) : Option (List Byte × State) :=
  match cmacKey s n 7 with
  | none => none
  | some k => (authVerify k f.ident.toNat f.ide f.fdf f.payload (fvGet s i)).map fun r => (r.2, ksUse n (fvSet i r.1 s))

end Sys2Proof.Machine
end

