-- ==== Sys2Proof/Machine/Words.lean ====
section
/-! DEFINITION. Register words of a page: the 32-bit word at an offset as the stored fields form it, and back (R58, R71). -/

namespace Sys2Proof.Machine

/-- A field in one word: the field, its index, and the number of its 32-bit word (0 or 1). -/
structure FieldAt where
  fld  : Fld
  idx  : Nat
  half : Nat
deriving DecidableEq, Repr

/-- Where field `f` has a part in the word at `off`. -/
def Fld.at (f : Fld) (off : Nat) : List FieldAt :=
  (if f.stride = 0 then [0] else if off < f.off then [] else
      let i := (off - f.off) / f.stride
      if i < f.count then [i] else []).filterMap fun i =>
    let o := f.off + f.stride * i
    if off = o then some { fld := f, idx := i, half := 0 }
    else if 32 < f.w ∧ off = o + 4 then some { fld := f, idx := i, half := 1 }
    else none

/-- The fields of page `p` in the word at `off`. -/
def fieldsAt (b : Block) (off : Nat) : List FieldAt := (regsOf b).flatMap fun f => f.at off

/-- The part of a field's value that stands in one of its words. -/
def FieldAt.part (x : FieldAt) (v : Nat) : Nat := bitsOf v (32 * x.half) 32 * 2 ^ x.fld.lo % 2 ^ 32

/-- The word that stored fields form. -/
def storedWord (s : State) (p : Page) (off : Nat) : Nat :=
  (fieldsAt p.blk off).foldl (fun a x => a + x.part (rget s p x.fld x.idx)) 0

/-- The bits of a written word that fall on a field. -/
def FieldAt.bits (x : FieldAt) (v : Nat) : Nat := bitsOf v x.fld.lo (min x.fld.w 32)

/-- A stored field with its part of a written word. -/
def putField (p : Page) (x : FieldAt) (v : Nat) (s : State) : State :=
  if x.fld.w ≤ 32 then rset p x.fld (x.bits v) s x.idx
  else rset p x.fld (putBits (rget s p x.fld x.idx) (32 * x.half) (min 32 (x.fld.w - 32 * x.half)) v) s x.idx

/-- Every writable stored field of the word at `off` from a written word. -/
def putWord (p : Page) (off v : Nat) (s : State) : State :=
  (fieldsAt p.blk off).foldl (fun s x => if x.fld.acc = .ro ∨ x.fld.derived then s else putField p x v s) s

end Sys2Proof.Machine
end

