-- ==== Sys2Proof/Machine/GatewayOps.lean ====
section
/-! DEFINITION. Chapter 16: classification, limiters, admission to the frame buffer, rounds, and the configuration record
(R449–R482). -/

namespace Sys2Proof.Machine

def gwPage : Page := hubPage .gateway
def sbPage : Page := hubPage .siteBus
def ethPage : Page := portPage 4

/-! ### Ports (R449, R451) -/

/-- The gateway page is ACTIVE. -/
def gwActive (s : State) : Bool := enActive s gwPage

/-- A port forwards: its page, where it has one, and the gateway page are ACTIVE. -/
def portActive (s : State) (p : Nat) : Bool := gwActive s && (if p ≤ 8 then enActive s (portPage p) else decide (p ≤ 12))

/-- A page takes new work: QUIESCE_REQ is 0 (R60). -/
def takesWork (s : State) (p : Page) : Bool := !(hget s p).quiesce

/-- A port that forwards takes a new frame or a new copy: neither its page nor the gateway page is quiesced (R60). DESIGN CHOICE (log
entry 104): no rule says what becomes of a frame that a quiesced port does not take; it is not received, and a copy to the port
finds its egress down. -/
def portTakes (s : State) (p : Nat) : Bool := portActive s p && takesWork s gwPage && (decide (8 < p) || takesWork s (portPage p))

/-- The port of the site-bus service (R485). -/
def sbPort (s : State) : Nat := rget s sbPage Reg.siteBus.SB_PORT

/-! ### Drops (R474, R475) -/

namespace GwDrop
def runt : Nat := 1
def oversize : Nat := 2
def crc : Nat := 3
def aduShort : Nat := 4
def aduLong : Nat := 5
def badTag : Nat := 6
def notAccepted : Nat := 7
def noRoute : Nat := 8
def authFail : Nat := 9
def keyAbsent : Nat := 10
def routeLen : Nat := 11
def limit : Nat := 12
def bufFull : Nat := 13
def pushedOut : Nat := 14
def egressDown : Nat := 15
def drain : Nat := 16
end GwDrop

/-- A drop of code `k` of a frame that came in at port `p`: its counter, its record, and DROP with each new record. The
internal ports have no page and so no counter. -/
def gwDrop (p k : Nat) (s : State) : State :=
  let s := if p ≤ 8 then radd (portPage p) Reg.port.DROP 1 s k else s
  let n := if p ≤ 8 then rget s (portPage p) Reg.port.DROP k else Config.freeNat s.fresh
  let s := if p ≤ 8 then s else { s with fresh := s.fresh + 1 }
  let was := s.ev.nextUid
  let s := raise (0x7000 + k) 12 p n 0 s
  if s.ev.nextUid = was then s else irqPulse gwPage 8 s

/-- A copy that SLOW loses (R468, R473). -/
def slowDrop (s : State) : State := radd gwPage Reg.gateway.SLOW_DROPS 1 s

/-! ### Keys and the tree (R457–R462) -/

/-- The four keys of a frame. -/
def frameKeys (s : State) (f : GwFrame) : List Nat :=
  let off := fun (g : Fld) => if f.port ≤ 8 then rget s (portPage f.port) g else g.reset
  [f.k0, beNat (sliceB f.payload (off Reg.port.EXT1_OFF) 4), beNat (sliceB f.payload (off Reg.port.EXT2_OFF) 4),
   f.payload.length % 2 ^ 16 + f.port * 2 ^ 16 + f.kind * 2 ^ 20 + f.auth.toNat * 2 ^ 24]

/-- Comparator `n` matches (R460). -/
def cmpMatch (s : State) (ks : List Nat) (port n : Nat) : Bool :=
  let w := fun i => rget s gwPage Reg.gateway.CMP (4 * n + i)
  let ports := bitsOf (w 0) 16 16
  let v := ks.getD (w 0 % 4) 0 &&& w 1
  (ports == 0 || bitAt ports port) && decide (w 2 ≤ v ∧ v ≤ w 3)

/-- A tree node (R461). -/
def treeNode (s : State) (i : Nat) : Nat := Assoc.getD s.gw.nodes i 0

/-- The walk from a node with `n` visits left: the route, or none where it ends at route 0 with TREE_LOOPS (R462). -/
def treeWalk (s : State) (ks : List Nat) (port : Nat) : Nat → Nat → Option Nat
  | 0, _ => none
  | n + 1, i =>
    let x := treeNode s i
    let next := fun (b : Bool) => treeWalk s ks port n (if b then bitsOf x 16 15 else bitsOf x 31 15)
    match x % 4 with
    | 0 => if bitsOf x 8 8 = 0 ∧ x < 2 ^ 46 then next (cmpMatch s ks port (bitsOf x 2 6)) else none
    | 1 => if bitsOf x 9 7 = 0 ∧ x < 2 ^ 46 then next (bitAt (ks.getD (bitsOf x 2 2) 0) (bitsOf x 4 5)) else none
    | 2 => if x < 2 ^ 14 then some (x / 4) else none
    | _ => none

/-- The words of a route entry (R463). -/
def routeGet (s : State) (r : Nat) : List Nat := Assoc.getD s.gw.routes r (List.replicate 8 0)
def routeSet (r : Nat) (ws : List Nat) (s : State) : State := { s with gw := { s.gw with routes := Assoc.set s.gw.routes r ws } }

/-- COUNT of a route advances. -/
def routeCount (r : Nat) (s : State) : State :=
  let e := routeGet s r
  routeSet r (e.set 7 (satN 32 (e.getD 7 0 + 1))) s

/-! ### Token buckets (R467, R471, R472) -/

/-- The tokens of a bucket now, in millionths; an unlisted bucket is full. -/
def bucketNow (s : State) (key rate burst : Nat) : Nat :=
  match Assoc.get s.gw.buckets key with
  | none => burst * 1000000
  | some b => min (burst * 1000000) (b.1 + rate * (s.ck.dt / 1000 - b.2))

/-- `cost` tokens taken, where they are there. -/
def bucketTake (key rate burst cost : Nat) (s : State) : Option State :=
  let v := bucketNow s key rate burst
  if cost * 1000000 ≤ v then
    some { s with gw := { s.gw with buckets := Assoc.set s.gw.buckets key (v - cost * 1000000, s.ck.dt / 1000) } }
  else none

/-- The limiter of a frame: none where it is dropped, else its class. -/
def limitFrame (n cls len : Nat) (s : State) : Option (Nat × State) :=
  let w := rget s gwPage Reg.gateway.LIM (2 * n)
  let burst := rget s gwPage Reg.gateway.LIM (2 * n + 1) % 2 ^ 16
  match bucketTake n (w % 2 ^ 27) burst (if bitAt w 27 then len else 1) s with
  | some s => some (cls, s)
  | none => if bitAt w 28 then some (0, s) else none

/-! ### The frame buffer (R468) -/

def guar (s : State) (c : Nat) : Nat := rget s gwPage Reg.gateway.GUAR c
def guarSum (s : State) : Nat := ((List.range 8).map (guar s)).foldl (· + ·) 0
def cellSum (xs : List GwCopy) : Nat := (xs.map (·.cells)).foldl (· + ·) 0
/-- Guaranteed cells that class `c` has in use. -/
def usedGuar (s : State) (c : Nat) : Nat := cellSum (s.gw.copies.filter fun x => x.cls == c && !x.shared)
/-- Free cells of the shared pool. -/
def sharedFree (s : State) : Nat := 4096 - guarSum s - cellSum (s.gw.copies.filter (·.shared))
/-- Shared cells of queued copies of the classes that `p` picks. -/
def sharedHeld (s : State) (p : Nat → Bool) : Nat := cellSum (s.gw.copies.filter fun x => x.shared && !x.held && p x.cls)
/-- BUF_FREE. -/
def bufFree (s : State) : Nat := 4096 - cellSum s.gw.copies

/-- The list without its last element that `p` picks, and that element. -/
def takeLast {α : Type} (p : α → Bool) (xs : List α) : Option (α × List α) :=
  match xs.reverse.findIdx? p with
  | none => none
  | some i =>
    let k := xs.length - 1 - i
    (xs[k]?).map fun x => (x, xs.eraseIdx k)

/-- The first element that `p` picks replaced by `f` of it. -/
def modifyFirst {α : Type} (p : α → Bool) (f : α → α) : List α → List α
  | [] => []
  | x :: xs => if p x then f x :: xs else x :: modifyFirst p f xs

/-- A copy no longer queued. -/
def removeCopy (x : GwCopy) (s : State) : State := { s with gw := { s.gw with copies := s.gw.copies.erase x } }

/-- The class below `c` that is pushed out first, and the fullest of its queues. -/
def pushVictim (s : State) (c : Nat) : Option (GwCopy × List GwCopy) :=
  match (List.range c).find? fun k => decide (0 < sharedHeld s (· == k)) with
  | none => none
  | some k =>
    let size := fun q => cellSum (s.gw.copies.filter fun x => x.egress == q && x.cls == k && !x.held)
    let q := (List.range 13).foldl (fun b q => if size b < size q then q else b) 0
    takeLast (fun x => x.egress == q && x.cls == k && !x.held) s.gw.copies

/-- Copies pushed out until `n` shared cells are free. -/
def pushOut (c n : Nat) : Nat → State → State
  | 0, s => s
  | f + 1, s =>
    if n ≤ sharedFree s then s
    else
      match pushVictim s c with
      | none => s
      | some v => pushOut c n f (gwDrop v.1.frame.port GwDrop.pushedOut { s with gw := { s.gw with copies := v.2 } })

/-! ### Rounds and the CAN controller (R469, R470) -/

def classWeight (s : State) (c : Nat) : Nat := rget s gwPage Reg.gateway.WEIGHT c

/-- The next copy of egress `q` in its round, and the round after it. -/
def roundPick (s : State) (q : Nat) : Nat → Nat × Nat → Option (GwCopy × (Nat × Nat))
  | 0, _ => none
  | n + 1, r =>
    let down := if r.1 = 0 then 7 else r.1 - 1
    match s.gw.copies.find? fun x => x.egress == q && x.cls == r.1 && !x.held && x.slot.isNone with
    | some x => if r.2 ≠ 0 then some (x, (r.1, r.2 - 1)) else roundPick s q n (down, classWeight s down)
    | none => roundPick s q n (down, classWeight s down)

/-- The copy that egress `q` takes next. -/
def nextCopy (s : State) (q : Nat) : Option (GwCopy × (Nat × Nat)) :=
  roundPick s q 17 (Assoc.getD s.gw.rounds q (7, classWeight s 7))

def setRound (q : Nat) (r : Nat × Nat) (s : State) : State := { s with gw := { s.gw with rounds := Assoc.set s.gw.rounds q r } }

/-- The frame that CAN controller `q` holds. -/
def heldCopy (s : State) (q : Nat) : Option GwCopy := s.gw.copies.find? fun x => x.egress == q && x.held

def markHeld (x : GwCopy) (on : Bool) (s : State) : State :=
  { s with gw := { s.gw with copies := modifyFirst (· == x) (fun y => { y with held := on }) s.gw.copies } }

/-- An idle CAN controller takes the next copy of its queues. -/
def canLoad (q : Nat) (s : State) : State :=
  if 4 ≤ q ∨ (heldCopy s q).isSome = true then s
  else
    match nextCopy s q with
    | some x => markHeld x.1 true (setRound q x.2 s)
    | none => s

/-- A copy enters its queue; a CAN controller gives a pending frame of a lower class back to its queue for it. -/
def enqueueCopy (x : GwCopy) (s : State) : State :=
  let s := { s with gw := { s.gw with copies := s.gw.copies ++ [x] } }
  if 4 ≤ x.egress ∨ x.slot.isSome = true then s
  else
    match heldCopy s x.egress with
    | some y => if y.cls < x.cls then markHeld x true (markHeld y false s) else s
    | none => canLoad x.egress s

/-- Room for a copy in SLOW's queue: the copy that gives way for it, if one must and can (R468). -/
def slowRoom (c : Nat) (s : State) : Option State :=
  if (s.gw.copies.filter (·.egress == 9)).length < 256 then some s
  else
    match (List.range c).find? fun k => s.gw.copies.any fun x => x.egress == 9 && x.cls == k with
    | none => none
    | some k => (takeLast (fun x => x.egress == 9 && x.cls == k) s.gw.copies).map fun v =>
        slowDrop { s with gw := { s.gw with copies := v.2 } }

/-- the admission of R468, with `x.shared` still open. -/
def admitCells (x : GwCopy) (s : State) : State :=
  let n := x.cells
  if usedGuar s x.cls + n ≤ guar s x.cls then enqueueCopy { x with shared := false } s
  else if n ≤ sharedFree s then enqueueCopy { x with shared := true } s
  else if sharedHeld s (· < x.cls) < n - sharedFree s then gwDrop x.frame.port GwDrop.bufFull s
  else enqueueCopy { x with shared := true } (pushOut x.cls n s.gw.copies.length s)

def admitCopy (x : GwCopy) (s : State) : State :=
  if x.egress = 9 then
    match slowRoom x.cls s with
    | some s => admitCells x s
    | none => slowDrop s
  else admitCells x s

/-- Cells of a payload. -/
def cellsOf (n : Nat) : Nat := (n + 32 + 127) / 128

/-! ### Copies (R463–R466) -/

/-- Zero padding of a CAN payload to a length that a DLC gives. -/
def padCan (fdf : Bool) (p : List Byte) : Option (List Byte) :=
  (dlcLen fdf p.length).map fun l => p ++ List.replicate (l - p.length) 0

/-- The identifier and format of a CAN egress copy: W2, or those of a CAN ingress frame (R466). -/
def canFormat (ws : List Nat) (f : GwFrame) : Option Nat :=
  if bitAt (ws.getD 1 0) 3 then some (ws.getD 2 0) else if f.kind ≤ 1 then some f.k0 else none

def canOf (w : Nat) (p : List Byte) : CanFrame :=
  { ident := BitVec.ofNat 29 w, ide := bitAt w 29, fdf := bitAt w 30, brs := bitAt w 31, payload := p }

/-- A copy to CAN port `q`. -/
def canCopy (x : GwCopy) (s : State) : State :=
  let f := x.frame
  let w1 := x.words.getD 1 0
  let q := x.egress
  if bitAt w1 2 && q != sbPort s then gwDrop f.port GwDrop.egressDown s
  else
    match canFormat x.words f with
    | none => gwDrop f.port GwDrop.routeLen s
    | some w =>
      let room := (if bitAt w 30 then 64 else 8)
      if room < f.payload.length + (if bitAt w1 1 then 7 else 0) then gwDrop f.port GwDrop.routeLen s
      else
        let made : Option (CanFrame × State) :=
          if bitAt w1 1 then canSign (bitsOf w1 16 7) (bitsOf (x.words.getD 4 0) 16 10) (canOf w f.payload) s
          else (padCan (bitAt w 30) f.payload).map fun p => (canOf w p, s)
        match made with
        | none => gwDrop f.port GwDrop.keyAbsent s
        | some (c, s) =>
          let slot := if bitAt w1 2 then some (bitsOf w1 24 8) else none
          let y : GwCopy := { x with can := some c, cells := cellsOf c.payload.length, slot := slot }
          match slot with
          | none => admitCopy y s
          | some k =>
            match s.gw.copies.find? fun z => z.egress == q && z.slot == some k with
            | some z => admitCopy y (gwDrop z.frame.port GwDrop.pushedOut (removeCopy z s))
            | none => admitCopy y s

/-- A copy to egress `q` (R451, R466, R473). -/
def egressCopy (q cls route : Nat) (ws : List Nat) (f : GwFrame) (s : State) : State :=
  let n := f.payload.length
  let x : GwCopy := { egress := q, cls := cls, route := route, words := ws, frame := f, cells := cellsOf n }
  if !portTakes s q then gwDrop f.port GwDrop.egressDown s
  else if q = 9 ∧ s.bt.update.isSome = true then slowDrop s
  else if q ≤ 3 then canCopy x s
  else if (q = 5 ∨ q = 6) ∧ rget s (portPage q) Reg.uartPort.MODE = 0 ∧ (n < 2 ∨ 254 < n) then gwDrop f.port GwDrop.routeLen s
  else if (q = 7 ∨ q = 8) ∧ n < 3 then gwDrop f.port GwDrop.routeLen s
  else admitCopy x s

/-- The egress ports of a frame: the mask with SLOW's copy, never its own ingress (R449). -/
def egressList (w0 port : Nat) : List Nat :=
  (List.range 13).filter fun q => (bitAt w0 (16 + q) || (q == 9 && bitAt w0 2)) && q != port

/-- Every copy of a frame that has passed its route. -/
def makeCopies (cls route : Nat) (ws : List Nat) (f : GwFrame) (s : State) : State :=
  if bitsOf (ws.getD 3 0) 0 11 < f.payload.length then gwDrop f.port GwDrop.routeLen s
  else (egressList (ws.getD 0 0) f.port).foldl (fun s q => egressCopy q cls route ws f s) s

/-- AUTH_IN, then the copies (R465). -/
def authThenCopies (cls route : Nat) (ws : List Nat) (f : GwFrame) (s : State) : State :=
  let w1 := ws.getD 1 0
  if !bitAt w1 0 then makeCopies cls route ws f s
  else if (cmacKey s (bitsOf w1 8 7) 7).isNone then gwDrop f.port GwDrop.keyAbsent s
  else
    match (if f.kind ≤ 1 then canVerify (bitsOf w1 8 7) (ws.getD 4 0 % 2 ^ 10) (canOf f.k0 f.payload) s else none) with
    | none => gwDrop f.port GwDrop.authFail s
    | some (p, s) => makeCopies cls route ws { f with payload := p, auth := true, keyIn := bitsOf w1 8 7 } s

/-- An accepted frame from classification to its egress queues (R460–R468). -/
def gwFrame (f : GwFrame) (s : State) : State :=
  let found := treeWalk s (frameKeys s f) f.port 32 (rget s gwPage Reg.gateway.ROOT f.port)
  let s := if found.isNone then radd gwPage Reg.gateway.TREE_LOOPS 1 s else s
  let r := found.getD 0
  let ws := routeGet s r
  let w0 := ws.getD 0 0
  if !bitAt w0 0 then gwDrop f.port GwDrop.noRoute s
  else
    let s := routeCount r s
    if bitAt w0 1 then gwDrop f.port GwDrop.noRoute s
    else if bitAt w0 6 then
      match limitFrame (bitsOf w0 8 7) (bitsOf w0 3 3) f.payload.length s with
      | none => gwDrop f.port GwDrop.limit s
      | some (cls, s) => authThenCopies cls r ws f s
    else authThenCopies (bitsOf w0 3 3) r ws f s

/-- An internal frame at a port (R458). -/
def gwInject (port msg : Nat) (payload : List Byte) (s : State) : State :=
  if portTakes s port then gwFrame { k0 := msg, kind := 6, port := port, payload := payload, time := s.ck.dt } s else s

/-- The fields of a power-state frame (R506). -/
def psPayload (flags hold cap mask : Nat) : List Byte := [1] ++ beBytes 1 flags ++ beBytes 2 hold ++ beBytes 4 cap ++ beBytes 4 mask

/-- The queue of SLOW is dropped (R473). -/
def slowPathDrop (s : State) : State :=
  let gone := s.gw.copies.filter (·.egress == 9)
  radd gwPage Reg.gateway.SLOW_DROPS gone.length { s with gw := { s.gw with copies := s.gw.copies.filter (·.egress != 9) } }

/-- Queued copies that `p` picks are dropped with DRAIN (R480). -/
def drainCopies (p : GwCopy → Bool) (s : State) : State :=
  (s.gw.copies.filter p).foldl (fun s x => gwDrop x.frame.port GwDrop.drain s)
    { s with gw := { s.gw with copies := s.gw.copies.filter fun x => !p x } }

/-! ### The configuration record (R481, log entry 24) -/

/-- Offsets of a port page's configuration. -/
def portWords : List Nat := 0x0F0 :: (List.range 48).map fun i => 0x100 + 4 * i

/-- The configuration as words: port pages, comparators, limiters, GUAR and WEIGHT, roots, routes, tree. -/
def gwConfig (s : State) : List Nat :=
  (List.range 9).flatMap (fun p => portWords.map (storedWord s (portPage p)))
    ++ (List.range 256).map (rget s gwPage Reg.gateway.CMP ·)
    ++ (List.range 256).map (rget s gwPage Reg.gateway.LIM ·)
    ++ (List.range 8).map (fun c => guar s c + classWeight s c * 2 ^ 16)
    ++ (List.range 13).map (rget s gwPage Reg.gateway.ROOT ·)
    ++ (List.range 4096).flatMap (fun r => (routeGet s r).take 7)
    ++ (List.range 32768).flatMap fun i => [treeNode s i % 2 ^ 32, treeNode s i / 2 ^ 32]

/-- Numbered words into a register field. -/
def putWords (p : Page) (f : Fld) (ws : List Nat) (s : State) : State := ws.zipIdx.foldl (fun s x => rset p f x.1 s x.2) s

/-- The configuration from its words. -/
def gwRestore (ws : List Nat) (s : State) : State :=
  let s := (List.range 9).foldl (fun s p =>
    (portWords.zip ((ws.drop (49 * p)).take 49)).foldl (fun s x => putWord (portPage p) x.1 x.2 s) s) s
  let ws := ws.drop 441
  let s := putWords gwPage Reg.gateway.CMP (ws.take 256) s
  let ws := ws.drop 256
  let s := putWords gwPage Reg.gateway.LIM (ws.take 256) s
  let ws := ws.drop 256
  let s := putWords gwPage Reg.gateway.GUAR ((ws.take 8).map (bitsOf · 0 10))
    (putWords gwPage Reg.gateway.WEIGHT ((ws.take 8).map (bitsOf · 16 8)) s)
  let ws := ws.drop 8
  let s := putWords gwPage Reg.gateway.ROOT (ws.take 13) s
  let ws := ws.drop 13
  let rt := (List.range 4096).filterMap fun r =>
    let e := (ws.drop (7 * r)).take 7
    if e.all (· == 0) then none else some (r, e ++ [0])
  let ws := ws.drop (7 * 4096)
  let nd := (List.range 32768).filterMap fun i =>
    let v := ws.getD (2 * i) 0 + ws.getD (2 * i + 1) 0 * 2 ^ 32
    if v = 0 then none else some (i, v)
  { s with gw := { s.gw with routes := rt, nodes := nd, buckets := s.gw.buckets.filter (128 ≤ ·.1) } }

/-- A record: MAGIC, FORMAT, GEN, LENGTH, the CRC-32 of the body, the body. -/
def gwRecord (gen : Nat) (body : List Byte) : List Byte :=
  leBytes 4 0x4C464757 ++ leBytes 4 1 ++ leBytes 4 gen ++ leBytes 4 body.length ++ leBytes 4 (crc32 body) ++ body

def gwBodyBytes : Nat := 4 * (441 + 256 + 256 + 8 + 13 + 7 * 4096 + 2 * 32768)

/-- GEN of the valid record in a slot. -/
def gwSlotGen (s : State) (slot : Nat) : Option Nat :=
  let a := rget s gwPage Reg.gateway.ARCHIVE + slot * 2 ^ 19
  let f := fun i => leNat (flashRead s (a + 4 * i) 4)
  if f 0 = 0x4C464757 ∧ f 1 = 1 ∧ f 3 = gwBodyBytes ∧ f 4 = crc32 (flashRead s (a + 20) gwBodyBytes) then some (f 2) else none

/-- The slot with the higher GEN, with it. -/
def gwNewest (s : State) : Option (Nat × Nat) :=
  match gwSlotGen s 0, gwSlotGen s 1 with
  | some a, some b => if a < b then some (1, b) else some (0, a)
  | some a, none => some (0, a)
  | none, some b => some (1, b)
  | none, none => none

/-- Hub firmware's load at a hub boot (R481). -/
def gwLoad (s : State) : State :=
  match gwNewest s with
  | some (slot, gen) =>
    let a := rget s gwPage Reg.gateway.ARCHIVE + slot * 2 ^ 19
    rset gwPage Reg.gateway.CFG_GEN gen (gwRestore (leWords (flashRead s (a + 20) gwBodyBytes) (gwBodyBytes / 4)) s)
  | none => rset gwPage Reg.gateway.CFG_GEN 0 { s with gw := { s.gw with routes := [], nodes := [(0, 2)] } }

end Sys2Proof.Machine
end

