-- ==== Sys2Proof/Machine/CastleOps.lean ====
section
/-! DEFINITION. Castling: the table's outputs, and what happens when the hub castles (R540, R561–R565). -/

namespace Sys2Proof.Machine

def sitePage : Page := hubPage .siteChannel
def castlePage : Page := hubPage .castle

/-! The causes of R565 by their bits. -/
namespace Cause
def command : Nat := 0
def power : Nat := 1
def noImage : Nat := 2
def frame : Nat := 3
def telemetry : Nat := 4
def window : Nat := 5
def mismatch : Nat := 6
def action : Nat := 7
def core : Nat := 8
def age : Nat := 9
def maint : Nat := 10
def disabled : Nat := 11
end Cause

/-- The hard causes (R565). -/
def hardCause (b : Nat) : Bool := b == 0 || b == 2 || b == 6 || b == 7 || b == 8

/-- STATE of the site channel: 0 OFF, 1 LOADING, 2 SHADOW, 3 LIVE (R540). -/
def siteState (s : State) : Nat := rget s sitePage Reg.siteChannel.STATE
def setSite (v : Nat) (s : State) : State := rset sitePage Reg.siteChannel.STATE v s

/-! ### The table's outputs (R562, R564) -/

/-- Word w of rule r. -/
def ruleWord (s : State) (r w : Nat) : Nat := rget s castlePage Reg.castle.RULE (4 * r + w)

/-- Rule r is active: VALID, and its condition has held long enough (R562). -/
def ruleActive (s : State) (r : Nat) : Bool := bitAt (ruleWord s r 0) 11 && (Assoc.getD s.sc.rules r (false, 0)).1

/-- The active rules; none count while the rule memory has an uncorrectable error (R564). -/
def activeRules (s : State) : List Nat :=
  if rbit s castlePage Reg.castle.TABLE_FAULT then [] else (List.range 64).filter (ruleActive s)

/-- The table's cap (R562). -/
def tableCap (s : State) : Nat :=
  (activeRules s).foldl (fun m r => let c := bitsOf (ruleWord s r 3) 0 16; if c = 0xFFFF then m else min m c)
    (rget s castlePage Reg.castle.CASTLE_CAP)

/-- The table's output for aux channel n (R562). -/
def tableAux (s : State) (n : Nat) : Bool :=
  if (activeRules s).any fun r => bitAt (ruleWord s r 3) (24 + n) then false
  else if (activeRules s).any fun r => bitAt (ruleWord s r 3) (16 + n) then true
  else bitAt (rget s castlePage Reg.castle.SAFE_AUX) n

/-- The demands of the site channel's aux channels (R526, R560, R563). -/
def siteDemands (on : Nat → Bool) (s : State) : State :=
  (List.range 8).foldl (fun s n => if chOwner s n = 1 then ownerDemand n (on n) s else s) s

/-- The table's outputs shown, and in force while it is in control (R562, R563). -/
def applyTable (s : State) : State :=
  let cap := tableCap s
  let on := tableAux s
  let s := rset castlePage Reg.castle.AUX_OUT (maskOf 8 on) (rset castlePage Reg.castle.CAP_OUT cap s)
  if castled s then
    siteDemands on (rset weirPage Reg.weir.SC_CAP_VALID 1 (rset weirPage Reg.weir.SC_CAP cap s))
  else s

/-- The table's power-state payload at the SITE_CHANNEL port (R563). -/
def injectTablePs (s : State) : State :=
  gwInject 10 1 (psPayload 0 (rget s castlePage Reg.castle.PS_HOLD) (rget s castlePage Reg.castle.CAP_OUT)
    (rget s castlePage Reg.castle.PS_MASK)) { s with sc := { s.sc with lastPs := some s.ck.dt } }

/-! ### Castling (R565) -/

/-- A cause of R565 arises: it is latched and recorded, and the hub castles unless it is castled already. -/
def castleEnter (bit : Nat) (s : State) : State :=
  let hard := hardCause bit
  let s := rset sitePage Reg.siteChannel.CAUSE_LATCH (putBit (rget s sitePage Reg.siteChannel.CAUSE_LATCH) bit true) s
  let s := raiseSev 0x9001 (severityOf 0x9001 hard) 12 0 bit (rget s sitePage Reg.siteChannel.FRAMES) s
  if castled s then
    if hard then { s with sc := { s.sc with hard := true, armed := false } } else s
  else
    let s := radd sitePage Reg.siteChannel.CASTLES 1 (rset sitePage Reg.siteChannel.LAST_CAUSE bit (alertSettle (rset sitePage Reg.siteChannel.CASTLED 1 s)))
    let s := if siteState s = 3 then setSite 2 s else s
    let s := { s with sc := { s.sc with castledAt := s.ck.dt, hard := hard, armed := s.sc.armed && !hard, inForce := none, lastPs := none } }
    let s := withCaps applyTable s
    irqPulse sitePage 8 (if rget s castlePage Reg.castle.PS_PERIOD = 0 then s else injectTablePs s)

/-- A POWER cause arises (R565): it castles an enabled channel, and one that is disabled where the table is not in control yet. -/
def powerCause (s : State) : State :=
  if castled s && !scEnabled s then s else castleEnter Cause.power { s with sc := { s.sc with lost := true } }

/-- The site channel goes back to LOADING for the reserved cores that `a` and `b` name: its pipeline stops, and with it the clocks of
both (R241, R544). -/
def siteUnload (a b : Bool) (s : State) : State :=
  if siteState s = 0 then s
  else
    let was := siteState s
    let s := setSite 1 { s with sc := { s.sc with loadedA := s.sc.loadedA && !a, loadedB := s.sc.loadedB && !b, pipe := [] } }
    if was = 1 then s else [0, 96].foldl (fun s g => if coreAssigned s g then s else stopClock g s) s

/-- A CORE cause of reserved core `g` (R544, R556). -/
def siteCoreFault (g : Nat) (s : State) : State := siteUnload (g == 0) (g == 96) (castleEnter Cause.core s)

end Sys2Proof.Machine
end

