-- ==== Sys2Proof/Machine/JobOps.lean ====
section
/-! DEFINITION. What a job's life does to its slot, cores and objects: states, faults, starting, ending (R371–R381). -/

namespace Sys2Proof.Machine

/-- STATE as the slot page shows it (R384). -/
def jobCode : JobState → Nat
  | .empty => 0
  | .loaded => 1
  | .starting => 2
  | .running => 3
  | .done => 4
  | .faulted => 5
  | .cancelled => 6

/-- A slot's state changes: STATE_CHANGE rises (R384). -/
def setJob (j : Nat) (st : JobState) (s : State) : State :=
  let x := slotGet s j
  if x.st = st then s else irqPulse (slotPage j) 8 (slotSet j { x with st := st } s)

/-- The slot holds cores, die SRAM and objects (R371). -/
def holdsCores (st : JobState) : Bool := decide (st = .loaded ∨ st = .starting ∨ st = .running)

/-- The slot that core `g` serves. -/
def slotOfCore (s : State) (g : Nat) : Option Nat :=
  if coreAssigned s g then some (rget s (corePage .core g) Reg.core.SLOT) else none

/-! ### Cores -/

/-- Core `g` stops where it is: its queues, loops, accumulators, SIGNALs and waiter are gone; ENDED and ERROR stay
(R373). -/
def stopCore (g : Nat) (s : State) : State :=
  let s := if seqState s g = 4 ∨ seqState s g = 5 then s else setSeq g 0 s
  { s with
    co := { s.co with run := s.co.run.filter (·.1 ≠ g) }
    sy := { s.sy with waiters := s.sy.waiters.filter (·.core ≠ g) } }

/-- Core `g` serves no job: its clock stops, and the rail and the caps follow the rest of its quadrant (R241, R242, R247). -/
def freeCore (g : Nat) (s : State) : State :=
  let s := rset (corePage .core g) Reg.core.SLOT_VALID 0 (rset (corePage .core g) Reg.core.SLOT 0 (stopCore g s))
  liftCaps (g / 4) (stopClock g (setRegime g 0 s))

/-- Core `g` starts at its stream's first descriptor (R294, R371). -/
def startCore (g base : Nat) (s : State) : State :=
  let p := seqPage g
  let s := stopCore g s
  let s := rset p Reg.sequencer.PC 0 (rset p Reg.sequencer.STREAM_BASE base s)
  let s := rset p Reg.sequencer.ERR_CODE 0 (rset p Reg.sequencer.ERR_PC 0 (rset p Reg.sequencer.WAIT_OBJ 0 s))
  seqResume g s

/-! ### Freeing what a job holds -/

/-- Every granule that a slot holds. -/
def heldGranules (x : Slot) : List Nat := x.copyGr ++ x.memGr.flatten

/-- Marked granules of a list become retired (R397). -/
def retireGranules (gs : List Nat) (s : State) : State :=
  { s with hbm := { s.hbm with marks := s.hbm.marks.map fun m => if gs.contains m.1 then (m.1, true) else m } }

/-- The NOTIFY sources of slot `j`'s windows fall with its objects (R325, R334). -/
def windowsFall (j : Nat) (s : State) : State :=
  match Assoc.get s.views j with
  | some (t, v) => (List.range 30).foldl (fun s w => irqLevel (winPage t v w) 8 false s) s
  | none => s

/-- Cores, die SRAM and objects of a slot return to the free pool (R319, R373). -/
def freeHeld (j : Nat) (s : State) : State :=
  let x := slotGet s j
  let s := if x.objs.isEmpty then s else windowsFall j s
  let s := objsFree (fun n => x.objs.any (·.2 == n)) s
  let s := x.cores.foldl (fun s g => freeCore g s) s
  retryAll (slotSet j { slotGet s j with objs := [], srams := [] } s)

/-! ### Faults (R372, R373, R375, R381) -/

/-- A cause that allows auto-restart; a peer's fault counts as the peer's cause (R372). -/
def autoCause (cause detail : Nat) : Bool :=
  let c := if cause = 8 then detail else cause
  decide (2 ≤ c ∧ c ≤ 7)

/-- The device may restart the slot's job by itself: a job of one device, or a group's leader (R375). -/
def mayRestart (x : Slot) : Bool := decide (groupSize x = 1 ∨ devIndex x = 0)

/-- A RESTART executes on slot `j`'s page: it has not reached RUNNING. -/
def restarting (s : State) (j : Nat) : Bool :=
  match (hget s (slotPage j)).cmd with
  | some r => r.opcode == 4 && r.final.isNone
  | none => false

/-- The job of slot `j` is faulted (R372, R373): the first cause is latched, every core stops, its resources are free,
and its peers hear of it. -/
def jobFault (j cause core detail dev : Nat) (s : State) : State :=
  let x := slotGet s j
  if !holdsCores x.st then s
  else
    let again := autoCause cause detail && mayRestart x && decide (x.autoCount < rget s (slotPage j) Reg.jobSlot.RESTART_LIMIT)
    let s := if (x.st = .starting ∨ x.st = .running) ∧ cause ≠ 8 then
        sendPeers j .fault (BitVec.ofNat 8 cause :: List.replicate 7 0) s
      else s
    let s := freeHeld j s
    let s := slotSet j { slotGet s j with cause := cause, fcore := core, fdetail := detail, fdev := dev,
                                          pendingRestart := again && decide (cause ≠ 9), faultAt := some s.ck.dt,
                                          announced := [], waitGroup := none } s
    let s := if restarting s j then endCmd (slotPage j) Code.faulted s else s
    let s := setJob j (if cause = 9 then .cancelled else .faulted) s
    closeSessions (if cause = 9 then s else irqPulse (slotPage j) 9 s)

/-- The job that core `g` serves is faulted; a fault of a reserved core castles (R40, R556). -/
def faultCore (g cause detail : Nat) (s : State) : State :=
  match slotOfCore s g with
  | some j => jobFault j cause g detail (devIndex (slotGet s j)) s
  | none => if reservedInUse s g then stopCore g (siteCoreFault g s) else s

/-- Every job that `uses` picks is faulted. -/
def faultWhere (uses : Slot → Bool) (cause : Nat) (s : State) : State :=
  (List.range 32).foldl (fun s j =>
    if uses (slotGet s j) then jobFault j cause 0xFF 0 (devIndex (slotGet s j)) s else s) s

/-- The physical dies a job uses: its own placement and the dies of its objects. -/
def usesDie (d : Nat) (x : Slot) : Bool :=
  holdsCores x.st && (x.dies.contains d || x.objs.any fun o => decide (o.2 < 49152) && o.2 / 4096 == d)

/-! ### Ends -/

/-- Core `g` reports END to its slot; with the last of them the job is DONE (R313, R374, R376). -/
def reportEnd (g : Nat) (s : State) : State :=
  match slotOfCore s g with
  | none => s
  | some j =>
    let x := slotGet s j
    let ended := if x.ended.contains g then x.ended else x.ended ++ [g]
    let s := slotSet j { x with ended := ended } s
    if x.st = .running && x.cores.all fun c => ended.contains c then
      closeSessions (setJob j .done (freeHeld j (slotSet j { slotGet s j with autoCount := 0 } s)))
    else s

/-! ### Starting (R378, R380) -/

/-- Every core of the slot starts; a RESTART that executes on its page ends with OK (R371, R385). -/
def runJob (j : Nat) (s : State) : State :=
  let x := slotGet s j
  match x.image with
  | none => s
  | some im =>
    let s := (x.cores.zip im.cores).foldl (fun s c => startCore c.1 c.2.base s) s
    let x := slotGet s j
    let s := setJob j .running (slotSet j { x with ended := [], pendingRestart := false } s)
    if restarting s j then endCmd (slotPage j) Code.ok s else s

/-- The rail of core `g`'s quadrant has settled and its synthesizer has locked (R243). -/
def coreSettled (s : State) (g : Nat) : Bool :=
  !(s.fq.relock.any (·.1 == g)) && !(s.fq.afterRail.any (·.1 == g)) && !(s.fq.rail.any (·.1 == g / 4))

/-- Every device of the group has announced STARTING and every core's clock stands: the job runs (R243, R380). A leader
first waits for its peers' results (R382). -/
def runIfReady (j : Nat) (s : State) : State :=
  let x := slotGet s j
  if x.st = .starting && x.waitGroup.isNone && ((peersOf x).all fun p => x.announced.contains (p, x.run))
      && x.cores.all (coreSettled s) then runJob j s
  else s

/-- Every job that waited for a clock and can run now. -/
def runReady (s : State) : State := (List.range 32).foldl (fun s j => runIfReady j s) s

/-- Big-endian bytes of the group's identity in an ANNOUNCE payload (R406). -/
def announcePayload (x : Slot) : List Byte :=
  match x.image with
  | some i => beBytes 8 i.jobId ++ i.certDigest
  | none => []

/-- A slot enters STARTING: sessions open, the announcement goes out, and a job of one device runs (R378, R380). -/
def startJob (j : Nat) (s : State) : State :=
  let s := slotSet j { slotGet s j with throttle := 0, canalInt := 0, stale := 0 } s
  let s := openSessions j (setJob j .starting s)
  runIfReady j (sendPeers j .announce (announcePayload (slotGet s j)) s)

end Sys2Proof.Machine
end

