-- ==== Sys2Proof/Machine/Operands.lean ====
section
/-! DEFINITION. Descriptors: their fields, stride control, the sizes of operands, and what job-relative names mean
(R294–R315, R326–R328, R352–R354). -/

namespace Sys2Proof.Machine

/-! ### Fields (R295, R302, R309, R311, R312, R314) -/

def Desc.op (d : Desc) : Nat := bitsOf d.w0 0 4
def Desc.dep (d : Desc) : Nat := bitsOf d.w0 4 4

def Desc.arrBase (d : Desc) : Nat := bitsOf d.w0 8 5
/-- Arrays used. -/
def Desc.arrays (d : Desc) : Nat := bitsOf d.w0 13 5 + 1
/-- The arrays that it names. -/
def Desc.arrayList (d : Desc) : List Nat := (List.range d.arrays).map (d.arrBase + ·)
/-- Tile rows. -/
def Desc.tileRows (d : Desc) : Nat := bitsOf d.w0 18 5 + 1
/-- Tile columns TN. -/
def Desc.tileCols (d : Desc) : Nat := d.arrays / d.tileRows
def Desc.fmtA (d : Desc) : Nat := bitsOf d.w0 23 3
def Desc.fmtB (d : Desc) : Nat := bitsOf d.w0 26 3
def Desc.init (d : Desc) : Nat := bitsOf d.w0 29 2
def Desc.drain (d : Desc) : Bool := bitAt d.w0 31
def Desc.aAddr (d : Desc) : Nat := bitsOf d.w1 0 18
/-- K. -/
def Desc.k (d : Desc) : Nat := bitsOf d.w1 18 14 + 1
def Desc.bAddr (d : Desc) : Nat := bitsOf d.w2 0 18
def Desc.dfmt (d : Desc) : Nat := bitsOf d.w2 18 3
def Desc.mmaMode (d : Desc) : Bool := bitAt d.w2 21
def Desc.shift (d : Desc) : Nat := bitsOf d.w2 22 5
def Desc.cAddr (d : Desc) : Nat := bitsOf d.w3 0 18

def Desc.vop (d : Desc) : Nat := bitsOf d.w0 8 6
def Desc.ifmt (d : Desc) : Nat := bitsOf d.w0 14 4
def Desc.ofmt (d : Desc) : Nat := bitsOf d.w0 18 4
def Desc.vecMode (d : Desc) : Bool := bitAt d.w0 22
def Desc.imm (d : Desc) : Bool := bitAt d.w0 23
def Desc.src0 (d : Desc) : Nat := bitsOf d.w1 0 18
/-- Elements. -/
def Desc.len (d : Desc) : Nat := bitsOf d.w1 18 14 + 1
def Desc.src1 (d : Desc) : Nat := bitsOf d.w2 0 18
def Desc.dst (d : Desc) : Nat := bitsOf d.w3 0 18

def Desc.eng (d : Desc) : Nat := bitsOf d.w0 8 1
def Desc.ssp (d : Desc) : Nat := bitsOf d.w0 9 3
def Desc.dsp (d : Desc) : Nat := bitsOf d.w0 12 3
def Desc.sdie (d : Desc) : Nat := bitsOf d.w0 15 4
def Desc.ddie (d : Desc) : Nat := bitsOf d.w0 19 4
def Desc.peer (d : Desc) : Nat := bitsOf d.w0 23 4
/-- Length of a transfer, 16 B units. -/
def Desc.dmaLen (d : Desc) : Nat := bitsOf d.w3 0 18

def Desc.act (d : Desc) : Bool := bitAt d.w0 8
def Desc.obj (d : Desc) : Nat := bitsOf d.w1 0 16
def Desc.cnt (d : Desc) : Nat := bitsOf d.w1 0 14
def Desc.body (d : Desc) : Nat := bitsOf d.w1 14 12

/-- The word that carries TGT and LVL: W2 of an MMA, W0 of the others (R302, R309, R311, R312). -/
def Desc.strideWord (d : Desc) : Nat := if d.op = 0 then d.w2 else d.w0
def Desc.tgt (d : Desc) : Nat := bitsOf d.strideWord 27 3
def Desc.lvl (d : Desc) : Nat := bitsOf d.strideWord 30 2
def Desc.stride (d : Desc) : Int := toInt 14 (bitsOf d.w3 18 14)

/-! ### Stride control (R315) -/

/-- The index of the loop that drives the stride. -/
def strideIndex (r : CoreRun) (d : Desc) : Nat :=
  match r.loops[d.lvl]? with
  | some l => l.i
  | none => 0

/-- A field stepped by TGT bit `t`. -/
def stepBy (r : CoreRun) (d : Desc) (t field : Nat) : Int :=
  if bitAt d.tgt t then (field : Int) + strideIndex r d * d.stride else field

/-- The operation takes SRC1. -/
def twoOperands (vop : Nat) : Bool := decide (vop ≤ 4) || vop == 15 || vop == 16 || decide (24 ≤ vop)

/-- `d` with its steppable fields at their stepped values (a VEC that reads no SRC1 steps none); none when a stepped address does not fit its field. -/
def stepped (r : CoreRun) (d : Desc) : Option Desc :=
  let fits := fun (w : Nat) (x : Int) => decide (0 ≤ x ∧ x < 2 ^ w)
  match d.op with
  | 0 =>
    let a := stepBy r d 0 d.aAddr
    let b := stepBy r d 1 d.bAddr
    let c := stepBy r d 2 d.cAddr
    if fits 18 a && fits 18 b && fits 18 c then
      some { d with w1 := putBits d.w1 0 18 a.toNat, w2 := putBits d.w2 0 18 b.toNat, w3 := putBits d.w3 0 18 c.toNat }
    else none
  | 1 =>
    let a := stepBy r d 0 d.src0
    let two := twoOperands d.vop && !d.imm
    let b := if two then stepBy r d 1 d.src1 else 0
    let c := stepBy r d 2 d.dst
    if fits 18 a && fits 18 b && fits 18 c then
      some { d with w1 := putBits d.w1 0 18 a.toNat, w2 := if two then putBits d.w2 0 18 b.toNat else d.w2,
                    w3 := putBits d.w3 0 18 c.toNat }
    else none
  | 2 =>
    let a := stepBy r d 0 d.w1
    let b := stepBy r d 1 d.w2
    if fits 32 a && fits 32 b then some { d with w1 := a.toNat, w2 := b.toNat } else none
  | 3 => some { d with w2 := ofInt 32 (stepBy r d 0 d.w2) }
  | 4 => some { d with w2 := ofInt 32 (stepBy r d 0 d.w2) }
  | _ => some d

/-! ### Sizes (R303, R304, R309, R310) -/

/-- `n` rounded up to 16. -/
def up16 (n : Nat) : Nat := (n + 15) / 16 * 16

/-- Bits of an MMA element. -/
def mmaBits (fmt : Nat) : Nat := if fmt ≤ 2 then 8 else if fmt ≤ 4 then 16 else 4
/-- The class that prices an MMA's operand format (R188, R192). -/
def mmaClass (fmt : Nat) : Nat := if mmaBits fmt = 16 then 2 else if mmaBits fmt = 4 then 1 else 0
/-- MXFP4 and MXI4 carry scales. -/
def mmaMx (fmt : Nat) : Bool := fmt == 5 || fmt == 6
/-- INT8 and INT4 accumulate in INT32. -/
def mmaInt (fmt : Nat) : Bool := fmt == 2 || fmt == 7

/-- Bytes of a band's elements, and of the whole band (R303). -/
def bandData (fmt k : Nat) : Nat := up16 (8 * k * mmaBits fmt / 8)
def bandSize (fmt k : Nat) : Nat := bandData fmt k + (if mmaMx fmt then up16 (8 * (k / 32)) else 0)

/-- Bytes of a drained element (R304). -/
def drainBytes (dfmt : Nat) : Nat := if dfmt = 0 then 4 else if dfmt ≤ 2 then 2 else 1

/-- VEC formats 7 and 8. -/
def vecMx (fmt : Nat) : Bool := fmt == 7 || fmt == 8
/-- Bytes of a vector of `n` elements (R309, R310). -/
def vecBytes (fmt n : Nat) : Nat :=
  match fmt with
  | 0 | 1 => 4 * n
  | 2 | 3 => 2 * n
  | 4 | 5 | 6 => n
  | _ => up16 (n / 2) + n / 32

/-- A byte range that starts at 16 B unit `u` leaves core SRAM. -/
def leavesCore (u n : Nat) : Bool := decide (coreSize < 16 * u + n)

/-! ### The job that a core serves (R300) -/

/-- The slot that core `g` serves, with its record and image. -/
def jobOf (s : State) (g : Nat) : Option (Nat × Slot × Image) :=
  match slotOfCore s g with
  | some j => (slotGet s j).image.map fun im => (j, slotGet s j, im)
  | none => none

/-- The physical object of job-relative local object `n` (R328). -/
def localObj (x : Slot) (n : Nat) : Option Nat := (x.objs.find? fun o => o.1 == n).map (·.2)

/-- OBJ names object x of device p (R326). -/
def remoteObj (x : Slot) (n : Nat) : Option (Nat × Nat) :=
  if 8192 ≤ n ∧ n < 8192 + 512 * 16 then
    let p := (n - 8192) / 512
    if p < groupSize x ∧ p ≠ devIndex x then some (p, (n - 8192) % 512) else none
  else none

/-- The region that holds job granule `g`, and the physical granule (R352, R393). -/
def granuleOf : List Region → List (List Nat) → Nat → Option (Region × Nat)
  | r :: rs, m :: ms, g =>
    if r.jbase ≤ g ∧ g < r.jbase + r.granules then (m[g - r.jbase]?).map fun x => (r, x) else granuleOf rs ms g
  | _, _, _ => none

/-- Pieces of [a, a + n) between edges of `k` bytes; `f` bounds their number. -/
def cutsAt (k : Nat) : Nat → Nat → Nat → List (Nat × Nat)
  | 0, _, _ => []
  | f + 1, a, n =>
    if n = 0 then []
    else
      let m := min n (k - a % k)
      (a, m) :: cutsAt k f (a + m) (n - m)

/-- The pieces of a range between 2 MiB edges. -/
def granuleCuts (a n : Nat) : List (Nat × Nat) := cutsAt granuleSize (n / granuleSize + 2) a n

/-- The physical pieces of a job-relative range, all of it in regions that `ok` allows; none otherwise (R311, R353). -/
def jobPieces (x : Slot) (im : Image) (ok : Region → Bool) (a n : Nat) : Option (List (Nat × Nat)) :=
  (granuleCuts a n).foldr (fun c acc =>
    match acc, granuleOf im.regions x.memGr (c.1 / granuleSize) with
    | some ps, some (r, g) => if ok r then some ((g * granuleSize + c.1 % granuleSize, c.2) :: ps) else none
    | _, _ => none) (some [])

/-- A region that a job's DMA or a peer's WRITE may write (R353, R413). -/
def writable (r : Region) : Bool := r.kind == 0 || r.kind == 2

/-- The physical place of a range of job die `d`'s die-shared SRAM; none outside the job's part (R311, R350). -/
def jobDieAt (x : Slot) (im : Image) (d a n : Nat) : Option (Nat × Nat) :=
  match im.dies[d]?, x.dies[d]?, x.srams[d]? with
  | some r, some p, some u => if a + n ≤ r.sram * 65536 then some (p, u * 65536 + a) else none
  | _, _, _ => none

/-- Byte address of a DMA field: 64 B units in the stacked spaces, else 16 B (R311). -/
def dmaByte (space v : Nat) : Nat := if space = 2 ∨ space = 4 then 64 * v else 16 * v

/-- Two ranges of `n` bytes meet. -/
def overlap (a b n : Nat) : Bool := decide (a < b + n ∧ b < a + n)

end Sys2Proof.Machine
end

