-- ==== Sys2Proof/Machine/Sync.lean ====
section
/-! DEFINITION. Chapter 12, and the AtomicOps of chapter 15: what clients do to sync objects (R334–R343, R438–R441). -/

namespace Sys2Proof.Machine

def bridgePage : Page := hubPage .bridge

/-- The bank or the page of object `n` is in drain (R339, R343). -/
def objDraining (s : State) (n : Nat) : Bool := draining s (objPage n) || draining s (objBank n)

/-! ### Plain writes to COUNT (R335) -/

/-- A plain write to COUNT in slot `i` of page `p`, which records what it refuses; an unused number is FREE. -/
def countTake (p : Page) (i v : Nat) (s : State) : State :=
  match pageObj s p i with
  | none => pgErr p Code.badArg s
  | some n =>
    let x := objGet s n
    if offline s (objPage n) then pgErr p Code.offline s
    else if objDraining s n then pgErr p Code.draining s
    else if ctrlHostSet x.1 && (ctrlType x.1 == 1 || ctrlType x.1 == 2) then
      objUpdate n (if ctrlType x.1 = 1 then v else (decide (v ≠ 0)).toNat) s
    else pgErr p Code.badArg s

/-- COUNT_WRITE (R335): PF0 by an object page, a VF by one of its windows (R334). -/
def execCountWrite (c : Client) (p : Page) (slot : Fin 256) (v : Word) (s : State) : Host.Outcome State Fault Refusal :=
  .next (inOrder c p (.write (0x400 + 4 * slot.val) v.toNat) (reaches c p (0x400 + 4 * slot.val) (countTake p slot.val v.toNat)) s)

/-! ### NOTIFY_PEND (R325, R343) -/

/-- The notify bit of object `n` cleared, and the sources that follow it. -/
def clearNotify (n : Nat) (s : State) : State := if notifyBit s n then notifyLevels n (setNotify n false s) else s

/-- A W1C write to word `w` of NOTIFY_PEND. -/
def notifyTake (p : Page) (w v : Nat) (s : State) : State :=
  if offline s p then pgErr p Code.offline s
  else
    (bitsSet 32 v).foldl (fun s k => match pageObj s p (32 * w + k) with
      | some n => clearNotify n s
      | none => s) s

/-- NOTIFY_CLEAR. -/
def execNotifyClear (c : Client) (p : Page) (w : Fin 8) (v : Word) (s : State) : Host.Outcome State Fault Refusal :=
  .next (inOrder c p (.write (0x040 + 4 * w.val) v.toNat) (reaches c p (0x040 + 4 * w.val) (notifyTake p w.val v.toNat)) s)

/-! ### Late responses (R340) -/

/-- The epoch that tags a block's responses: a bank shows its own (R342). -/
def blockEpoch (s : State) (p : Page) : Nat :=
  if p.blk = .syncBank then rget s p Reg.syncBank.EPOCH else (hget s p).epoch

/-- LATE_RESPONSE: a response whose tag matches no open entry of the requester, or whose epoch is no longer that of the block that sent
it, is discarded; the requester counts it where its page can, else the bank that sent it does. A request is performed in one step
here, so `tagOpen` says what the requester's entries hold. -/
def execLateResponse (requester bank : Page) (tagOpen : Bool) (epoch : BitVec 16) (s : State) : Host.Outcome State Fault Refusal :=
  .next (if tagOpen = true ∧ epoch.toNat = blockEpoch s bank then s
    else if requester.blk = .syncBank then radd requester Reg.syncBank.LATE_DISCARDS 1 s
    else if bank.blk = .syncBank then radd bank Reg.syncBank.LATE_DISCARDS 1 s
    else s)

/-! ### AtomicOps (R336, R430, R438–R441, R573) -/

/-- The object that an AtomicOp's control-space address names, with the page that answers for the access: `none` for an
address that no directory lists. -/
inductive AtomicPlace where
  | unlisted (head : Page)
  | other (p : Page)
  | object (p : Page) (n : Nat) (aligned : Bool)
deriving DecidableEq, Repr

/-- PF0's address. -/
def pf0Place (s : State) (a : Nat) : AtomicPlace :=
  match s.dir.find? fun e => e.page.die == a / 2 ^ 22 && e.num == a / 2 ^ 12 % 1024 with
  | none => .unlisted headPage
  | some e =>
    let off := a % 4096
    if e.page.blk = .objectPage ∧ 0x400 ≤ off ∧ off < 0x800 ∧ off % 4 = 0 then
      .object e.page (objAt e.page ((off - 0x400) / 4)) (decide (off % 8 = 0))
    else .other e.page

/-- A VF's BAR0 offset: window pages alone hold objects (R334, R440). -/
def vfPlace (s : State) (t a : Nat) : AtomicPlace :=
  let k := a / 4096
  let off := a % 4096
  let head := vfHead t
  if 16 ≤ k ∧ k < 256 then
    let j := (k - 16) / 30
    let w := (k - 16) % 30
    if 0x400 ≤ off ∧ off < 0x800 ∧ off % 4 = 0 then
      match winObj s t j w ((off - 0x400) / 4) with
      | some n => .object (winPage t j w) n (decide (off % 8 = 0))
      | none => .other (winPage t j w)
    else .other (winPage t j w)
  else if k = 0 then .other head
  else if k = 9 then .other { blk := .tenantEnergy, inst := t, die := 12 }
  else
    match s.views.find? fun v => v.2 == (t, k - 1) with
    | some v => if k ≤ 8 then .other { blk := .jobSlot, inst := v.1, die := 12 } else .unlisted head
    | none => .unlisted head

/-- Completer Abort, with what the page records (R336). -/
def atomicAbort (p : Page) (code : Nat) (s : State) : State :=
  send (.completion .abort []) (radd bridgePage Reg.bridge.CA_SENT 1 (pgErr p code s))

/-- The bank counts an AtomicOp that ends with Completer Abort (R342). -/
def bankAbort (n : Nat) (s : State) : State := radd (objBank n) Reg.syncBank.ATOMIC_ABORTS 1 s

/-- The new COUNT values that a permitted AtomicOp leaves, with the original value; none where R336 permits none.
`f` gives the new value, or none where a compare fails. -/
def atomicNew (s : State) (n : Nat) (wide aligned : Bool) (fetchAdd : Bool) (operand : Nat)
    (f : Nat → Option Nat) : Option (Nat × List (Nat × Nat)) :=
  let x := objGet s n
  let t := ctrlType x.1
  if wide then
    if aligned && t == 1 && ctrlPair x.1 then
      let old := x.2 + (objGet s (n + 1)).2 * 2 ^ 32
      some (old, match f old with
        | some v => [(n, v % 2 ^ 32), (n + 1, v / 2 ^ 32 % 2 ^ 32)]
        | none => [])
    else none
  else if fetchAdd then
    if t = 1 ∨ (t = 3 ∧ operand = 1) then
      let new := signalled x.1 x.2 false operand
      let carry := t == 1 && ctrlPair x.1 && decide (2 ^ 32 ≤ x.2 + operand)
      some (x.2, (n, new) :: (if carry then [(n + 1, ((objGet s (n + 1)).2 + 1) % 2 ^ 32)] else []))
    else none
  else if t = 1 ∨ t = 2 then
    some (x.2, match f x.2 with
      | some v => [(n, if t = 1 then v else (decide (v ≠ 0)).toNat)]
      | none => [])
  else none

/-- An AtomicOp of function `fn` on object `n` behind page `p` (R336, R438). It comes over the spine and counts a sync operation at the
object's die under the function's tag (R23, R214). -/
def atomicOn (fn : Nat) (p : Page) (n : Nat) (wide aligned fetchAdd : Bool) (operand : Nat) (f : Nat → Option Nat) (s : State) : State :=
  if offline s (objPage n) then atomicAbort p Code.offline s
  else if objDraining s n then atomicAbort p Code.draining (bankAbort n s)
  else
    match atomicNew s n wide aligned fetchAdd operand f with
    | none => atomicAbort p Code.badArg (bankAbort n s)
    | some (old, ws) =>
      let s := if objDie n ≤ 11 then countAt (objDie n) 0 14 1 (.func (Fin.ofNat 16 fn)) s else s
      let s := ws.foldl (fun s x => objUpdate x.1 x.2 s) s
      send (.completion .ok (leBytes (if wide then 8 else 4) old)) (rwrap bridgePage Reg.bridge.ATOMICS 1 s)

/-- A request that no BAR takes, or that the bridge does not support (R430). -/
def unsupported (s : State) : State :=
  send (.completion .unsupported []) (radd bridgePage Reg.bridge.UR_SENT 1 s)

/-- An AtomicOp of function `c` at a target (R336, R440). -/
def atomicAt (c : Client) (t : AtomicTarget) (wide fetchAdd : Bool) (operand : Nat) (f : Nat → Option Nat) (s : State) : State :=
  if !clientUp s c then s
  else
    match c, t with
    | .pf0, .bar2 _ => atomicAbort bridgePage Code.badArg s
    | .pf0, .control a =>
      (match pf0Place s a.toNat with
      | .unlisted h => atomicAbort h Code.badAddr s
      | .other p =>
        if fuseDenied s c p.blk then recordDenied c p (a.toNat % 4096) (atomicAbort p Code.deniedFuse s)
        else atomicAbort p Code.badArg s
      | .object p n al =>
        if fuseDenied s c p.blk then recordDenied c p (a.toNat % 4096) (atomicAbort p Code.deniedFuse (bankAbort n s))
        else atomicOn 0 p n wide al fetchAdd operand f s)
    | .vf i, .vfBar0 a =>
      (match vfPlace s (i.val + 1) a.toNat with
      | .unlisted h => atomicAbort h Code.badAddr s
      | .other p => atomicAbort p Code.badArg s
      | .object p n al => atomicOn (i.val + 1) p n wide al fetchAdd operand f s)
    | .pf0, _ => unsupported s
    | .vf _, _ => unsupported s
    | _, _ => s

/-- ATOMIC_FETCHADD (R336, R438). -/
def execAtomicFetchAdd (c : Client) (t : AtomicTarget) (wide : Bool) (operand : BitVec 64) (s : State) :
    Host.Outcome State Fault Refusal :=
  .next (let v := operand.toNat % 2 ^ (if wide then 64 else 32)
    atomicAt c t wide true v (fun old => some ((old + v) % 2 ^ 64)) s)

/-- ATOMIC_CAS (R336, R438). -/
def execAtomicCas (c : Client) (t : AtomicTarget) (wide : Bool) (compare swap : BitVec 64) (s : State) :
    Host.Outcome State Fault Refusal :=
  .next (let w := if wide then 64 else 32
    atomicAt c t wide false 0 (fun old => if old = compare.toNat % 2 ^ w then some (swap.toNat % 2 ^ w) else none) s)

end Sys2Proof.Machine
end

