-- ==== Sys2Proof/Machine/BridgeOps.lean ====
section
/-! DEFINITION. The host bridge's own state: its transfers in progress and its resets (R157, R442–R446). -/

namespace Sys2Proof.Machine

def dmaPage (f : Nat) : Page := pageOf .bridgeDma f 12

/-- The link is up and the bridge runs. -/
def linkUp (s : State) : Bool := hubRuns s && decide (rget s bridgePage Reg.bridge.RATE ≠ 0)

/-- The transfer of channel `f`, if one waits for host data, ends with `code` (R444). -/
def endXfer (f code : Nat) (s : State) : State :=
  if s.br.xfers.any (·.1 == f) then
    endCmd (dmaPage f) code { s with br := { s.br with xfers := s.br.xfers.filter (·.1 ≠ f) } }
  else s

/-- Every channel's transfer is aborted. -/
def abortXfers (s : State) : State := (List.range 16).foldl (fun s f => endXfer f Code.aborted s) s

/-- MSI-X state and contexts of VF `t` are reset, and its accesses that still wait end unperformed, an entry begun for
one staying VOID (R62, R87, R445). -/
def resetVf (t : Nat) (s : State) : State :=
  { s with
    br := { s.br with msixOn := s.br.msixOn.filter (· ≠ t), unmasked := s.br.unmasked.filter (·.1 ≠ t), pba := s.br.pba.filter (·.1 ≠ t),
                      mrrs := s.br.mrrs.filter (·.1 ≠ t) }
    ctx := s.ctx.filter fun x => x.1.2 ≠ t
    jr := { s.jr with
      deferred := s.jr.deferred.filter fun w => decide (w.client.index ≠ t)
      writing := if s.jr.deferred.head?.any fun w => decide (w.client.index = t) then none else s.jr.writing } }

/-- VF Enable is cleared: every VF is gone (R446). -/
def removeVfs (s : State) : State :=
  let s := (List.range 15).foldl (fun s i => resetVf (i + 1) (endXfer (i + 1) Code.aborted s)) s
  { s with br := { s.br with vfEnable := false } }

/-- PF0's configuration at reset (R446). -/
def resetPf0 (s : State) : State :=
  { s with br := { s.br with
      msixOn := s.br.msixOn.filter (· ≠ 0), unmasked := s.br.unmasked.filter (·.1 ≠ 0), pba := s.br.pba.filter (·.1 ≠ 0),
      mrrs := s.br.mrrs.filter (·.1 ≠ 0) } }

/-- The host bridge and its PCIe state at reset, the link down (R153, R157). -/
def bridgeReset (s : State) : State :=
  let s := resetPf0 (removeVfs (abortXfers s))
  (List.range 16).foldl (fun s f => rclear (dmaPage f) (fun _ => false) s) (rclear bridgePage (fun _ => false) s)

end Sys2Proof.Machine
end

