-- ==== Sys2Proof/Machine/Numerics.lean ====
section
/-! DEFINITION. The arithmetic of chapter 10: formats, exact sums with one rounding, conversions, and the functions of
the vector unit. Every value is exact until it is rounded. -/

namespace Sys2Proof.Machine

/-- A floating-point datum: ±m·2^e where finite. A zero keeps its sign. -/
inductive Fp where
  | nan
  | inf (neg : Bool)
  | fin (neg : Bool) (m : Nat) (e : Int)
deriving DecidableEq, Repr

/-- The floating-point formats of R271: significand bits with the hidden one, bias, the code of the largest finite
value, the code of infinity under INF, the canonical NaN, the width. -/
structure FFmt where
  p    : Nat
  bias : Nat
  top  : Nat
  infC : Nat
  nanC : Nat
  w    : Nat
deriving DecidableEq, Repr

def e4m3 : FFmt := { p := 4, bias := 7, top := 0x7E, infC := 0x7F, nanC := 0x7F, w := 8 }
def e5m2 : FFmt := { p := 3, bias := 15, top := 0x7B, infC := 0x7C, nanC := 0x7F, w := 8 }
def fp16 : FFmt := { p := 11, bias := 15, top := 0x7BFF, infC := 0x7C00, nanC := 0x7E00, w := 16 }
def bf16 : FFmt := { p := 8, bias := 127, top := 0x7F7F, infC := 0x7F80, nanC := 0x7FC0, w := 16 }
def fp32 : FFmt := { p := 24, bias := 127, top := 0x7F7FFFFF, infC := 0x7F800000, nanC := 0x7FC00000, w := 32 }

/-- The datum that a code spells (R271, R277). -/
def FFmt.decode (f : FFmt) (v : Nat) : Fp :=
  let neg := bitAt v (f.w - 1)
  let a := v % 2 ^ (f.w - 1)
  if f.top < a then (if a = f.infC ∧ f.infC ≠ f.nanC then .inf neg else .nan)
  else
    let ex := a / 2 ^ (f.p - 1)
    let fr := a % 2 ^ (f.p - 1)
    if ex = 0 then .fin neg fr (2 - f.bias - f.p) else .fin neg (2 ^ (f.p - 1) + fr) ((ex : Int) + 1 - f.bias - f.p)

/-- m / 2^s rounded to nearest, ties to even. -/
def rneShift (m s : Nat) : Nat :=
  let q := m / 2 ^ s
  let r := m % 2 ^ s
  if 2 * r < 2 ^ s then q else if 2 ^ s < 2 * r then q + 1 else q + q % 2

/-- The code of m·2^e rounded to nearest-even at the format's precision, subnormals included, with no bound above
(R278). -/
def FFmt.roundCode (f : FFmt) (m : Nat) (e : Int) : Nat :=
  if m = 0 then 0
  else
    let q := max (e + (Nat.log2 m : Int) + 1 - f.p) (2 - f.bias - f.p)
    let r := if q ≤ e then m * 2 ^ (e - q).toNat else rneShift m (q - e).toNat
    (q + f.p + f.bias - 2).toNat * 2 ^ (f.p - 1) + r

/-- The sign bit of a format. -/
def FFmt.sign (f : FFmt) (neg : Bool) : Nat := neg.toNat * 2 ^ (f.w - 1)

/-- A datum converted to a format: SAT for `mode` false, INF for true (R278, R279). -/
def FFmt.encode (f : FFmt) (mode : Bool) : Fp → Nat
  | .nan => f.nanC
  | .inf neg => f.sign neg + (if mode then f.infC else f.top)
  | .fin neg m e =>
    let c := f.roundCode m e
    f.sign neg + (if f.top < c then (if mode then f.infC else f.top) else c)

/-- FP32 bits of a datum, overflow to infinity (IEEE 754). -/
def toF32 (x : Fp) : Nat := fp32.encode true x

/-- The datum of FP32 bits. -/
def ofF32 (v : Nat) : Fp := fp32.decode v

/-! ### Exact sums and products -/

/-- The signed significand of ±m. -/
def signed (neg : Bool) (m : Nat) : Int := if neg then -(m : Int) else m

/-- The exact product; inf · 0 is a NaN. -/
def Fp.mul : Fp → Fp → Fp
  | .nan, _ => .nan
  | _, .nan => .nan
  | .inf a, .inf b => .inf (a != b)
  | .inf a, .fin b m _ => if m = 0 then .nan else .inf (a != b)
  | .fin a m _, .inf b => if m = 0 then .nan else .inf (a != b)
  | .fin a m e, .fin b n k => .fin (a != b) (m * n) (e + k)

def Fp.neg : Fp → Fp
  | .nan => .nan
  | .inf a => .inf !a
  | .fin a m e => .fin (!a) m e

/-- The least exponent of the finite terms. -/
def minExp : List Fp → Int → Int
  | [], e => e
  | .fin _ _ k :: xs, e => minExp xs (min k e)
  | _ :: xs, e => minExp xs e

/-- The exact sum of a list with the rules of IEEE 754 for infinities, NaN and the sign of zero (R275). -/
def fpSum (xs : List Fp) : Fp :=
  if xs.any (· = .nan) then .nan
  else
    let pos := xs.any (· = .inf false)
    let neg := xs.any (· = .inf true)
    if pos && neg then .nan
    else if pos then .inf false
    else if neg then .inf true
    else
      let e := minExp xs 0
      let t := xs.foldl (fun a x => match x with
        | .fin n m k => a + signed n (m * 2 ^ (k - e).toNat)
        | _ => a) (0 : Int)
      let allNeg := !xs.isEmpty && xs.all fun x => match x with
        | .fin n _ _ => n
        | _ => false
      .fin (if t = 0 then allNeg else decide (t < 0)) t.natAbs e

/-- One accumulator step in FP32 bits (R275). -/
def stepF (a : Nat) (terms : List Fp) : Nat := toF32 (fpSum (ofF32 a :: terms))

/-- One accumulator step in INT32 (R275). -/
def stepI (a : Nat) (terms : List Int) : Nat := ofInt 32 (toInt 32 a + terms.foldl (· + ·) 0)

/-! ### Narrow integers and MX elements (R271, R273) -/

/-- E2M1: the datum of a 4-bit code. -/
def decodeE2M1 (c : Nat) : Fp :=
  let ex := c / 2 % 4
  let neg := bitAt c 3
  if ex = 0 then .fin neg (c % 2) (-1) else .fin neg (2 + c % 2) ((ex : Int) - 2)

/-- MXI4: i·2^-2. -/
def decodeMXI4 (c : Nat) : Fp :=
  let i := toInt 4 c
  .fin (decide (i < 0)) i.natAbs (-2)

/-- The E8M0 scale `sc` applied to a datum; scale 0xFF makes a NaN (R275, R282). -/
def scaled (sc : Nat) (x : Fp) : Fp :=
  if sc = 255 then .nan
  else match x with
    | .fin n m e => .fin n m (e + sc - 127)
    | y => y

/-! ### Drains and conversions (R279, R280) -/

/-- INT32 to FP32 bits under R278. -/
def i32ToF32 (v : Nat) : Nat :=
  let i := toInt 32 v
  toF32 (.fin (decide (i < 0)) i.natAbs 0)

/-- `i` held between `lo` and `hi`. -/
def clampInt (lo hi i : Int) : Int := max lo (min hi i)

/-- INT32 to INT8 with the shift s (R280). -/
def i32ToI8 (v s : Nat) : Nat := ofInt 8 (clampInt (-128) 127 (roundEven ((toInt 32 v : Rat) / (2 ^ s : Nat))))

/-! ### Quantization (R281) -/

/-- ⌊log2⌋ of a finite non-zero magnitude. -/
def Fp.logB : Fp → Int
  | .fin _ m e => (Nat.log2 m : Int) + e
  | _ => 0

/-- The larger magnitude of two finite data. -/
def magLt (a b : Fp) : Bool :=
  match a, b with
  | .fin _ m e, .fin _ n k => let z := min e k; decide (m * 2 ^ (e - z).toNat < n * 2 ^ (k - z).toNat)
  | _, _ => false

/-- A magnitude on the E2M1 grid, ties to even, held at 6: its 3-bit code. -/
def e2m1Code (m : Nat) (e : Int) : Nat :=
  let f : FFmt := { p := 2, bias := 1, top := 7, infC := 7, nanC := 7, w := 4 }
  min 7 (f.roundCode m e)

/-- m·2^e to the nearest integer, ties to even, exponents of either sign. -/
def rneInt (neg : Bool) (m : Nat) (e : Int) : Int :=
  signed neg (if 0 ≤ e then m * 2 ^ e.toNat else rneShift m (-e).toNat)

/-- QMX of 32 values: the scale and the 4-bit elements (R281). -/
def qmx (mxi4 : Bool) (vs : List Fp) : Nat × List Nat :=
  if vs.any fun v => match v with
      | .fin _ _ _ => false
      | _ => true
  then (255, vs.map fun _ => 0)
  else
    let m := vs.foldl (fun a v => if magLt a v then v else a) (.fin false 0 0)
    if magLt (.fin false 0 0) m = false then (0, vs.map fun _ => 0)
    else
      let e := clampInt (-127) 127 (m.logB - (if mxi4 then 0 else 2))
      ((e + 127).toNat, vs.map fun v => match v with
        | .fin n k x =>
          if mxi4 then ofInt 4 (clampInt (-8) 7 (rneInt n k (x - e + 2)))
          else n.toNat * 8 + e2m1Code k (x - e)
        | _ => 0)

/-! ### The functions of R283: exact results rounded once -/

/-- The quotient n·2^e / d with a sticky bit below 64 bits of quotient: rounds as the exact quotient does. -/
def quotient (neg : Bool) (n : Nat) (d : Nat) (e : Int) : Fp :=
  let k := Nat.log2 d + 64
  let q := n * 2 ^ k / d
  .fin neg (2 * q + (if n * 2 ^ k % d = 0 then 0 else 1)) (e - k - 1)

def Fp.div : Fp → Fp → Fp
  | .nan, _ => .nan
  | _, .nan => .nan
  | .inf _, .inf _ => .nan
  | .inf a, .fin b _ _ => .inf (a != b)
  | .fin a _ _, .inf b => .fin (a != b) 0 0
  | .fin a m e, .fin b n k =>
    if n = 0 then (if m = 0 then .nan else .inf (a != b))
    else quotient (a != b) m n (e - k)

/-- The square root of m·2^e with a sticky bit. -/
def sqrtFin (m : Nat) (e : Int) : Fp :=
  let m' := if e % 2 = 0 then m * 2 ^ 128 else m * 2 ^ 129
  let e' := if e % 2 = 0 then e - 128 else e - 129
  let r := Nat.sqrt m'
  .fin false (2 * r + (if r * r = m' then 0 else 1)) (e' / 2 - 1)

def Fp.sqrt : Fp → Fp
  | .nan => .nan
  | .inf neg => if neg then .nan else .inf false
  | .fin neg m e => if m = 0 then .fin neg 0 0 else if neg then .nan else sqrtFin m e

def fpOne : Fp := .fin false 1 0

/-- 1 / sqrt(x): the root of the exact reciprocal, with sticky bits throughout. -/
def Fp.rsqrt : Fp → Fp
  | .nan => .nan
  | .inf neg => if neg then .nan else .fin false 0 0
  | .fin neg m e =>
    if m = 0 then .inf neg
    else if neg then .nan
    else
      let e' := if e % 2 = 0 then -e else -e - 1
      let n := if e % 2 = 0 then 2 ^ (2 * Nat.log2 m + 256) else 2 ^ (2 * Nat.log2 m + 257)
      let r := Nat.sqrt (n / m)
      .fin false (2 * r + (if r * r * m = n then 0 else 1)) ((e' - 2 * (Nat.log2 m : Int) - 256) / 2 - 1)

/-! #### Fixed point: integers in units of 2^-512 (log entry 14) -/

def fxBits : Nat := 512
def fxOne : Int := 2 ^ 512
def fxMul (a b : Int) : Int := a * b / 2 ^ 512
def fxDiv (a b : Int) : Int := if b = 0 then 0 else a * 2 ^ 512 / b

/-- A finite datum in fixed point. -/
def Fp.fx : Fp → Int
  | .fin n m e => signed n (if 0 ≤ e + 512 then m * 2 ^ (e + 512).toNat else m / 2 ^ (-(e + 512)).toNat)
  | _ => 0

/-- A fixed-point number times 2^k as a datum. -/
def ofFx (v : Int) (k : Int) : Fp := .fin (decide (v < 0)) v.natAbs (k - 512)

/-- Σ t^(2i+1) / (2i+1) for i < n: atanh t. -/
def atanhSum (t2 : Int) : Nat → Nat → Int → Int
  | 0, _, _ => 0
  | n + 1, i, p => p / (2 * i + 1 : Nat) + atanhSum t2 n (i + 1) (fxMul p t2)

def fxAtanh (t : Int) : Int := atanhSum (fxMul t t) 340 0 t

/-- ln 2. -/
def fxLn2 : Int := 2 * fxAtanh (fxOne / 3)

/-- Σ r^i / i! for i < n, from the term `p` on. -/
def expSum (r : Int) : Nat → Nat → Int → Int
  | 0, _, _ => 0
  | n + 1, i, p => p + expSum r n (i + 1) (fxMul p r / (i + 1 : Nat))

/-- e^x = E·2^k with E in fixed point, for x in fixed point. -/
def fxExp (x : Int) : Int × Int :=
  let k := x / fxLn2
  (expSum (x - k * fxLn2) 130 0 fxOne, k)

/-- ln of m·2^e, m > 0. -/
def fxLn (m : Nat) (e : Int) : Int :=
  let b := Nat.log2 m
  let s : Int := (m * 2 ^ 512 : Nat) / (2 ^ b : Nat)
  2 * fxAtanh (fxDiv (s - fxOne) (s + fxOne)) + (e + b) * fxLn2

/-- x beyond ±`b`, for the ends of a function's range. -/
def beyond (b : Nat) (m : Nat) (e : Int) : Bool := magLt (.fin false b 0) (.fin false m e)

/-- e^x (R283). -/
def Fp.exp : Fp → Fp
  | .nan => .nan
  | .inf neg => if neg then .fin false 0 0 else .inf false
  | .fin neg m e =>
    if m = 0 then fpOne
    else if beyond 110 m e then (if neg then .fin false 1 (-400) else .inf false)
    else let r := fxExp (Fp.fx (.fin neg m e)); ofFx r.1 r.2

/-- 2^x (R283); exact at whole x. -/
def Fp.exp2 : Fp → Fp
  | .nan => .nan
  | .inf neg => if neg then .fin false 0 0 else .inf false
  | .fin neg m e =>
    if m = 0 then fpOne
    else if beyond 160 m e then (if neg then .fin false 1 (-400) else .inf false)
    else
      let x := Fp.fx (.fin neg m e)
      if x % fxOne = 0 ∧ -512 ≤ e then .fin false 1 (x / fxOne)
      else let r := fxExp (fxMul (x % fxOne) fxLn2); ofFx r.1 (r.2 + x / fxOne)

/-- ln x (R283). -/
def Fp.log : Fp → Fp
  | .nan => .nan
  | .inf neg => if neg then .nan else .inf false
  | .fin neg m e =>
    if m = 0 then .inf true
    else if neg then .nan
    else
      let v := fxLn m e
      if m = 2 ^ Nat.log2 m ∧ e + Nat.log2 m = 0 then .fin false 0 0 else ofFx v 0

/-- log2 x (R283); exact at powers of two. -/
def Fp.log2 : Fp → Fp
  | .nan => .nan
  | .inf neg => if neg then .nan else .inf false
  | .fin neg m e =>
    if m = 0 then .inf true
    else if neg then .nan
    else if m = 2 ^ Nat.log2 m then
      let k := e + Nat.log2 m
      .fin (decide (k < 0)) k.natAbs 0
    else ofFx (fxDiv (fxLn m e) fxLn2) 0

/-- e^x as fixed point for |x| small enough to fit, x in fixed point. -/
def fxExpFull (x : Int) : Int :=
  let r := fxExp x
  if 0 ≤ r.2 then r.1 * 2 ^ r.2.toNat else r.1 / 2 ^ (-r.2).toNat

/-- tanh x (R283). -/
def Fp.tanh : Fp → Fp
  | .nan => .nan
  | .inf neg => .fin neg 1 0
  | .fin neg m e =>
    if m = 0 then .fin neg 0 0
    else if beyond 12 m e then .fin neg 1 0
    else
      let x := Fp.fx (.fin false m e)
      let y := fxExpFull (2 * x)
      let t := fxDiv (y - fxOne) (y + fxOne)
      ofFx (signed neg t.toNat) 0

/-- 1 / (1 + e^-x) (R283). -/
def Fp.sigmoid : Fp → Fp
  | .nan => .nan
  | .inf neg => if neg then .fin false 0 0 else fpOne
  | .fin neg m e =>
    if !neg && beyond 20 m e then fpOne
    else if neg && beyond 110 m e then .fin false 1 (-400)
    else
      let y := fxExpFull (Fp.fx (.fin (!neg) m e))
      ofFx (fxDiv fxOne (fxOne + y)) 0

/-- Σ (−1)^i x^(2i+1) / (i! (2i+1)), from the term x^(2i+1)/i! = `p` on. -/
def erfSum (x2 : Int) : Nat → Nat → Int → Int
  | 0, _, _ => 0
  | n + 1, i, p => p / (2 * i + 1 : Nat) - erfSum x2 n (i + 1) (fxMul p x2 / (i + 1 : Nat))

/-- arctan(1/d) by its series. -/
def atanInv (d : Nat) : Nat → Nat → Int → Int
  | 0, _, _ => 0
  | n + 1, i, p => p / (2 * i + 1 : Nat) - atanInv d n (i + 1) (p / (d * d : Nat))

/-- π = 16 arctan(1/5) − 4 arctan(1/239). -/
def fxPi : Int := 16 * atanInv 5 120 0 (fxOne / 5) - 4 * atanInv 239 40 0 (fxOne / 239)

/-- erf x (R283). -/
def Fp.erf : Fp → Fp
  | .nan => .nan
  | .inf neg => .fin neg 1 0
  | .fin neg m e =>
    if m = 0 then .fin neg 0 0
    else if beyond 5 m e then .fin neg 1 0
    else
      let x := Fp.fx (.fin false m e)
      let rootPi : Int := Nat.sqrt (fxPi.toNat * 2 ^ 512)
      let t := fxDiv (2 * erfSum (fxMul x x) 260 0 x) rootPi
      ofFx (signed neg t.toNat) 0

/-! ### Maximum, minimum and reductions (R283, R285) -/

/-- a < b, with −0 below +0. -/
def fpLess : Fp → Fp → Bool
  | .nan, _ => false
  | _, .nan => false
  | .inf a, .inf b => a && !b
  | .inf a, .fin _ _ _ => a
  | .fin _ _ _, .inf b => !b
  | .fin a m e, .fin b n k =>
    if a && !b then true
    else if !a && b then false
    else if a then magLt (.fin false n k) (.fin false m e)
    else magLt (.fin false m e) (.fin false n k)

def Fp.max (a b : Fp) : Fp := if a = .nan ∨ b = .nan then .nan else if fpLess a b then b else a
def Fp.min (a b : Fp) : Fp := if a = .nan ∨ b = .nan then .nan else if fpLess a b then a else b

/-- x + y in FP32 bits. -/
def addF (a b : Nat) : Nat := toF32 (fpSum [ofF32 a, ofF32 b])
def mulF (a b : Nat) : Nat := toF32 ((ofF32 a).mul (ofF32 b))

/-- Lane `j` of 64 combines elements j, j + 64, … in ascending order (R285). -/
def lane (op : Nat → Nat → Nat) (unit : Nat) (xs : List Nat) (j : Nat) : Nat :=
  match (xs.zipIdx.filter fun x => x.2 % 64 == j).map (·.1) with
  | [] => unit
  | x :: ys => ys.foldl op x

/-- Lanes combined in pairs (i, i + h), then h / 2 (R285). -/
def tree (op : Nat → Nat → Nat) : Nat → List Nat → Nat
  | 0, xs => xs.getD 0 0
  | n + 1, xs => tree op n ((List.range (2 ^ n)).map fun i => op (xs.getD i 0) (xs.getD (i + 2 ^ n) 0))

/-- A vector reduction in FP32 bits (R285). -/
def reduce (op : Nat → Nat → Nat) (unit : Nat) (xs : List Nat) : Nat :=
  tree op 6 ((List.range 64).map (lane op unit xs))

end Sys2Proof.Machine
end

