-- ==== Sys2Proof/Machine/WordChecks.lean ====
section
/-! DEFINITION. The values that a register word may take: the ranges of the register tables and what the page descriptions
add. A write outside them is discarded and records BAD_ARG. -/

namespace Sys2Proof.Machine

/-- A field's part of a written word lies in the field's range. -/
def FieldAt.inRange (x : FieldAt) (v : Nat) : Bool :=
  match x.fld.range with
  | some (lo, hi) => decide (lo ≤ x.bits v ∧ x.bits v ≤ hi)
  | none => true

/-- Every writable field of the word is in range. -/
def fieldsInRange (b : Block) (off v : Nat) : Bool :=
  (fieldsAt b off).all fun x => x.fld.acc = .ro || x.inRange v

/-- A slot pair of the gateway's archive: aligned, inside the archive region and the flash (R159, R483). -/
def gwArchiveOk (s : State) (v : Nat) : Bool :=
  decide (v % 2 ^ 19 = 0 ∧ 0x10000 ≤ v ∧ v + 2 ^ 20 ≤ flashSize s)

/-- A pair of site-record slots inside the flash (R568). -/
def scArchiveOk (s : State) (v : Nat) : Bool := decide (v % 2 ^ 22 = 0 ∧ v + 2 ^ 23 ≤ flashSize s)

/-- No reserved field of a word of a Castle rule is set (R561). -/
def ruleWordOk (w v : Nat) : Bool :=
  if w = 0 then
    bitsOf v 13 3 == 0 && bitsOf v 24 8 == 0 && decide (bitsOf v 8 3 < 6)
      && (bitsOf v 6 2 != 2 || decide (v % 64 < 8))
  else true

/-- What the page descriptions add to the ranges. -/
def wordOk (s : State) (p : Page) (off v : Nat) : Bool :=
  fieldsInRange p.blk off v &&
    (match p.blk with
     | .gateway =>
       if off = 0x040 then gwArchiveOk s v
       else if off = 0x04C then v % 128 == 0
       else if 0x060 ≤ off ∧ off < 0x080 then
         decide (guarSum s - guar s ((off - 0x060) / 4) + bitsOf v 0 10 ≤ 4096)
       else true
     | .siteChannel =>
       if off = 0x06C then scArchiveOk s v
       else if 0x300 ≤ off ∧ off < 0x500 ∧ off % 8 = 0 then bitsOf v 12 2 != 3
       else true
     | .time => if off = 0x068 then decide (bitsOf v 12 4 ≤ 4 ∨ 12 ≤ bitsOf v 12 4) else true
     | .castle => if 0x100 ≤ off ∧ off < 0x500 then ruleWordOk (off / 4 % 4) v else true
     | _ => true)

/-- A field of the word is covered by a set lock bit (R68). -/
def wordLocked (s : State) (p : Page) (off : Nat) : Bool :=
  (fieldsAt p.blk off).any fun x =>
    match x.fld.lock with
    | some b => bitAt (hget s p).lock b
    | none => false

end Sys2Proof.Machine
end

