-- ==== Sys2Proof/Machine/SitePipe.lean ====
section
/-! DEFINITION. Chapter 19: enabling and loading the site channel, its pipeline, telemetry checks and uncastling
(R539–R566). -/

namespace Sys2Proof.Machine

def siteReg (s : State) (f : Fld) (i : Nat := 0) : Nat := rget s sitePage f i

/-! ### The pages of R541 -/

/-- The core, DMA and array-group pages that serve cores 0 and 96, with their costs (R291, R292, R541). -/
def sitePages : List (Page × Nat) :=
  [0, 96].flatMap fun g => [(corePage .core g, 44), (corePage .dma g, 12), (pageOf .arrayGroup 0 (g / 16), 40)]

/-- C0 and C6 are ACTIVE. -/
def siteDiesUp (s : State) : Bool := [0, 6].all fun d => diePowered s d && !s.pw.falling.contains d

/-- The pages hold their grants, the capture path's among them. -/
def siteGrants (s : State) : Bool := grantOk s sitePage && sitePages.all fun x => grantOk s x.1

/-- A POWER condition of R565 is present. -/
def powerCondition (s : State) : Bool := !transitOn s || !siteDiesUp s || !siteGrants s

/-- Losing a grant of those pages is a POWER cause, once for each loss (R565). -/
def sitePowerCheck (s : State) : State :=
  if !scEnabled s || powerCondition s == s.sc.lost then s
  else if s.sc.lost then { s with sc := { s.sc with lost := false } }
  else powerCause s

/-! ### EN (R539) -/

/-- Sources as they stand from EN = 1 on (R552). -/
def sourcesFresh (s : State) : State :=
  (List.range 32).foldl (fun s i => rset sitePage Reg.siteChannel.SRC_OK 0 s i) { s with sc := { s.sc with srcs := [] } }

/-- EN becomes 1: LOADING, and the hub requests the reserved cores' pages. DESIGN CHOICE (log entry 114): a job that still holds core 0
or 96, which belong to the site channel from now on (R30), is faulted as by a disable. -/
def siteOn (s : State) : State :=
  let s := [0, 96].foldl (fun s g => if coreAssigned s g then faultCore g 3 0 s else s) s
  let s := hset sitePage { hget s sitePage with en := true } s
  let s := setSite 1 (sourcesFresh { s with sc := { s.sc with lastOrigin := none, lastCounter := none, pipe := [], loadedA := false,
                                                              loadedB := false, timeoutSeen := false, lost := true } })
  sitePages.foldl (fun s x => requestAllot x.1 x.2 s) (rset sitePage Reg.siteChannel.CLEAN 0 s)

/-- EN becomes 0: the table takes control with DISABLED, and the hub releases the pages. -/
def siteOff (s : State) : State :=
  let s := castleEnter Cause.disabled s
  let s := setSite 0 { s with sc := { s.sc with pipe := [], loadedA := false, loadedB := false } }
  let s := hset sitePage { hget s sitePage with en := false } s
  let s := [0, 96].foldl (fun s g => if coreAssigned s g then s else liftCaps (g / 4) (stopClock g (stopCore g s))) s
  sitePages.foldl (fun s x => requestAllot x.1 0 (hset x.1 { hget s x.1 with en := false } s)) s

/-! ### The site record (R542, R543) -/

/-- A field of the record at flash address `a`. -/
def recField (s : State) (a off n : Nat) : Nat := leNat (flashRead s (a + off) n)

/-- A slot that may verify site records with key bytes (R542, R576). -/
def siteKey (s : State) : Option (List Byte) :=
  let n := siteReg s Reg.siteChannel.SC_KEY
  if ksHas s n 1 7 && bitAt (ksGet s n).attr 17 then some (ksGet s n).key else none

/-- The record at `a` is valid. -/
def recordValid (s : State) (a : Nat) : Bool :=
  let f := recField s a
  let len := f 0x0C 4
  let sz := 64 + 8 * f 0x10 4 + f 0x14 4 + f 0x18 4
  decide (f 0 4 = 0x4C465343 ∧ f 4 2 = 1 ∧ f 6 2 = 0 ∧ len ≤ 2 ^ 22 ∧ sz ≤ len)
    && decide (f 0x14 4 % 16 = 0 ∧ f 0x14 4 ≤ 2 ^ 20 ∧ f 0x18 4 % 16 = 0 ∧ f 0x18 4 ≤ 2 ^ 20)
    && decide (f 0x1C 4 < 2 ^ 18 ∧ f 0x20 4 < 2 ^ 18 ∧ f 0x24 12 = 0)
    && (match siteKey s with
        | none => false
        | some k =>
          Crypto.cmac k (flashRead s a 0x30 ++ List.replicate 16 0 ++ flashRead s (a + 0x40) (len - 0x40)) == flashRead s (a + 0x30) 16)

/-- The flash address of the valid record with the higher GEN. -/
def siteRecord (s : State) : Option Nat :=
  let a := siteReg s Reg.siteChannel.ARCHIVE
  let b := a + 2 ^ 22
  match recordValid s a, recordValid s b with
  | true, true => some (if recField s a 8 4 < recField s b 8 4 then b else a)
  | true, false => some a
  | false, true => some b
  | false, false => none

/-- One configuration pair written to its register: PG_LOCK sets bits, a locked or impossible value is discarded (R543). -/
def applyPair (target v : Nat) (s : State) : State :=
  let p := if bitAt target 15 then castlePage else sitePage
  let off := target % 4096
  if off = 0x02C then hset p { hget s p with lock := (hget s p).lock ||| v % (if p = sitePage then 4 else 2) } s
  else if off = 0x020 then requestAllot p v s
  else if wordLocked s p off then pgErr p Code.locked s
  else if wordOk s p off v then putWord p off v s
  else pgErr p Code.badArg s

/-- Every pair of the record at `a`, in record order. -/
def applyPairs (a : Nat) (s : State) : State :=
  (List.range (recField s a 0x10 4)).foldl (fun s i =>
    applyPair (recField s (a + 64 + 8 * i) 0 2) (recField s (a + 64 + 8 * i) 4 4) s) s

/-- The configuration after a cold start (R543). -/
def siteConfig (s : State) : State :=
  if s.sc.cfgDone then s
  else
    let s := { s with sc := { s.sc with cfgDone := true } }
    match siteRecord s with
    | some a => applyPairs a s
    | none => s

/-! ### Loading (R544) -/

/-- A reserved core gets its image: the image from byte 0, the rest zero. -/
def loadImage (g addr size : Nat) (s : State) : State := coreWrite g 0 (flashRead s addr size) [] (coreZero g 0 s)

/-- The reserved cores that are not loaded get their images, and the pipeline runs in SHADOW. A reload ends OK. -/
def siteLoadFrom (a : Nat) (s : State) : State :=
  let s := sitePages.foldl (fun s x =>
    if (hget s x.1).en then s else rampEnter x.1 (hset x.1 { hget s x.1 with en := true } s)) s
  let base := a + 64 + 8 * recField s a 0x10 4
  let s := if s.sc.loadedA then s else loadImage 0 base (recField s a 0x14 4) s
  let s := if s.sc.loadedB then s else loadImage 96 (base + recField s a 0x14 4) (recField s a 0x18 4) s
  let s := [0, 96].foldl (fun s g => stopCore g s) s
  let s := setSite 2 { s with sc := { s.sc with loadedA := true, loadedB := true, streamA := recField s a 0x1C 4,
                                                streamB := recField s a 0x20 4, pipe := [], lost := false } }
  let s := [0, 96].foldl (fun s g => setFreq g (nominalN s g) (setRegime g 0 s)) s
  match (hget s sitePage).cmd with
  | some r => if r.opcode = 3 ∧ r.final = none then endCmd sitePage Code.ok s else s
  | none => s

/-- The hub loads the reserved cores, or castles with NO_IMAGE (R544). -/
def siteLoad (s : State) : State :=
  if siteState s = 1 && siteDiesUp s && siteGrants s then
    match siteRecord s with
    | some a => siteLoadFrom a s
    | none =>
      if bitAt (siteReg s Reg.siteChannel.CAUSE_LATCH) Cause.noImage then s else castleEnter Cause.noImage s
  else s

/-! ### Frames and windows (R547, R554, R555) -/

/-- Frame `f` in the place of the frame with its number. -/
def putFrame (f : PipeFrame) (s : State) : State :=
  { s with sc := { s.sc with pipe := s.sc.pipe.map fun x => if x.num = f.num then f else x } }

/-- Frame `n` leaves the pipeline; a frame that is not clean ends the run of clean frames. -/
def dropFrame (n : Nat) (s : State) : State :=
  rset sitePage Reg.siteChannel.CLEAN 0 { s with sc := { s.sc with pipe := s.sc.pipe.filter (·.num ≠ n) } }

/-- A frame error (R547). -/
def frameError (s : State) : State :=
  castleEnter Cause.frame (radd sitePage Reg.siteChannel.FRAME_ERRS 1 (rset sitePage Reg.siteChannel.CLEAN 0 s))

/-- A WINDOW cause of frame `n`. -/
def windowError (n : Nat) (s : State) : State :=
  let s := { s with sc := { s.sc with pipe := s.sc.pipe.map fun x => if x.num = n then { x with clean := false } else x } }
  castleEnter Cause.window (radd sitePage Reg.siteChannel.WINDOW_ERRS 1 s)

def winOpen (s : State) (f : PipeFrame) (st : Nat) : Nat := f.origin + 1000 * siteReg s Reg.siteChannel.OPEN st
def winClose (s : State) (f : PipeFrame) (st : Nat) : Nat := f.origin + 1000 * siteReg s Reg.siteChannel.CLOSE st

/-- Stage `st` of frame `f` completes now: outside its window it is a WINDOW cause, unless that is settled (R554). -/
def stageDone (st : Nat) (f : PipeFrame) (s : State) : State :=
  if f.settled.contains st then s
  else
    let ok := decide (winOpen s f st ≤ s.ck.dt ∧ s.ck.dt < winClose s f st)
    let s := { s with sc := { s.sc with pipe := s.sc.pipe.map fun x =>
      if x.num = f.num then { x with settled := st :: x.settled } else x } }
    if ok then s else windowError f.num s

/-- A stage whose window has closed without its event (R554). -/
def stageClose (st : Nat) (s : State) : State :=
  (s.sc.pipe.filter fun f => !f.settled.contains st && decide (winClose s f st ≤ s.ck.dt)).foldl (fun s f =>
    windowError f.num { s with sc := { s.sc with pipe := s.sc.pipe.map fun x =>
      if x.num = f.num then { x with settled := st :: x.settled } else x } }) s

/-- The frame that reserved core `g` works on. -/
def inferring (s : State) (g : Nat) : Option PipeFrame :=
  s.sc.pipe.find? fun f => f.pre.isSome && !(if g = 0 then f.endA else f.endB)

def inferStage (g : Nat) : Nat := if g = 0 then 2 else 3

/-- A kick of reserved core `g` (R555). -/
def siteKick (g v : Nat) (s : State) : State :=
  match inferring s g with
  | none => s
  | some f =>
    let k := (if g = 0 then f.kicksA else f.kicksB) + 1
    let s := putFrame (if g = 0 then { f with kicksA := k } else { f with kicksB := k }) s
    if v = k ∧ s.ck.dt < winClose s f (inferStage g) then s else windowError f.num s

/-- END of reserved core `g` (R554, R555). -/
def siteEnd (g : Nat) (s : State) : State :=
  match inferring s g with
  | none => s
  | some f =>
    let k := if g = 0 then f.kicksA else f.kicksB
    let want := siteReg s (if g = 0 then Reg.siteChannel.KICKS_A else Reg.siteChannel.KICKS_B)
    let f' := if g = 0 then { f with endA := true } else { f with endB := true }
    let s := stageDone (inferStage g) f' (putFrame f' s)
    if k = want then s else windowError f.num s

/-! ### Capture (R546–R548) -/

/-- Pixel x of test line l of frame f. -/
def testPixel (raw16 : Bool) (f l x : Nat) : Nat :=
  (f * 0x9E37 + l * 0x3C6F + x * 0x0101) % 2 ^ 16 % (if raw16 then 2 ^ 16 else 2 ^ 14)

def testLines (s : State) (f : Nat) : List (List Nat) :=
  (List.range (siteReg s Reg.siteChannel.TP_LINES_M1 + 1)).map fun l =>
    (List.range (siteReg s Reg.siteChannel.CAM_W)).map (testPixel (rbit s sitePage Reg.siteChannel.RAW16) f l)

/-- A source that R566 watches is not OK. -/
def watchedBad (s : State) : Bool := (List.range 32).any fun i =>
  rbit s sitePage Reg.siteChannel.SRC_VALID i && rbit s sitePage Reg.siteChannel.CASTLE_ON_FAIL i
    && !rbit s sitePage Reg.siteChannel.SRC_OK i

/-- The frame has a frame error at its reception. -/
def camBad (s : State) (f : CamFrame) : Bool :=
  !f.crcOk || f.eccBad || f.lines.any (fun l => l.length != siteReg s Reg.siteChannel.CAM_W)
    || f.lines.length != siteReg s Reg.siteChannel.CAM_H
    || (match s.sc.lastCounter with
        | some c => decide (f.counter.toNat ≠ (c + 1) % 2 ^ 16)
        | none => false)
    || s.sc.pipe.any (fun x => !x.inject) || decide (2 ≤ s.sc.pipe.length)

/-- Device time lies outside [previous origin, previous origin + FRAME_TIMEOUT) and no frame has started in it (R14, R547); once for
each origin. -/
def frameLate (s : State) : Bool :=
  match s.sc.lastOrigin with
  | some t => !s.sc.timeoutSeen && passed t (1000000 * siteReg s Reg.siteChannel.FRAME_TIMEOUT) s
  | none => false

/-- The frame window that has closed without a frame start is a frame error. -/
def frameTimeout (s : State) : State :=
  if frameLate s then frameError { s with sc := { s.sc with timeoutSeen := true } } else s

/-- A camera frame (R547): its number is consumed in any case. One that starts at or after the close of its window finds the window's
frame error made. -/
def camFrame (f : CamFrame) (s : State) : State :=
  let s := frameTimeout s
  let bad := camBad s f
  let n := (siteReg s Reg.siteChannel.FRAMES + 1) % 2 ^ 32
  let s := rset sitePage Reg.siteChannel.FRAMES n s
  let s := radd sitePage Reg.siteChannel.CSI_CORRECTED f.eccCorrected (radd sitePage Reg.siteChannel.CSI_IGNORED f.ignored s)
  let s := { s with sc := { s.sc with lastOrigin := some s.ck.dt, lastCounter := some f.counter.toNat, timeoutSeen := false } }
  if bad then frameError s
  else
    let w := if rbit s sitePage Reg.siteChannel.RAW16 then 2 ^ 16 else 2 ^ 14
    let x : PipeFrame := { num := n, origin := s.ck.dt, lines := f.lines.map (·.map (· % w)), clean := !watchedBad s }
    { s with sc := { s.sc with pipe := s.sc.pipe ++ [x] } }

/-! ### Pre-processing (R549, R550, R553) -/

/-- RAW of a signal as its SIGNED says. -/
def sigValue (s : State) (j : Nat) : Int :=
  let v := siteReg s Reg.siteChannel.RAW j
  if rbit s sitePage Reg.siteChannel.SIG_SIGNED j then toInt 32 v else v

def sigOk (s : State) (j : Nat) : Bool := rbit s sitePage Reg.siteChannel.SRC_OK (siteReg s Reg.siteChannel.SIG_SOURCE j)

/-- An integer as an exact datum. -/
def fpOfInt (i : Int) : Fp := .fin (decide (i < 0)) i.natAbs 0

/-- Signal j of the input block. -/
def sigWord (s : State) (j : Nat) : Nat :=
  if rbit s sitePage Reg.siteChannel.SIG_VALID j && sigOk s j then
    toF32 ((fpOfInt (sigValue s j)).mul (ofF32 (siteReg s Reg.siteChannel.SIG_SCALE j)))
  else 0

/-- Element (u, v) of the tensor: column u, row v. -/
def tensorElem (s : State) (lines : List (List Nat)) (b u v : Nat) : Nat :=
  let sum : Nat := (((lines.drop (v * b)).take b).map fun l => ((l.drop (u * b)).take b).foldl (· + ·) 0).foldl (· + ·) 0
  let i : Int := (sum : Int) - ((b * b * siteReg s Reg.siteChannel.BLACK : Nat) : Int)
  bf16.encode true (ofF32 (toF32 ((fpOfInt i).mul (ofF32 (siteReg s Reg.siteChannel.GAIN)))))

/-- Columns and rows of the tensor. -/
def tensorSize (s : State) : Nat × Nat :=
  let b := 2 ^ siteReg s Reg.siteChannel.DS
  (siteReg s Reg.siteChannel.CAM_W / b, siteReg s Reg.siteChannel.CAM_H / b)

/-- The input block (R550). -/
def inputBlock (s : State) (f : PipeFrame) : List Byte :=
  let b := 2 ^ siteReg s Reg.siteChannel.DS
  let t := tensorSize s
  leBytes 4 f.num ++ leBytes 8 f.origin ++ leBytes 4 (maskOf 32 fun i => rbit s sitePage Reg.siteChannel.SRC_OK i)
    ++ List.replicate 16 0 ++ (List.range 64).flatMap (fun j => leBytes 4 (sigWord s j))
    ++ (List.range t.2).flatMap fun v => (List.range t.1).flatMap fun u => leBytes 2 (tensorElem s f.lines b u v)

/-- The next frame for pre-process, if both cores have reached END for every frame before it (R550). -/
def preNext : List PipeFrame → Option PipeFrame
  | [] => none
  | f :: fs => if f.pre.isNone then (if f.inject then some f else none) else if f.endA && f.endB then preNext fs else none

/-- Bytes into a reserved core's SRAM at a 16-byte unit, as far as the SRAM reaches. -/
def coreBlock (g base : Nat) (bs : List Byte) (s : State) : State :=
  coreWrite g (16 * base) (bs.take (coreSize - 16 * base)) [] s

/-- Pre-process of a frame: a test line that differs is a frame error; else the input blocks, and both cores start. -/
def preprocess (f : PipeFrame) (s : State) : State :=
  if f.bad then frameError (dropFrame f.num s)
  else
    let bs := inputBlock s f
    let base := siteReg s Reg.siteChannel.IN_BASE
    let s := [0, 96].foldl (fun s g => coreBlock g base bs s) s
    let f' := { f with pre := some s.ck.dt }
    let s := stageDone 1 f' (putFrame f' s)
    startCore 96 s.sc.streamB (startCore 0 s.sc.streamA s)

/-! ### Telemetry (R551–R553) -/

def srcRun (s : State) (i : Nat) : SrcRun := Assoc.getD s.sc.srcs i {}
def setSrc (i : Nat) (r : SrcRun) (s : State) : State := { s with sc := { s.sc with srcs := Assoc.set s.sc.srcs i r } }

/-- A failure of source `i` (R552): 1 CRC, 2 TIME_BACK, 3 GAP, 4 AGE. An age failure stands beside the others. -/
def srcFail (i cause : Nat) (s : State) : State :=
  let r := srcRun s i
  let s := setSrc i (if cause = 4 then { r with aged := true } else { r with failed := true, good := 0 }) s
  let s := rset sitePage Reg.siteChannel.LAST_FAIL cause (rset sitePage Reg.siteChannel.SRC_OK 0 s i) i
  let s := irqPulse sitePage 10 s
  if rbit s sitePage Reg.siteChannel.CASTLE_ON_FAIL i then
    castleEnter Cause.telemetry { s with sc := { s.sc with pipe := s.sc.pipe.map fun f => { f with clean := false } } }
  else s

def srcOk (i : Nat) (s : State) : State :=
  rset sitePage Reg.siteChannel.SRC_OK 1 (setSrc i { srcRun s i with failed := false, good := 0, aged := false, begun := true } s) i

/-- The signals of source `i` from its data (R553). -/
def takeSignals (i : Nat) (s : State) : State :=
  (List.range 64).foldl (fun s j =>
    if rbit s sitePage Reg.siteChannel.SIG_VALID j && siteReg s Reg.siteChannel.SIG_SOURCE j == i then
      let w := 2 ^ siteReg s Reg.siteChannel.SIG_WIDTH j
      let v := beNat (sliceB (srcRun s i).data (8 + siteReg s Reg.siteChannel.SIG_OFFSET j) w)
      rset sitePage Reg.siteChannel.RAW (if rbit s sitePage Reg.siteChannel.SIG_SIGNED j then ofInt 32 (toInt (8 * w) v) else v) s j
    else s) s

/-- CHECK of a payload holds (R551). -/
def e2eGood (s : State) (i : Nat) (bs : List Byte) : Bool :=
  decide (8 ≤ bs.length)
    && crc16 (beBytes 2 (siteReg s Reg.siteChannel.DATA_ID i) ++ bs.take 6 ++ bs.drop 8) == beNat (sliceB bs 6 2)

/-- The data of an accepted frame. -/
def takeData (i : Nat) (bs : List Byte) (stamp : Nat) (s : State) : State :=
  takeSignals i (setSrc i { srcRun s i with counter := beNat (sliceB bs 0 2), time := beNat (sliceB bs 2 4), stamp := stamp,
                                            seen := true, data := bs } s)

/-- A good frame of a failed source (R552): the second one mends it, after EN = 1 only where both carry d = 1; the first with d = 1
ends an age failure. The source is OK when no failure is left. -/
def srcGood (i d : Nat) (s : State) : State :=
  let r := srcRun s i
  let aged := r.aged && d != 1
  let good := if !r.begun && d ≠ 1 then 0 else r.good + 1
  let failed := r.failed && good != 2
  if !r.failed && !r.aged then s
  else if failed || aged then
    setSrc i { r with failed := failed, aged := aged, good := if failed then good else 0, begun := r.begun || !failed } s
  else srcOk i s

/-- Source `i` has aged: it is VALID, it has a last stamp, and device time lies outside [last stamp, last stamp + AGE_MS) (R14,
R552). -/
def sourceAged (s : State) (i : Nat) : Bool :=
  let r := srcRun s i
  rbit s sitePage Reg.siteChannel.SRC_VALID i && r.seen && !r.aged
    && passed r.stamp (1000000 * siteReg s Reg.siteChannel.AGE_MS i) s

/-- Every source that has aged by now fails. -/
def ageSources (s : State) : State := (List.range 32).foldl (fun s i => if sourceAged s i then srcFail i 4 s else s) s

/-- The E2E check of a frame of source `i` stamped `stamp` (R552). -/
def e2eCheck (i : Nat) (bs : List Byte) (stamp : Nat) (s : State) : State :=
  let r := srcRun s i
  if !e2eGood s i bs then srcFail i 1 s
  else if !r.seen then takeData i bs stamp s
  else
    let d := (beNat (sliceB bs 0 2) + 2 ^ 16 - r.counter) % 2 ^ 16
    if d = 0 then radd sitePage Reg.siteChannel.REPEATS 1 s
    else if 2 ^ 31 ≤ (beNat (sliceB bs 2 4) + 2 ^ 32 - r.time) % 2 ^ 32 then srcFail i 2 s
    else
      let s := takeData i bs stamp s
      if siteReg s Reg.siteChannel.MAX_DELTA i < d then srcFail i 3 s else srcGood i d s

/-- A frame at the SITE_CHANNEL port (R551). -/
def telemetry (port k0 : Nat) (bs : List Byte) (stamp : Nat) (s : State) : State :=
  if !scEnabled s then s
  else
    let s := ageSources s
    match (List.range 32).find? fun i =>
      rbit s sitePage Reg.siteChannel.SRC_VALID i && siteReg s Reg.siteChannel.SRC_PORT i == port
        && siteReg s Reg.siteChannel.SRC_KEYV i == k0 % 2 ^ 30 with
    | some i => e2eCheck i bs stamp s
    | none => radd sitePage Reg.siteChannel.UNMATCHED 1 s

/-! ### Compare and publish (R558–R560, R566) -/

/-- The action block is valid for frame `n` (R559). -/
def actionGood (s : State) (n : Nat) (b : List Byte) : Bool :=
  let f := fun o k => leNat (sliceB b o k)
  decide (f 0x3C 4 = crc32 (b.take 0x3C) ∧ f 0 4 = n) && (sliceB b 0x14 40).all (· == 0)
    && decide (f 4 4 ≤ 40000 ∨ f 4 4 = 0xFFFFFFFF) && decide (f 0x0C 4 ≤ 40000)
    && (List.range 8).all fun c => !bitAt (f 8 1) c || chOwner s c == 1

/-- Compare of a frame (R559). -/
def compareFrame (f : PipeFrame) (s : State) : State :=
  let at_ := 16 * siteReg s Reg.siteChannel.OUT_BASE
  let a := coreRead s 0 at_ 64
  let b := coreRead s 96 at_ 64
  let s := coreReadCounts 96 at_ 64 (coreReadCounts 0 at_ 64 s)
  if !a.2.isEmpty ∨ !b.2.isEmpty then siteCoreFault (if a.2.isEmpty then 96 else 0) (dropFrame f.num s)
  else
    let s := stageDone 4 f s
    if a.1 ≠ b.1 then castleEnter Cause.mismatch (radd sitePage Reg.siteChannel.MISMATCHES 1 (dropFrame f.num s))
    else if actionGood s f.num a.1 then
      { s with sc := { s.sc with pipe := s.sc.pipe.map fun x => if x.num = f.num then { x with action := some a.1 } else x } }
    else castleEnter Cause.action (dropFrame f.num s)

/-- The agreed actions applied (R560). -/
def applyActions (origin : Nat) (b : List Byte) (s : State) : State :=
  let f := fun o k => leNat (sliceB b o k)
  let s := { s with sc := { s.sc with inForce := some origin } }
  let s := withCaps (fun s =>
    let s := if f 4 4 = 0xFFFFFFFF then rset weirPage Reg.weir.SC_CAP_VALID 0 s
      else rset weirPage Reg.weir.SC_CAP_VALID 1 (rset weirPage Reg.weir.SC_CAP (f 4 4) s)
    siteDemands (bitAt (f 8 1)) s) s
  if f 9 1 = 1 then gwInject 10 1 (psPayload 0 (f 0x0A 2) (f 0x0C 4) (f 0x10 4)) s else s

/-- An ageing measurement of a reserved core's quadrant is under way: MAINT (R565). -/
def maintCondition (s : State) : Bool := s.fq.meas.any fun m => m.q == 0 && (m.die == 0 || m.die == 6)

/-- The hub may uncastle at a frame with which CLEAN stands at `n` (R566). -/
def mayUncastle (s : State) (n : Nat) : Bool :=
  siteState s == 2 && !powerCondition s && !maintCondition s && scEnabled s
    && decide (siteReg s Reg.siteChannel.UNCASTLE_FRAMES ≤ n)
    && passed s.sc.castledAt (1000000 * siteReg s Reg.siteChannel.CASTLE_MIN) s
    && ((rbit s sitePage Reg.siteChannel.AUTO_UNCASTLE && !s.sc.hard) || s.sc.armed)

/-- LIVE: the pipeline takes the outputs from the table. -/
def uncastle (s : State) : State :=
  irqPulse sitePage 9 (setSite 3 (alertSettle <| rset sitePage Reg.siteChannel.CASTLED 0 { s with sc := { s.sc with lastPs := none } }))

/-- Publish of a frame whose action block compare has accepted (R560, R566). -/
def publishFrame (f : PipeFrame) (b : List Byte) (s : State) : State :=
  let s := stageDone 5 f s
  let clean := (s.sc.pipe.find? (·.num == f.num)).any fun x => x.clean && !watchedBad s
  let n := if clean then satN 8 (siteReg s Reg.siteChannel.CLEAN + 1) else 0
  let s := rset sitePage Reg.siteChannel.CLEAN n { s with sc := { s.sc with pipe := s.sc.pipe.filter (·.num ≠ f.num) } }
  if siteState s = 3 then applyActions f.origin b s
  else if clean && mayUncastle s n then applyActions f.origin b (uncastle s)
  else (leWords b 8).zipIdx.foldl (fun s x => rset sitePage Reg.siteChannel.SHADOW_ACTIONS x.1 s x.2) s

end Sys2Proof.Machine
end

