-- ==== Sys2Proof/Machine/Shared.lean ====
section
/-! DEFINITION. What the power states and resets do to the blocks of every chapter (R30–R40, R115, R119, R125, R153). -/

namespace Sys2Proof.Machine

/-! ### A die goes down (R119, R125) -/

/-- The jobs that use die `d` are faulted with POWER, and a reserved core on it is no longer loaded (R40, R544). -/
def faultJobsOnDie (d : Nat) (s : State) : State :=
  let s := faultWhere (usesDie d) 5 s
  if d = 0 ∨ d = 6 then siteUnload (d == 0) (d == 6) s else s

/-- Every running job is faulted by a supply fault (R109). -/
def faultAllJobs (s : State) : State := faultWhere (fun x => x.st = .starting ∨ x.st = .running) 4 s

/-- The banks of die `d` answer their waiters with poison (R119, R339). -/
def poisonWaiters (b : Page) (s : State) : State :=
  radd b Reg.syncBank.POISONED (bankWaiters s b).length
    { s with sy := { s.sy with waiters := s.sy.waiters.filter fun w => !inBank b w.obj } }

/-- The blocks of die `d` drain: executing commands end with ABORTED, waiters are answered with poison. -/
def drainDieBlocks (d : Nat) (s : State) : State :=
  let s := ((s.hdr.map (·.1)).filter fun p => p.die == d && !inTransit p.blk).foldl (fun s p => abortCmd p s) s
  (List.range 4).foldl (fun s b => poisonWaiters (pageOf .syncBank b d) s) s

/-- The fields of a die's pages that outlive its core domain: what MRAM and the sensors hold, and the banks' epochs. -/
def dieKeeps (p : Page) (f : Fld) : Bool :=
  match p.blk with
  | .syncBank => f == Reg.syncBank.EPOCH
  | .dieFreq => [Reg.dieFreq.OP_HOURS, Reg.dieFreq.LAST_MEAS, Reg.dieFreq.TEMP].contains f
  | _ => false

/-- The pages of die `d`'s core domain. -/
def coreDomainPages (d : Nat) : List Page :=
  (dirCompute d).map (·.page) |>.filter fun p => !inTransit p.blk

/-- The header of a page whose block has drained for its die's power-down: the off state and a new epoch (R62, R119). A page on which
EN has no effect keeps its header. -/
def downHeader (d : Nat) (p : Page) (h : Header) : Header :=
  if p.die = d ∧ inTransit p.blk = false ∧ (enHasEffect p.blk = true ∨ p.blk = .syncBank) then
    { h with phase := .run, en := false, quiesce := false, drainReq := false, resetReq := false, epoch := nextEpoch h.epoch }
  else h

/-- Core domain `d` loses its contents: SRAM, objects, block registers, clocks and what the Weir holds of it (R115). -/
def dieContentsLost (d : Nat) (s : State) : State :=
  let s := (List.range 16).foldl (fun s c => coreZero (16 * d + c) 0 s) s
  let s := dieZero d 0 dieSramSize s
  let s := banksLost d { s with co := { s.co with run := s.co.run.filter fun r => r.1 / 16 ≠ d } }
  let s := (coreDomainPages d).foldl (fun s p => rclear p (dieKeeps p) s) s
  let gone := fun x : Nat => x / 4 == d
  { s with
    hdr := s.hdr.map fun (p, h) => (p, downHeader d p h)
    fq := { s.fq with
      relock := s.fq.relock.filter (·.1 / 16 ≠ d), afterRail := s.fq.afterRail.filter (·.1 / 16 ≠ d)
      rail := s.fq.rail.filter fun x => !gone x.1, meas := s.fq.meas.filter (·.die ≠ d)
      droop := s.fq.droop.filter (·.core / 16 ≠ d), stretched := s.fq.stretched.filter (· / 16 ≠ d)
      opPart := Assoc.set s.fq.opPart d (s.ck.dt - Assoc.getD s.fq.lastMin d s.ck.dt)
      longSeen := s.fq.longSeen.filter (· / 16 ≠ d) }
    we := { s.we with
      ramp := s.we.ramp.filter fun p => !(p.die == d && enHasEffect p.blk && !inTransit p.blk)
      retained := s.we.retained.filter fun x => !gone x, woken := s.we.woken.filter fun x => !gone x
      waking := s.we.waking.filter fun x => !gone x.1
      credits := s.we.credits.filter (·.core / 16 ≠ d), requests := s.we.requests.filter (·.1 / 16 ≠ d)
      late := s.we.late.filter (·.1 / 16 ≠ d) } }

/-- Die `d` has come up: jobs that wait for a restart are tried again (R375). -/
def startOfDie (_d : Nat) (s : State) : State := retryAll s

/-! ### A core's job (R195, R246, R384) -/

/-- The slot of core `g` counts a throttle. -/
def jobThrottled (g : Nat) (s : State) : State :=
  match slotOfCore s g with
  | some j => slotSet j { slotGet s j with throttle := satN 32 ((slotGet s j).throttle + 1) } s
  | none => s

/-- The slot of core `g` counts an interval in which CANAL was not held. -/
def jobCanalInt (g : Nat) (s : State) : State :=
  match slotOfCore s g with
  | some j => slotSet j { slotGet s j with canalInt := satN 32 ((slotGet s j).canalInt + 1) } s
  | none => s

/-- The job that core `g` serves is faulted with `cause`. -/
def faultJobOfCore (g cause : Nat) (s : State) : State :=
  match slotOfCore s g with
  | some j => jobFault j cause g 0 (devIndex (slotGet s j)) s
  | none => s

/-! ### Hub reset, DRY and the cold start (R115, R153) -/

/-- What the hub outside the island and the protection domain loses with its registers: jobs, objects, links, the host
bridge, the gateway's queues and the site-bus service; the freshness counters in MRAM and the hold window of SITE_CAP
stand. -/
def hubLosses (s : State) : State :=
  let s := (s.jb.slots.map (·.2)).foldl (fun s x => retireGranules (heldGranules x) s) s
  let s := (List.range 4).foldl (fun s b => bankEnd (pageOf .syncBank b 12) s) { s with jb := {}, ner := {} }
  bridgeReset { s with
    gw := {}
    sb := { fv := s.sb.fv, hold := s.sb.hold }
    sc := { s.sc with pipe := [], loadedA := false, loadedB := false } }

/-- The stacks lose their contents with their supply, and every aux channel is off with its demand cleared (R115, R528). -/
def stackLosses (s : State) : State := allChannelsOff true { s with hbm := { marks := s.hbm.marks } }

/-- The reservoir of R596 holds an epoch advance: 10 ms after the always-on converter has started. -/
def reservoirCharged (s : State) : Bool := passed 0 10000000 s

/-- The always-on converter stops: an epoch advance whose reservoir is charged completes (R596). -/
def islandLosses (s : State) : State := if s.sec.advance && reservoirCharged s then epochBlow s else s

/-- What MRAM and the fuses carry over a cold start beside `new`'s own: retired granules, key cells, commit words, the
TAMPER latch record and the freshness counters (R397, R505, R584, R598). -/
def coldKeep (old new : State) : State :=
  let s := { new with
    hbm := { marks := old.hbm.marks }
    sb := { fv := old.sb.fv }
    sec := { cells := old.sec.cells, commits := old.sec.commits, latch := old.sec.latch } }
  match old.sec.latch with
  | some c => rset tamperPage Reg.tamper.TAMPER_CAUSE c (rset keyPage Reg.keyStore.TAMPERED 1 s)
  | none => s

/-- MODEL_FAULT falls (R198). -/
def setModelFaultOff (s : State) : State := irqLevel weirPage 12 false (rflag weirPage Reg.weir.MODEL_FAULT false s)

/-- The key store overwrites its stored copies (R595). -/
def overwriting (s : State) : Bool := s.sec.erase

/-! ### Boot (R481, R539, R541, R543) -/

/-- Hub firmware's loads at a hub boot. -/
def bootLoads (s : State) : State := gwLoad s

/-- Once TRICKLE is declared: the site record's configuration after a cold start, EN held at 1 by the fuse, and the
requests for the reserved cores' pages. -/
def siteDeclare (s : State) : State :=
  let s := if recovery s then s else siteConfig s
  if scEnabled s then
    if siteState s = 0 then siteOn s else sitePages.foldl (fun s x => requestAllot x.1 x.2 s) s
  else s

/-- A frame matches the wake pattern of R510. -/
def wakePattern (s : State) (_port : Nat) (f : CanFrame) : Bool :=
  decide (f.ident.toNat = rget s sbPage Reg.siteBus.WAKE_ID) && !f.ide && f.fdf && !f.brs
    && decide (f.payload.length = 16 ∧ f.payload.head? = some 1)
    && bitAt (beNat (sliceB f.payload 2 4)) (rget s sbPage Reg.siteBus.MODULE_NO)

end Sys2Proof.Machine
end

