-- ==== Sys2Proof/Machine/Events.lean ====
section
/-! DEFINITION. Chapter 21: writing records, the two logs, the DRY buffer and the fetches. -/

namespace Sys2Proof.Machine

def eventPage : Page := hubPage .eventLog

/-- The codes that R608 lists. -/
def knownCode (c : Nat) : Bool :=
  ([0x1001, 0x2001, 0x2002, 0x3001, 0x3002, 0x4001, 0x4002, 0x7101, 0x7102, 0x7103, 0x7104, 0x7105, 0x8001, 0x8002,
    0x8003, 0x9001, 0xA001, 0xA002, 0xA003, 0xA004, 0xA005, 0xC001, 0xE001, 0xE002, 0xE003, 0xE004, 0xE005, 0xE006,
    0xE007, 0xF001, 0xF002] : List Nat).contains c
    || decide (0x7001 ≤ c ∧ c ≤ 0x7010)

/-- EVENT_RAISE (R608, R615): a block raises an event; its severity is the code's. -/
def execEventRaise (e : Event) (s : State) : Host.Outcome State Fault Refusal :=
  .next (if knownCode e.code.toNat then
      raiseSev e.code.toNat (severityOf e.code.toNat (hardCause e.detailA.toNat)) e.die.toNat e.inst.toNat
        e.detailA.toNat e.detailB.toNat s
    else s)

/-! ### Writing (R609–R614) -/

/-- A record takes its place in a full running log: the oldest record no more severe than itself goes (R613). -/
def ringReplace (r : Rec) (ring : List Rec) : Option (List Rec) :=
  match ring.findIdx? (fun x => x.sev ≤ r.sev) with
  | some i => some (ring.eraseIdx i ++ [r])
  | none => none

/-- A record enters the running log under the next number, or is lost (R609, R613). -/
def writeRing (r : Rec) (s : State) : State :=
  let r := { r with stamp := s.ev.nextSeq }
  let r := { r with check := recCheck r }
  let s := { s with ev := { s.ev with nextSeq := s.ev.nextSeq + 1 } }
  if s.ev.ring.length < 16384 then { s with ev := { s.ev with ring := s.ev.ring ++ [r] } }
  else
    match ringReplace r s.ev.ring with
    | some q => radd eventPage Reg.eventLog.OVERWRITES 1 { s with ev := { s.ev with ring := q } }
    | none => lost 1 s

/-- FF_FULL and TFULL follow the number of records (R614, R623). -/
def ffFlags (s : State) : State :=
  let full := decide (4032 ≤ s.ev.ff.length)
  let rises := full && !rbit s eventPage Reg.eventLog.FF_FULL
  let s := rflag eventPage Reg.eventLog.TFULL (decide (4096 ≤ s.ev.ff.length)) (rflag eventPage Reg.eventLog.FF_FULL full s)
  if rises then irqPulse eventPage 9 s else s

/-- A record at or above FF_MIN_SEV enters the first-fault log while a slot is open to it (R614). -/
def writeFirstFault (r : Rec) (s : State) : State :=
  if r.sev < rget s eventPage Reg.eventLog.FF_MIN_SEV then s
  else if s.ev.ff.length < (if r.sev = 3 then 4096 else 4032) then
    let r := { r with stamp := s.ev.opSec % 2 ^ 32 + s.jr.cycles % 2 ^ 32 * 2 ^ 32 }
    let r := { r with check := recCheck r }
    ffFlags { s with ev := { s.ev with ff := s.ev.ff ++ [r] } }
  else s

/-- Both logs take a record; SEVERE rises for FAULT and TAMPER (R623). -/
def writeRec (r : Rec) (s : State) : State :=
  let s := writeFirstFault r (writeRing r s)
  let s := { s with ev := { s.ev with lastWrite := some s.ck.dt } }
  if 2 ≤ r.sev then irqPulse eventPage 8 s else s

/-- The recorder may write now: in TRICKLE and FLOW, and once per 100 µs while stored key copies are overwritten
(R609, R612). -/
def mayWrite (s : State) : Bool :=
  protRuns s &&
    (!overwriting s ||
      (match s.ev.lastWrite with
       | some t => passed t 100000 s
       | none => true))

/-- EVENT_RECORD_WRITE (R610): the TAMPER queue first, each queue in order. -/
def execEventRecordWrite (s : State) : Host.Outcome State Fault Refusal :=
  .next (if mayWrite s then
      match s.ev.tamperQ, s.ev.intake with
      | r :: q, _ => writeRec r { s with ev := { s.ev with tamperQ := q } }
      | [], r :: q => writeRec r { s with ev := { s.ev with intake := q } }
      | [], [] => s
    else s)

/-- OP_SECONDS_CHECKPOINT (R607): the count goes to MRAM every 60 s of TRICKLE or FLOW. -/
def execOpSecondsCheckpoint (s : State) : Host.Outcome State Fault Refusal :=
  .next (if protRuns s && decide (s.ev.opSaved + 60 ≤ s.ev.opSec) then
      { s with ev := { s.ev with opSaved := s.ev.opSec } }
    else s)

/-- DRY_BUFFER_FLUSH (R618). -/
def execDryBufferFlush (s : State) : Host.Outcome State Fault Refusal := .next (if hubRuns s then dryTake s else s)

/-! ### Reading (R619–R622) -/

/-- The eight words of a record. -/
def recWords (r : Rec) : List Nat := leWords (recBytes r ++ leBytes 4 r.check) 8

/-- The fetch of a first-fault record (R619). -/
def fetchFF (c : Client) (idx : Nat) (s : State) : State :=
  let i := idx % 4096
  let s := rsetC c eventPage Reg.eventLog.RD_FF_INDEX i s
  match s.ev.ff[i]? with
  | some r =>
    rsetCs c eventPage Reg.eventLog.RD_W (recWords r)
      (rsetC c eventPage Reg.eventLog.RD_STAT (if r.check = recCheck r then 0 else 2) s)
  | none => rsetCs c eventPage Reg.eventLog.RD_W (List.replicate 8 0) (rsetC c eventPage Reg.eventLog.RD_STAT 1 s)

/-- FF_FETCH (R619). -/
def execFfFetch (c : Client) (idx : Word) (s : State) : Host.Outcome State Fault Refusal :=
  .next (inOrder c eventPage (.write 0x070 idx.toNat) (blockWrite c eventPage 0x070 (fetchFF c idx.toNat)) s)

/-- The held record with the smallest number at or above `n` (R620). -/
def ringFrom (s : State) (n : Nat) : Option Rec :=
  (s.ev.ring.filter fun r => n ≤ r.stamp).foldl (fun m r =>
    match m with
    | some x => if r.stamp < x.stamp then some r else m
    | none => some r) none

/-- The fetch of a running-log record (R620). -/
def fetchRL (c : Client) (hi : Nat) (s : State) : State :=
  let s := rsetC c eventPage Reg.eventLog.RD_RL_SEQ_HI hi s
  match ringFrom s (hi % 2 ^ 32 * 2 ^ 32 + rgetC s c eventPage Reg.eventLog.RD_RL_SEQ_LO) with
  | some r =>
    rsetCs c eventPage Reg.eventLog.RD_W (recWords r)
      (rsetC c eventPage Reg.eventLog.RD_STAT (if r.check = recCheck r then 0 else 2) s)
  | none => rsetCs c eventPage Reg.eventLog.RD_W (List.replicate 8 0) (rsetC c eventPage Reg.eventLog.RD_STAT 1 s)

/-- RL_FETCH (R620). -/
def execRlFetch (c : Client) (hi : Word) (s : State) : Host.Outcome State Fault Refusal :=
  .next (inOrder c eventPage (.write 0x078 hi.toNat) (blockWrite c eventPage 0x078 (fetchRL c hi.toNat)) s)

/-- The effect of FF_CLEAR (R622). -/
def ffClearEffect (r : Req) (s : State) : State :=
  if r.arg = 0 ∧ rbit s (hubPage .keyStore) Reg.keyStore.TAMPERED = false then
    endCmd eventPage Code.ok (ffFlags { s with ev := { s.ev with ff := [] } })
  else endCmd eventPage Code.badArg s

/-- FF_CLEAR (R622). -/
def execFfClear (r : Req) (s : State) : Host.Outcome State Fault Refusal :=
  .next (command eventPage 0x01 r (ffClearEffect r) s)

end Sys2Proof.Machine
end

