-- ==== Sys2Proof/Machine/DieDown.lean ====
section
/-! DEFINITION. A core domain going down, the fall to TRICKLE and the entry into DRY (R111, R119, R120, R125), which
several chapters start. -/

namespace Sys2Proof.Machine

/-- STATE of the power-state page (R121): 1 TRICKLE, 2 FLOW. -/
def powerStateCode (s : State) : Nat := if s.pw.mode = .flow then 2 else 1

/-- The power mode changes; STATE_CHANGE rises when STATE does (R121). -/
def setMode (m : Mode) (s : State) : State :=
  let was := powerStateCode s
  let s := { s with pw := { s.pw with mode := m } }
  if powerStateCode s = was then s else irqPulse powerPage 10 s

/-- DIE_ON and DIE_TRANS of die `d` (R121). -/
def setDieOn (d : Nat) (on : Bool) (s : State) : State :=
  rset powerPage Reg.powerState.DIE_ON (putBit (rget s powerPage Reg.powerState.DIE_ON) d on) s

def setDieTrans (d : Nat) (on : Bool) (s : State) : State :=
  rset powerPage Reg.powerState.DIE_TRANS (putBit (rget s powerPage Reg.powerState.DIE_TRANS) d on) s

/-- A die that is rising stops rising. -/
def riseStopped (d : Nat) (s : State) : State :=
  if s.pw.rising = some d then setDieTrans d false { s with pw := { s.pw with rising := none } } else s

/-- Die `d` starts down (R119): the hub castles first if the die holds a reserved core in use, the jobs that use the
die are faulted, and its blocks drain. -/
def dieDownStart (d : Nat) (s : State) : State :=
  if !diePowered s d || s.pw.falling.contains d then riseStopped d s
  else
    let s := if scEnabled s && (d == 0 || d == 6) then powerCause s else s
    let s := faultJobsOnDie d (drainDieBlocks d s)
    setDieTrans d true { s with pw := { s.pw with falling := s.pw.falling ++ [d] } }

/-- Every powered die starts down. -/
def allDiesDown (s : State) : State := (List.range 12).foldl (fun s d => dieDownStart d s) s

/-- The command with opcode `op` that executes on the power-state page ends with `code`. -/
def powerCmdEnds (op code : Nat) (s : State) : State :=
  match (hget s powerPage).cmd with
  | some c => if c.opcode = op ∧ c.final = none then endCmd powerPage code s else s
  | none => s

/-- A rising die and the dies named after it are given up; a DIE_UP that executes ends with ABORTED (R122). -/
def riseAborted (s : State) : State :=
  let s := match s.pw.rising with
    | some d => setDieTrans d false s
    | none => s
  powerCmdEnds 1 Code.aborted { s with pw := { s.pw with rising := none, upQueue := [] } }

/-! ### Wake acceptance (R130, R138) -/

/-- V48_IN lies within 40–60 V. -/
def v48InRange (s : State) : Bool := decide (4000 ≤ v48 s ∧ v48 s ≤ 6000)

/-- A wake is accepted: the causes and the time are latched, WAKE_OUT rises, the boot begins (R117, R130, R138).
`bySupply` for the qualification of R112. REFCLK_RETRIES goes on counting after a set of attempts that failed. -/
def wakeAccept (bySupply : Bool) (s : State) : State :=
  let s := if s.pw.exhausted then s else rset wakePage Reg.wake.REFCLK_RETRIES 0 s
  let s := rset wakePage Reg.wake.WAKE_CAUSE s.ck.pending s
  let s := rset wakePage Reg.wake.CAUSE_VALID 1 (rflag wakePage Reg.wake.CAUSE_V48 bySupply s)
  let s := rset wakePage Reg.wake.WAKE_TIME s.ck.dt s
  { s with
    ck := { s.ck with pending := 0, accepted := true, wakeOut := true, refTries := 0, lastCal := none }
    pw := { s.pw with mode := .booting, phase := .refclk, exhausted := false }
    bt := { s.bt with cause := if s.pw.dryWhy = .coldStart then 1 else 2 } }

/-- Wake source `bit` (in the layout of WAKE_EN) fires: a wake from DRY, kept pending outside 40–60 V, or one more
cause of the wake under way (R112, R133, R138). -/
def wakeSource (bit : Nat) (s : State) : State :=
  match s.pw.mode with
  | .dry =>
    let s := { s with ck := { s.ck with pending := putBit s.ck.pending bit true } }
    if v48InRange s then wakeAccept false s else s
  | .booting =>
    if s.ck.accepted then
      rset wakePage Reg.wake.WAKE_CAUSE (putBit (rget s wakePage Reg.wake.WAKE_CAUSE) bit true) s
    else s
  | _ => s

/-! ### The hub loses its state (R153, R155) -/

/-- The fields of hub and die pages that neither a hub reset nor DRY clears: what the island, MRAM, the sensors and
the counts since a cold start hold, and what the servo needs to resume (R147). -/
def hubResetKeeps (p : Page) (f : Fld) : Bool :=
  inProtection p.blk ||
    (match p.blk with
     | .time => !([Reg.time.WALL_LOCKED, Reg.time.PTP_OFFSET, Reg.time.STAGE_SEC_LO, Reg.time.STAGE_SEC_HI,
                       Reg.time.STAGE_NS, Reg.time.STAGE_UTC].contains f)
     | .boot => [Reg.boot.HUB_RESETS, Reg.boot.HOST_RESETS].contains f
     | .powerState => true
     | .dieFreq => [Reg.dieFreq.OP_HOURS, Reg.dieFreq.LAST_MEAS, Reg.dieFreq.TEMP].contains f
     | .powerStage => true
     | .syncBank => f == Reg.syncBank.EPOCH
     | _ => false)

/-- The stored fields that stand after a hub reset. -/
def keepRegs (s : State) : List (RegKey × Nat) :=
  s.rf.filter fun x => (regsOf x.1.page.blk).any fun f =>
    hubResetKeeps x.1.page f && f.lo == x.1.lo && (List.range f.count).any fun i => f.off + f.stride * i == x.1.off

/-- The fields of the site-bus page that the island keeps through DRY for selective wake (R510, R511, log entry 23). -/
def wakeConfig (s : State) : List (RegKey × Nat) :=
  s.rf.filter fun x => decide (x.1.page = sbPage) &&
    [Reg.siteBus.SB_PORT, Reg.siteBus.MODULE_NO, Reg.siteBus.WAKE_ID, Reg.siteBus.WAKE_RATE, Reg.siteBus.SB_KEY,
     Reg.siteBus.FV_BASE].any fun f => f.off == x.1.off && f.lo == x.1.lo

/-- Stage die `d` (13, 14) reports a fault (R124). -/
def stageReports (s : State) (d : Nat) : Bool :=
  let p := pageOf .powerStage 0 d
  rbit s p Reg.powerStage.OVERTEMP || rbit s p Reg.powerStage.OVERCURRENT || rbit s p Reg.powerStage.IV_UV
    || rbit s p Reg.powerStage.IV_OV

/-- A power-stage die reports a fault. -/
def stageFaults (s : State) : Bool := stageReports s 13 || stageReports s 14

/-- The header that a hub reset leaves of a page: the protection domain's and the power stages' own but for a command in
execution, which the journal settles (R63, R68, R89, R623); of any other page the epoch that follows its drain (R62). -/
def hubHeader (p : Page) (h : Header) : Header :=
  if p.blk = .powerStage then h
  else if p.blk = .eventLog then { h with cmd := none, lock := 0, fault := false }
  else if inProtection p.blk then { h with cmd := none }
  else { epoch := nextEpoch h.epoch }

/-- The hub outside the island and the protection domain is reset: its pages, contexts and queues, and what the link
and the gateway hold (R153, R156). A journal entry begun and not ended stays VOID (R87). -/
def hubClear (s : State) : State :=
  let s := { s with rf := keepRegs s, hdr := s.hdr.map fun (p, h) => (p, hubHeader p h), ctx := [] }
  hubLosses { s with
    jr := { s.jr with deferred := [], writing := none, lastAccept := none }
    bt := { s.bt with running := false, update := none, busy := none, sfdp := none }
    we := { s.we with waiters := s.we.waiters.filter (fun p => inProtection p.blk), ramp := s.we.ramp.filter (fun p => inProtection p.blk),
                      atLimit := 0, inside := 0 }
    fq := { s.fq with meas := [], relock := [], afterRail := [], rail := [], droop := [], stretched := [], longSeen := [] } }

/-- The service cores are released from reset once no die is powered (R155). -/
def hubResetGo (s : State) : State :=
  let s := setModelFaultOff (hubClear s)
  let s := radd (hubPage .boot) Reg.boot.HUB_RESETS 1 (setMode .booting s)
  { s with pw := { s.pw with phase := .cores, resetting := false, downMask := 0 } }

/-- The calibration of R128: `cycles` of the wake oscillator over 64 XTAL32 ticks, nominally 31,250. CAL_ERR keeps the error before
trim in 0.1 % units; the trim brings the frequency to the 16 MHz that the count tells (log entry 110). -/
def calibrate (cycles : Nat) (s : State) : State :=
  let e := roundAway (((cycles : Rat) - 31250) * 1000 / 31250)
  rset wakePage Reg.wake.CAL_ERR (ofInt 8 (max (-128) (min 127 e)))
    { s with ck := { s.ck with lastCal := some s.ck.dt, trim := if cycles = 0 then s.ck.trim else s.ck.trim * 31250 / (cycles : Rat) } }

/-- The calibration before a DRY entry, where none has been made since the last wake: its count is an open value (log entry 110). -/
def dryCalibrate (s : State) : State :=
  if rbit s timePage Reg.time.XTAL32_OK && s.ck.lastCal.isNone then
    let x := takeFree s
    calibrate (Config.freeNat x.1) x.2
  else s

/-- DRY: the power stages stop; the stacks and the hub outside the island and MRAM lose their state (R115, R125), the
open interval closes (R226). With XTAL32 failed the device wakes at once (R127). -/
def enterDry (why : DryCause) (s : State) : State :=
  let s := dryCalibrate s
  let s := closeInterval (max s.en.opened.dtOpen (stepAfter s.ck.dt)) (closeTrigger 2 s)
  let s := { s with en := { s.en with counted := [] } }
  let s := rset powerPage Reg.powerState.DRY_CAUSE_VALID 1
    (rset powerPage Reg.powerState.DRY_CAUSE (match why with
      | .command => 0
      | .underVoltage => 1
      | .overVoltage => 2
      | .coldStart => 3) s)
  let s := rset wakePage Reg.wake.DRY_WINDOWS 0 (rset wakePage Reg.wake.DRY_FRAMES 0 s)
  let wake := wakeConfig s
  let s := stackLosses (hubClear s)
  let s := { s with
    rf := s.rf ++ wake
    pw := { s.pw with mode := .dry, phase := .idle, dryWhy := why, dryWanted := none, qualified := false, rising := none, upQueue := [],
                      exhausted := false, resetting := false, downMask := 0 }
    ck := { s.ck with windows := [], decoders := [], accepted := false, refTries := 0, pending := 0 } }
  if rbit s timePage Reg.time.XTAL32_OK then s
  else
    let s := rset timePage Reg.time.DT_DEGRADED 1 { s with ck := { s.ck with src := .wakeOsc, oscOn := true } }
    wakeSource 12 s

/-- What follows once no die is powered or falling: a wanted DRY, a hub reset that waits, or TRICKLE declared with the
stacks in self-refresh (R120, R155). -/
def lastDieDown (s : State) : State :=
  if !s.pw.falling.isEmpty || decide (rget s powerPage Reg.powerState.DIE_ON ≠ 0) then s
  else
    match s.pw.dryWanted with
    | some why => enterDry why s
    | none =>
      let s := if s.pw.mode = .flow then setMode .trickle (portsDown s) else s
      if s.pw.resetting then hubResetGo s else s

/-- DRY is wanted: after the dies have gone down, or at once when none is powered (R108, R122). -/
def wantDry (why : DryCause) (s : State) : State :=
  lastDieDown (allDiesDown { s with pw := { s.pw with dryWanted := some why, upQueue := [] } })

/-- A supply fault (R109): it is counted and recorded; every running job ends and is marked for restart. -/
def supplyFault (kind : Nat) (s : State) : State :=
  let s := radd powerPage Reg.powerState.SUPPLY_FAULTS 1 s
  let s := raise 0x3001 12 0 kind (v48 s) s
  if s.pw.mode = .flow then faultAllJobs s else s

/-- The brown-out sequence: FLOW falls to TRICKLE (R108, R111). -/
def brownoutFall (s : State) : State :=
  let s := riseAborted s
  if s.pw.mode = .flow then allDiesDown s else s

/-- R110: while BROWNOUT or STAGE_DEGRADED is set, the grants of the power-state and die power pages are zero. -/
def holdPowerGrants (s : State) : State :=
  (powerPage :: (List.range 12).map (pageOf .diePower 0)).foldl
    (fun s p => if (hget s p).grant = 0 then s else cutGrant p s) s

end Sys2Proof.Machine
end

