-- ==== Sys2Proof/Machine/Freq.lean ====
section
/-! DEFINITION. Chapter 09: certified tables, core settings and rails, SPATE, measurement and derating, droop, heat. -/

namespace Sys2Proof.Machine

/-- The ramp room that a running core's change to setting `n` takes: the rise of its cost (R187, R243, R291; log entry 113). -/
def riseRoom (s : State) (g n : Nat) : Nat :=
  let k := codeOf s (g / 16) (g % 16 / 4)
  if nNow s g = 0 then 0 else atV48 s (coreCost n k - coreCost (nNow s g) k)

/-- SYNTH_RELOCK (R132): the core switches at a cycle boundary, a rise once the ramp limiter has room; a rail that may fall then falls,
and a job that waited for the clock starts (R243). -/
def execSynthRelock (core : Fin 192) (s : State) : Host.Outcome State Fault Refusal :=
  let g := core.val
  .next (match Assoc.get s.fq.relock g with
    | some n =>
      let e := riseRoom s g n
      if e ≠ 0 ∧ rampRoom s e = false then s
      else
        let s := bankStretch g (if e = 0 then s else takeRoom e s)
        let s := setN g n { s with fq := { s.fq with relock := s.fq.relock.filter (·.1 ≠ g) } }
        runReady (railFollows (g / 4) s)
    | none => s)

/-- The voltage points at which some core of quadrant `x` is certified, from `p` on (R250). -/
def usableFrom (s : State) (x p : Nat) : Option Nat :=
  (List.range 8).find? fun i => decide (p ≤ i) && (quadCores x).any fun g => cert s g i ≠ 63

/-- A measurement whose rail stands at its point goes on to the next usable one (R250). -/
def nextPoint (x : Nat) (s : State) : State :=
  match s.fq.meas.find? fun m => 4 * m.die + m.q == x with
  | none => s
  | some m =>
    match usableFrom s x (m.point + 1) with
    | none => s
    | some p => railTo x (pointCode p) { s with fq := { s.fq with meas := s.fq.meas.map fun y => if y = m then { y with point := p } else y } }

/-- RAIL_SETTLED (R243): K_NOW is the new code, and the cores that waited for it relock. -/
def execRailSettled (die : Fin 12) (q : Fin 4) (s : State) : Host.Outcome State Fault Refusal :=
  let x := 4 * die.val + q.val
  .next (match Assoc.get s.fq.rail x with
    | some k =>
      let go := s.fq.afterRail.filter fun a => a.1 / 4 == x
      let s := rset (freqPage die.val) Reg.dieFreq.K_NOW k
        { s with fq := { s.fq with rail := s.fq.rail.filter (·.1 ≠ x), afterRail := s.fq.afterRail.filter fun a => a.1 / 4 != x } } q.val
      nextPoint x (runReady (go.foldl (fun s a => relockTo a.1 a.2 s) s))
    | none => s)

/-! ### SPATE (R244, R245) -/

/-- SPATE cores of the device. -/
def spateCores (s : State) : List Nat := pick 192 fun g => coreRuns s g && regime s g == 1 && diePowered s (g / 16)

/-- The quadrant's hotter sensor in sixteenths of a degree. -/
def hotter (s : State) (x : Nat) : Int :=
  max (toInt 16 (rget s (freqPage (x / 4)) Reg.dieFreq.TEMP (2 * (x % 4))))
    (toInt 16 (rget s (freqPage (x / 4)) Reg.dieFreq.TEMP (2 * (x % 4) + 1)))

/-- A SPATE core returns to NOMINAL at once. -/
def spateNominal (g : Nat) (s : State) : State :=
  let n := quadCap s g (nominalN s g)
  if nTarget s g = n then s else setFreq g n s

/-- Every SPATE core returns to NOMINAL: THERM_CAP became valid or SHED_ACTIVE became 1 (R244). -/
def spateReturn (s : State) : State := (spateCores s).foldl (fun s g => spateNominal g s) s

/-- The throttle count of core `g` rose in the interval, or since the core began to serve its job in it. -/
def throttleRose (s : State) (g : Nat) : Bool :=
  (Assoc.get s.fq.thrSeen g).any (· ≠ rget s (corePage .core g) Reg.core.THROTTLE)

/-- The evaluation of one SPATE core (R244). -/
def spateOne (s : State) (g : Nat) : State :=
  let n := nTarget s g
  let hot := decide (1440 ≤ hotter s (g / 4))
  let capped := rbit s weirPage Reg.weir.THERM_CAP_VALID || rbit s weirPage Reg.weir.SHED_ACTIVE
  if hot || capped then spateNominal g s
  else if throttleRose s g then (if quadCap s g (nominalN s g) < n then setFreq g (n - 1) s else s)
  else if !s.fq.overSeen && !s.fq.rampSeen && decide ((n + 1 : Int) ≤ vfOrd (cert s g 7))
      && decide (n + 1 ≤ rget s (freqPage (g / 16)) Reg.dieFreq.SPATE_MAX) && decide (n + 1 ≤ 56)
      && decide (quadCap s g (n + 1) = n + 1) then setFreq g (n + 1) s
  else s

/-- SPATE_EVALUATE (R244): at every whole multiple of 100 µs, in FLOW. -/
def execSpateEvaluate (s : State) : Host.Outcome State Fault Refusal :=
  .next (if s.pw.mode = .flow ∧ duePeriod 100000 s.fq.lastEval s = true then
      let gs := spateCores s
      let s' := gs.foldl spateOne s
      { s' with fq := { s'.fq with
          overSeen := rbit s weirPage Reg.weir.OVERCOMMIT, rampSeen := rbit s weirPage Reg.weir.RAMP_LIMITED
          thrSeen := gs.map fun g => (g, rget s (corePage .core g) Reg.core.THROTTLE)
          lastEval := some s.ck.dt } }
    else s)

/-! ### Operating hours and measurement (R249–R252) -/

/-- OP_HOURS_CHECKPOINT (R249): one more minute of powered time. -/
def execOpHoursCheckpoint (die : Fin 12) (s : State) : Host.Outcome State Fault Refusal :=
  let t := Assoc.getD s.fq.lastMin die.val 0
  .next (if diePowered s die.val && passed t 60000000000 s then
      let m := Assoc.getD s.fq.opMin die.val 0 + 1
      rset (freqPage die.val) Reg.dieFreq.OP_HOURS (m / 60)
        { s with fq := { s.fq with opMin := Assoc.set s.fq.opMin die.val m
                                   lastMin := Assoc.set s.fq.lastMin die.val (t + 60000000000) } }
    else s)

def opHours (s : State) (d : Nat) : Nat := rget s (freqPage d) Reg.dieFreq.OP_HOURS

/-- A quadrant is due, or overdue (R249). -/
def measDue (s : State) (d q : Nat) : Bool := decide (rget s (freqPage d) Reg.dieFreq.LAST_MEAS q + 250 ≤ opHours s d)
def measOver (s : State) (d q : Nat) : Bool := decide (rget s (freqPage d) Reg.dieFreq.LAST_MEAS q + 274 ≤ opHours s d)

/-- MEAS_OVERDUE (R249). -/
def execMeasOverdue (die : Fin 12) (q : Fin 4) (s : State) : Host.Outcome State Fault Refusal :=
  let x := 4 * die.val + q.val
  .next (if measOver s die.val q.val && !s.fq.overdue.contains x then
      raise 0xE003 die.val q.val (opHours s die.val) 0 { s with fq := { s.fq with overdue := x :: s.fq.overdue } }
    else s)

/-- No core of the quadrant is assigned to a job, and a reserved core in use there is castled (R250). -/
def quadIdle (s : State) (x : Nat) : Bool := (quadCores x).all fun g => !coreAssigned s g && (!reservedInUse s g || castled s)

def measuring (s : State) (d q : Nat) : Bool := s.fq.meas.any fun m => m.die == d && m.q == q

/-- The quadrants of die `d` under measurement. -/
def measCount (s : State) (d : Nat) : Nat := (s.fq.meas.filter (·.die == d)).length

/-- The measurement allotment is granted for `n` quadrants of die `d`, 60 mA-in each (R250, R263). -/
def measGranted (s : State) (d n : Nat) : Bool := grantOk s (freqPage d) && decide (60 * n ≤ (hget s (freqPage d)).allotReq)

/-- Quadrant `q` of die `d` is measured from now on: its rail goes to the first usable point (R250). -/
def measBegin (d : Nat) (byCmd : Bool) (s : State) (q : Nat) : State :=
  let x := 4 * d + q
  let p := (usableFrom s x 0).getD 0
  railTo x (pointCode p) { s with fq := { s.fq with meas := s.fq.meas ++ [{ die := d, q := q, start := s.ck.dt, byCmd := byCmd, point := p }] } }

/-- AGEING_MEASURE_START (R250): the allotment is requested, and the measurement starts once it is granted. -/
def execAgeingMeasureStart (die : Fin 12) (q : Fin 4) (s : State) : Host.Outcome State Fault Refusal :=
  let d := die.val
  .next (if hubRuns s && measDue s d q.val && quadIdle s (4 * d + q.val) && !measuring s d q.val && diePowered s d
        && !(hget s (freqPage d)).quiesce then
      let n := measCount s d + 1
      let s := if measGranted s d n then s else withCaps (requestAllot (freqPage d) (60 * n)) s
      if measGranted s d n then measBegin d false s q.val else s
    else s)

/-! ### Derating (R252–R255) -/

/-- One derate record (R255). -/
def addDerate (g p old new cause : Nat) (s : State) : State :=
  let r : DerateRec := { num := s.fq.nextDr, time := s.ck.dt, hours := opHours s (g / 16), core := g, point := p,
                         old := old, new := new, cause := cause }
  let xs := s.fq.derates ++ [r]
  { s with fq := { s.fq with derates := xs.drop (xs.length - 2048), nextDr := s.fq.nextDr + 1 } }

/-- Both MRAM copies take an entry (R253). -/
def setCert (g p v : Nat) (s : State) : State :=
  { s with fq := { s.fq with copyA := Assoc.set s.fq.copyA (g, p) v, copyB := Assoc.set s.fq.copyB (g, p) v } }

/-- Lower points that exceed the new code, lowest first, then the named point (R253). -/
def lowerPoints (g p new cause : Nat) (s : State) : State :=
  let low := (List.range p).filter fun i => decide (vfOrd new < vfOrd (cert s g i))
  let s := low.foldl (fun s i => setCert g i new (addDerate g i (cert s g i) new 2 s)) s
  setCert g p new (addDerate g p (cert s g p) new cause s)

/-- What a derate does to a core whose present setting is now too high (R254). -/
def derateActs (g : Nat) (s : State) : State :=
  if retired s g then stopClock g (faultJobOfCore g 0x06 s)
  else if !coreRuns s g then s
  else if regime s g = 2 then
    if vfOrd (cert s g 3) < nTarget s g then faultJobOfCore g 0x06 s else s
  else
    let top := quadCap s g (vfOrd (cert s g 7)).toNat
    if top < nTarget s g then setFreq g top s else railFollows (g / 4) s

/-- A DERATE that has passed its checks: tables, records, events, the core's setting, the DERATE source (R253, R254). -/
def doDerate (g p new cause : Nat) (s : State) : State :=
  let n := s.fq.nextDr
  let s := lowerPoints g p new cause s
  let s := (List.range (s.fq.nextDr - n)).foldl (fun s i => raise 0xE004 (g / 16) (g % 16) (n + i) 0 s) s
  irqPulse heatPage 10 (derateActs g s)

/-- Hub firmware may issue a command of its own now: not within 10 µs of the last acceptance, not before commands that wait, and not
during a live update (R81, R91). -/
def firmwareMay (s : State) : Bool := hubRuns s && !tooSoon s && s.jr.deferred.isEmpty && s.bt.update.isNone

/-- DERATE issued by hub firmware after a measurement: journaled as FUNCTION 16, SOURCE 3, and ended OK (R252). DESIGN CHOICE (log entry
113): a MEASURE that still executes on the page, which ends only once it has been derated, does not make it BUSY. -/
def firmwareDerate (g p new : Nat) (s : State) : State :=
  let pg := freqPage (g / 16)
  let r : Req := { client := .firmware, source := .hubInternal, arg := BitVec.ofNat 32 (g % 16 + p * 16 + new * 256), tag := 0 }
  let q := jNumber s
  let s := jCommand (commandEntry s pg 2 r Code.ok) s
  let s := setResult pg .firmware Code.ok (some (q % 65536)) { s with jr := { s.jr with lastAccept := some s.ck.dt } }
  doDerate g p new 0 s

/-- Every point of a measured quadrant is settled: LAST_MEAS, the rail back to its cores, and the end of the MEASURE, or of the hub's
own allotment request (R250, R252, R263). -/
def measSettled (m : Meas) (s : State) : State :=
  let d := m.die
  let x := 4 * d + m.q
  let s := rset (freqPage d) Reg.dieFreq.LAST_MEAS (opHours s d)
    { s with fq := { s.fq with meas := s.fq.meas.filter (fun y => !(y.die == d && y.q == m.q)), overdue := s.fq.overdue.filter (· ≠ x) } } m.q
  let s := railFollows x s
  if m.byCmd then (if s.fq.meas.any (fun y => y.die == d && y.byCmd) then s else endCmd (freqPage d) Code.ok s)
  else if s.fq.meas.any (fun y => y.die == d && y.byCmd) then s
  else withCaps (requestAllot (freqPage d) (60 * measCount s d)) s

/-- The oldest measurement that is done goes on: its next derate where firmware may issue one, and its end after the last (R252). -/
def derateStep (s : State) : State :=
  match s.fq.meas.find? (·.done) with
  | none => s
  | some m =>
    match m.todo with
    | [] => measSettled m s
    | (g, p, new) :: rest =>
      if !firmwareMay s then s
      else
        let m' := { m with todo := rest }
        let s := { s with fq := { s.fq with meas := s.fq.meas.map fun y => if y = m then m' else y } }
        let s := firmwareDerate g p new s
        if rest.isEmpty then measSettled m' s else s

/-- A measured value below the certified entry, as the code that a DERATE names; −1 means none (R250, R252). -/
def derateFor (s : State) (x : Nat) (y : Fin 4 × Fin 8 × Int) : Option (Nat × Nat × Nat) :=
  let g := 4 * x + y.1.val
  if cert s g y.2.1.val ≠ 63 ∧ y.2.2 < vfOrd (cert s g y.2.1.val) then
    some (g, y.2.1.val, if y.2.2 < 0 then 63 else y.2.2.toNat)
  else none

/-- AGEING_MEASURE_DONE (R250, R252). `measured` names core, point and measured value, −1 for none. The derates follow one acceptance
at a time (R81). -/
def execAgeingMeasureDone (die : Fin 12) (q : Fin 4) (measured : List (Fin 4 × Fin 8 × Int)) (s : State) :
    Host.Outcome State Fault Refusal :=
  let d := die.val
  .next (match s.fq.meas.find? (fun m => m.die == d && m.q == q.val) with
    | none => s
    | some m =>
      if !measGranted s d (measCount s d) || m.done then s
      else
        let m' := { m with done := true, todo := measured.filterMap (derateFor s (4 * d + q.val)) }
        derateStep { s with fq := { s.fq with meas := s.fq.meas.map fun y => if y = m then m' else y } })

/-- The effect of MEASURE (R263). -/
def measureEffect (d : Nat) (r : Req) (s : State) : State :=
  let qs := bitsSet 4 r.arg.toNat
  if qs.any fun q => (quadCores (4 * d + q)).any fun g => coreAssigned s g then endCmd (freqPage d) Code.badArg s
  else if qs.isEmpty then endCmd (freqPage d) Code.ok s
  else
    let s := if qs.any fun q => (quadCores (4 * d + q)).any fun g => reservedInUse s g then castleEnter Cause.maint s else s
    let s := { s with fq := { s.fq with meas := s.fq.meas.map fun m => if m.die = d ∧ qs.contains m.q then { m with byCmd := true } else m } }
    (qs.filter fun q => !measuring s d q).foldl (measBegin d true) s

/-- MEASURE (R263). -/
def execMeasure (die : Fin 12) (r : Req) (s : State) : Host.Outcome State Fault Refusal :=
  .next (command (freqPage die.val) 0x01 r (measureEffect die.val r) s)

/-- The effect of DERATE (R253, R263). -/
def derateEffect (d : Nat) (r : Req) (s : State) : State :=
  let a := r.arg.toNat
  let g := 16 * d + bitsOf a 0 4
  let p := bitsOf a 4 3
  let new := bitsOf a 8 6
  if (r.client = .pf0 ∨ r.client = .firmware) ∧ bitsOf a 7 1 = 0 ∧ a < 2 ^ 14 ∧ (new ≤ 56 ∨ new = 63)
      ∧ vfOrd new < vfOrd (cert s g p) then
    endCmd (freqPage d) Code.ok (commitCmd (freqPage d) (doDerate g p new (if r.client = .pf0 then 1 else 0) s))
  else endCmd (freqPage d) Code.badArg s

/-- DERATE (R253). -/
def execDerate (die : Fin 12) (r : Req) (s : State) : Host.Outcome State Fault Refusal :=
  .next (command (freqPage die.val) 0x02 r (derateEffect die.val r) s)

/-! ### Droop (R256, R257) -/

/-- DROOP_DETECT (R256). -/
def execDroopDetect (core : Fin 192) (s : State) : Host.Outcome State Fault Refusal :=
  .next (if diePowered s (core.val / 16) && !(s.fq.droop.any (·.core == core.val)) then
      { s with fq := { s.fq with
          droop := s.fq.droop ++ [{ core := core.val, since := s.ck.dt, counted := s.ck.dt }]
          stretched := if s.fq.stretched.contains core.val then s.fq.stretched else s.fq.stretched ++ [core.val] } }
    else s)

/-- DROOP_RECOVER (R256): the supply has stayed above the level for 16 consecutive cycles. -/
def execDroopRecover (core : Fin 192) (s : State) : Host.Outcome State Fault Refusal :=
  .next (if s.fq.droop.any (·.core == core.val) then
      let s := bankStretch core.val s
      { s with fq := { s.fq with droop := s.fq.droop.filter (·.core ≠ core.val), longSeen := s.fq.longSeen.filter (· ≠ core.val) } }
    else s)

/-- LONG_DROOP (R257): stretching continuous for 1 µs. -/
def execLongDroop (core : Fin 192) (s : State) : Host.Outcome State Fault Refusal :=
  .next (match s.fq.droop.find? (·.core == core.val) with
    | some x =>
      if passed x.since 1000 s && !s.fq.longSeen.contains core.val then
        raise 0xE005 (core.val / 16) (core.val % 16) (droopCycles s core.val) 0
          { s with fq := { s.fq with longSeen := core.val :: s.fq.longSeen } }
      else s
    | none => s)

/-! ### Heat (R258–R264) -/

/-- A reading into its register (R258, R263, R264). -/
def storeReading (x : Reading) (s : State) : State :=
  let v := ofInt 16 x.value
  match x.sensor with
  | .die d i => if diePowered s d.val then rset (freqPage d.val) Reg.dieFreq.TEMP v s i.val else s
  | .hub i => rset heatPage Reg.heat.HUB_T v s i.val
  | .stage i => rset heatPage Reg.heat.PS_T v s i.val
  | .stack k => rset heatPage Reg.heat.STACK_T v s k.val

/-- SPATE_HOLD_TEMPERATURE (R244): the hotter sensor of a quadrant reaches 90 °C. -/
def execSpateHoldTemperature (die : Fin 12) (sensor : Fin 8) (value : Int) (s : State) : Host.Outcome State Fault Refusal :=
  .next (if 1440 ≤ value then
      let s := storeReading { sensor := .die die sensor, value := value } s
      ((spateCores s).filter fun g => g / 4 == 4 * die.val + sensor.val / 2).foldl (fun s g => spateNominal g s) s
    else s)

/-- The present reading of every sensor, as (is a stack, value in sixteenths). -/
def allReadings (s : State) : List (Bool × Int) :=
  (List.range 12).flatMap (fun d => (List.range 8).map fun i => (false, toInt 16 (rget s (freqPage d) Reg.dieFreq.TEMP i)))
    ++ (List.range 4).map (fun i => (false, toInt 16 (rget s heatPage Reg.heat.HUB_T i)))
    ++ (List.range 4).map (fun i => (false, toInt 16 (rget s heatPage Reg.heat.PS_T i)))
    ++ (List.range 6).map (fun i => (true, toInt 16 (rget s heatPage Reg.heat.STACK_T i)))

/-- The present reading of every die sensor, as (die, instance, value): compute dies, the hub and the power stages (R258, R259). -/
def dieReadings (s : State) : List (Nat × Nat × Int) :=
  (List.range 12).flatMap (fun d => (List.range 8).map fun i => (d, i, toInt 16 (rget s (freqPage d) Reg.dieFreq.TEMP i)))
    ++ (List.range 4).map (fun i => (12, i, toInt 16 (rget s heatPage Reg.heat.HUB_T i)))
    ++ (List.range 4).map (fun i => (13 + i / 2, i % 2, toInt 16 (rget s heatPage Reg.heat.PS_T i)))

/-- The margin of a reading in sixteenths (R259). -/
def margin (s : State) (x : Bool × Int) : Int :=
  x.2 - 16 * (if x.1 then 85 else (rget s heatPage Reg.heat.THROTTLE_AT : Int))

/-- The largest margin and its reading. -/
def hottest (s : State) : Int × Int :=
  (allReadings s).foldl (fun m x => if m.1 < margin s x then (margin s x, x.2) else m) (-100000, 0)

/-- THERM_CAP published or withdrawn; THROTTLE follows its validity (R259, R264). -/
def setThermCap (v : Nat) (valid : Bool) (s : State) : State :=
  let was := rbit s weirPage Reg.weir.THERM_CAP_VALID
  let s := rflag weirPage Reg.weir.THERM_CAP_VALID valid (rset weirPage Reg.weir.THERM_CAP v s)
  let s := irqLevel heatPage 8 valid (alertSettle s)
  if valid && !was then spateReturn s else s

/-- `thermal_step` of R259; `governed` is the governed current, last 1 ms average. -/
def thermalStep (readings : List Reading) (governed : Nat) (s : State) : State :=
  let s := readings.foldl (fun s x => storeReading x s) s
  let h := hottest s
  let s := rset heatPage Reg.heat.HOT_T (ofInt 16 h.2) s
  let s := (dieReadings s).foldl (fun s x => if 1680 ≤ x.2.2 then raise 0xE006 x.1 x.2.1 (ofInt 16 x.2.2) 0 s else s) s
  let cap := rget s weirPage Reg.weir.THERM_CAP
  let valid := rbit s weirPage Reg.weir.THERM_CAP_VALID
  let host := rget s weirPage Reg.weir.HOST_CAP
  if 0 ≤ h.1 then
    let bad := (allReadings s).any fun x => if x.1 then decide (1520 ≤ x.2) else decide (1680 ≤ x.2)
    let base := if valid then cap else governed
    let keep := if bad then base * 80 / 100 else base * 95 / 100
    let s := setThermCap (max (floorSum s) keep) true s
    { s with fq := { s.fq with below := 0 } }
  else if h.1 < -32 ∧ valid = true then
    if s.fq.below + 1 = 10 then
      let v := cap + host / 50
      setThermCap v (decide (v < host)) { s with fq := { s.fq with below := 0 } }
    else { s with fq := { s.fq with below := s.fq.below + 1 } }
  else s

/-- THERMAL_STEP (R259): every 1 ms in the protection domain. -/
def execThermalStep (readings : List Reading) (governed : Nat) (s : State) : Host.Outcome State Fault Refusal :=
  .next (if protRuns s && duePeriod 1000000 s.fq.lastTherm s then
      withCaps (fun s => thermalStep readings governed { s with fq := { s.fq with lastTherm := some s.ck.dt } }) s
    else s)

/-- The die number by which TRIP_DIE names a sensor, its stack, and its trip temperature in sixteenths (R260, R264). -/
def tripOf : Sensor → Nat × Nat × Int
  | .die d _ => (d.val, 0, 1840)
  | .hub _ => (12, 0, 1840)
  | .stage i => (13 + i.val / 2, 0, 1840)
  | .stack k => (15, k.val, 1680)

/-- A trip (R260): TRIPPED, THERM_TRIP_N low, the shed cap. -/
def trip (sensor : Sensor) (s : State) : State :=
  let x := tripOf sensor
  let s := rset heatPage Reg.heat.TRIP_STACK x.2.1 (rset heatPage Reg.heat.TRIP_DIE x.1 (rset heatPage Reg.heat.TRIPPED 1 s))
  let s := radd heatPage Reg.heat.TRIPS 1 { s with fq := { s.fq with tripAt := some s.ck.dt, tripPin := true } }
  irqLevel heatPage 9 true (alertSettle s)

/-- THERMAL_TRIP (R260): the comparator path uses no firmware and works wherever the supply is up. -/
def execThermalTrip (sensor : Sensor) (value : Int) (s : State) : Host.Outcome State Fault Refusal :=
  .next (if (tripOf sensor).2.2 ≤ value ∧ s.pw.mode ≠ .dry ∧ s.pw.mode ≠ .off then
      let s := storeReading { sensor := sensor, value := value } s
      if rbit s heatPage Reg.heat.TRIPPED then s else withCaps (trip sensor) s
    else s)

/-- TRIP_DIE_DOWN (R261): a die still at the trip temperature 100 ms after the trip goes down. -/
def execTripDieDown (die : Fin 12) (s : State) : Host.Outcome State Fault Refusal :=
  .next (match s.fq.tripAt with
    | some t =>
      if rbit s heatPage Reg.heat.TRIPPED && passed t 100000000 s
          && (List.range 8).any (fun i => decide (1840 ≤ toInt 16 (rget s (freqPage die.val) Reg.dieFreq.TEMP i))) then
        dieDownStart die.val s
      else s
    | none => s)

/-- The effect of TRIP_CLEAR (R262, R264). -/
def tripClearEffect (r : Req) (s : State) : State :=
  if r.arg = 0 ∧ rbit s heatPage Reg.heat.TRIPPED = true ∧ (allReadings s).all (fun x => decide (x.2 < 1600)) = true then
    let s := rset heatPage Reg.heat.TRIPPED 0 { s with fq := { s.fq with tripAt := none, tripPin := false } }
    endCmd heatPage Code.ok (irqLevel heatPage 9 false (alertSettle s))
  else endCmd heatPage Code.badArg s

/-- TRIP_CLEAR (R264). -/
def execTripClear (r : Req) (s : State) : Host.Outcome State Fault Refusal :=
  .next (command heatPage 0x01 r (fun s => withCaps (tripClearEffect r) s) s)

/-- Bytes of a derate record (R255). -/
def derateBytes (r : DerateRec) : List Byte :=
  let body := leBytes 8 r.num ++ leBytes 8 r.time ++ leBytes 4 r.hours ++ leBytes 1 r.core ++ leBytes 1 r.point
    ++ leBytes 1 r.old ++ leBytes 1 r.new ++ leBytes 1 r.cause ++ leBytes 3 0
  body ++ leBytes 4 (crc32 body)

/-- The fetch of a derate record with the semantics of R94 (R255, R264). -/
def fetchDerate (c : Client) (hi : Nat) (s : State) : State :=
  let s := rsetC c heatPage Reg.heat.DR_RD_HI hi s
  let x := hi % 2 ^ 32 * 2 ^ 32 + rgetC s c heatPage Reg.heat.DR_RD_LO
  let r : Nat × List Nat :=
    if s.fq.nextDr ≤ x then (2, List.replicate 8 0)
    else
      match s.fq.derates.find? (·.num == x) with
      | some d => (0, leWords (derateBytes d) 8)
      | none => (1, List.replicate 8 0)
  rsetCs c heatPage Reg.heat.DR_W r.2 (rsetC c heatPage Reg.heat.DR_RD_STAT r.1 s)

/-- DR_FETCH (R264). -/
def execDrFetch (c : Client) (hi : Word) (s : State) : Host.Outcome State Fault Refusal :=
  .next (inOrder c heatPage (.write 0x0A4 hi.toNat) (blockWrite c heatPage 0x0A4 (fetchDerate c hi.toNat)) s)

end Sys2Proof.Machine
end

