-- ==== Sys2Proof/Machine/Weir.lean ====
section
/-! DEFINITION. Chapter 07: correction, issue credits, retention, shedding and cuts. -/

namespace Sys2Proof.Machine

/-! ### The grant epoch (R192–R203) -/

/-- The class that prices an array format: 0 FP8/INT8, 1 4-bit, 2 BF16/FP16 (R188). -/
def formatClass (fmt : Nat) : Nat := if fmt ≤ 2 then fmt else 2

/-- Array `a` of core `g` is power-gated: its bit in GATED of its quadrant's array-group page (R290). -/
def gatedAt (g a : Nat) : Page × Nat × Nat :=
  (pageOf .arrayGroup (g % 16 / 4) (g / 16), g % 4, a)

def arrayGated (s : State) (g a : Nat) : Bool :=
  let x := gatedAt g a
  bitAt (rget s x.1 Reg.arrayGroup.GATED x.2.1) x.2.2

def setGated (g a : Nat) (on : Bool) (s : State) : State :=
  let x := gatedAt g a
  rset x.1 Reg.arrayGroup.GATED (putBit (rget s x.1 Reg.arrayGroup.GATED x.2.1) x.2.2 on) s x.2.1

/-- A credit still to come that covers epoch `e` for array `a` of core `g` in format `fmt`: its price has been paid. -/
def paidFor (s : State) (g a fmt e : Nat) : Bool :=
  s.we.credits.any fun c => c.core == g && c.array == a && c.fmt == formatClass fmt && decide (c.first ≤ e ∧ e ≤ c.last)

/-- The epoch that a grant computation grants for (R194). -/
def nextEpochNo (s : State) : Nat := s.ck.dt / 64 + 1

/-- The price of a credit, mA-in: F[n] events of its class, twice for a gated array, nothing for the second epoch of such a credit
(R192). -/
def creditPrice (s : State) (g a fmt : Nat) : Rat :=
  let d := g / 16
  let n := rget s (pageOf .dieFreq 0 d) Reg.dieFreq.N_NOW (g % 16)
  let mw := eventEnergy s d (g % 16 / 4) (formatClass fmt) 1 * cyclesPerEpoch n / 100 / 64
  if paidFor s g a fmt (nextEpochNo s) then 0 else toMaIn s (s.we.gain * mw) * (if arrayGated s g a then 2 else 1)

/-- The credit that a grant makes: of a gated array, or of one whose credit runs on, it is that of the second epoch (R192). -/
def creditFor (s : State) (g a fmt : Nat) : Credit :=
  let e := nextEpochNo s + (arrayGated s g a).toNat
  { core := g, array := a, fmt := formatClass fmt, first := e, last := e }

/-- The reserved cores of R30: global cores 0 and 96. -/
def reservedCore (g : Nat) : Bool := g == 0 || g == 96

/-- A quadrant of tier 3: not quadrant 0 of C0 or C6 while tier 1 holds it (R183, R201). -/
def tier3Quadrant (s : State) (x : Nat) : Bool := !(tier1Applies s && (x == 0 || x == 24))

/-- One round of the credit loop: each core from the rotor on is granted its next array if the pool holds its price. -/
def creditRound (s : State) : List (Nat × List (Nat × Nat)) → Rat → List Credit →
    List (Nat × List (Nat × Nat)) × Rat × List Credit × Bool
  | [], pool, got => ([], pool, got, false)
  | (g, []) :: rest, pool, got =>
    let r := creditRound s rest pool got
    ((g, []) :: r.1, r.2.1, r.2.2.1, r.2.2.2)
  | (g, (a, fmt) :: more) :: rest, pool, got =>
    let k := creditPrice s g a fmt
    if k ≤ pool then
      let r := creditRound s rest (pool - k) (got ++ [creditFor s g a fmt])
      ((g, more) :: r.1, r.2.1, r.2.2.1, true)
    else
      let r := creditRound s rest pool got
      ((g, (a, fmt) :: more) :: r.1, r.2.1, r.2.2.1, r.2.2.2)

/-- Rounds until one makes no progress (R194); `n` bounds their number. -/
def creditRounds (s : State) : Nat → List (Nat × List (Nat × Nat)) → Rat → List Credit →
    List (Nat × List (Nat × Nat)) × Rat × List Credit
  | 0, rs, pool, got => (rs, pool, got)
  | n + 1, rs, pool, got =>
    let r := creditRound s rs pool got
    if r.2.2.2 then creditRounds s n r.1 r.2.1 r.2.2.1 else (r.1, r.2.1, r.2.2.1)

/-- The requests in the order of a round: cores from the rotor upward, wrapping at 192. -/
def fromRotor (c : Nat) (rs : List (Nat × List (Nat × Nat))) : List (Nat × List (Nat × Nat)) :=
  rs.filter (fun x => c ≤ x.1) ++ rs.filter (fun x => x.1 < c)

/-- The classes that a credit pays for (R192). -/
def creditClass (i : Nat) : Bool := decide (i ≤ 2)

/-- The classes that the VEC and DMA issue gates scale (R188, R200; log entry 112). -/
def gatedClass (i : Nat) : Bool := i == 4 || i == 5 || i == 12

/-- The predicted dynamic draw of an epoch but for credits, mW: `predicted` are its counts at full rate, of which the gates pass
`duty` sixteenths; a quadrant in retention has its clocks stopped, and the transit domains go on (R190, R194, R201). -/
def predictedMw (s : State) (predicted : List Increment) (duty : Nat) : Rat :=
  (predicted.map fun x =>
    if creditClass x.cls.val || (!isTransitClass x.cls.val && s.we.retained.contains (4 * x.die.val + x.quad.val)) then 0
    else eventEnergy s x.die.val x.quad.val x.cls.val x.count / 100 / 64 * (if gatedClass x.cls.val then (duty : Rat) / 16 else 1)).foldl (· + ·) 0

/-- The predicted draw of the next epoch excluding credits, in mA-in: R190 with predicted counts, the gates at `duty` and the tier-2
floor of p_hub; the tier-0 reserve stands beside it in the budget (R194). -/
def basePredicted (s : State) (predicted : List Increment) (duty : Nat) : Rat :=
  toMaIn s (s.we.gain * (predictedMw s predicted duty + staticMw s + 220 * 48))

/-- The largest duty, in sixteenths, at which the gates fit under `lim` (R200 step 2; R199 for a rise). -/
def dutyFor (s : State) (predicted : List Increment) (lim : Rat) : Nat → Nat
  | 0 => 0
  | d + 1 => if basePredicted s predicted (d + 1) ≤ lim then d + 1 else dutyFor s predicted lim d

/-- The duty of the next epoch from the present one and `room`, what the limit leaves over the predicted draw. A shortfall lowers it
by as many sixteenths as it takes. DESIGN CHOICE (log entry 112): the spec gives only the lowering; the gates open again in the same
computation, as far as what the credits have left over allows. -/
def nextDuty (s : State) (predicted : List Increment) (room left : Rat) : Nat :=
  let base := basePredicted s predicted s.we.duty
  if room < 0 then dutyFor s predicted (base + room) s.we.duty
  else max s.we.duty (dutyFor s predicted (base + left) 16)

/-- Tier-3 quadrants with no issue: powered, and no core of theirs holds a credit. -/
def idleQuadrants (s : State) : List Nat :=
  pick 48 fun x => diePowered s (x / 4) && tier3Quadrant s x
    && !(s.we.credits.any fun c => c.core / 4 == x && decide (nextEpochNo s ≤ c.last))

/-- Tier-3 quadrants that are not awake in this slice enter retention (R200 step 3, R201). -/
def retain (s : State) : State :=
  let q := (idleQuadrants s).filter fun x => !s.we.retained.contains x && !s.we.woken.contains x && !(s.we.waking.any (·.1 == x))
  { s with we := { s.we with retained := s.we.retained ++ q } }

/-- Step 4 of R200: the aux grant falls by `e` mA-in, toward zero; not while the block is in reset (R186, R202). -/
def cutAux (e : Rat) (s : State) : State :=
  let aux := auxGrant s
  if aux = 0 ∨ e ≤ 0 ∨ (hget s auxPage).phase = .inReset then s
  else addWaiter auxPage (setGrant auxPage (aux - min aux e.ceil.toNat) s)

/-- Throttle counts (R203): one for each core whose request was not fully granted, one device-wide. -/
def countThrottled (left : List (Nat × List (Nat × Nat))) (s : State) : State :=
  let gs := (left.filter fun x => !x.2.isEmpty).map (·.1)
  let s := gs.foldl (fun s g => jobThrottled g (rwrap (corePage .core g) Reg.core.THROTTLE 1 s)) s
  if gs.isEmpty then s else rwrap weirPage Reg.weir.THROTTLED 1 s

/-- CANAL_INT of R248: CANAL cores with an unmet request, a cycle stretched in this epoch or a quadrant in retention. -/
def countCanal (left : List (Nat × List (Nat × Nat))) (s : State) : State :=
  let s := (List.range 192).foldl (fun s g =>
    let p := pageOf .dieFreq 0 (g / 16)
    if regime s g = 2 &&
        ((left.any fun x => x.1 == g && !x.2.isEmpty) || s.fq.stretched.contains g
          || s.we.retained.contains (g / 4)) then
      jobCanalInt g (rwrap p Reg.dieFreq.CANAL_INT 1 s (g % 16))
    else s) s
  { s with fq := { s.fq with stretched := s.fq.droop.map (·.core) } }

/-- The credits granted: arrays leave gating, each array's last epoch with a credit is kept, and credits of past epochs go (R192). -/
def takeCredits (got : List Credit) (s : State) : State :=
  got.foldl (fun s c =>
    let s := setGated c.core c.array false s
    { s with we := { s.we with idle := Assoc.set s.we.idle (32 * c.core + c.array) c.last } })
    { s with we := { s.we with credits := (s.we.credits.filter fun c => decide (s.ck.dt / 64 ≤ c.last)) ++ got } }

/-- `grant_epoch` of R194 with the reduction of R200. `predicted` are the counts predicted for the next epoch at full rate. -/
def grantEpoch (predicted : List Increment) (s : State) : State :=
  let cap := effCap s
  let budget : Rat := (cap : Rat) - atV48 s 200 - auxGrant s - s.we.offset
  let budget := if rbit s weirPage Reg.weir.MODEL_FAULT then budget - (cap : Rat) / 5 else budget
  let ramp : Rat := s.we.total + rget s weirPage Reg.weir.RAMP * 64 / 10
  let lim := min budget ramp
  let base := basePredicted s predicted s.we.duty
  let room := lim - base
  let pool := max 0 room
  let rs := fromRotor s.we.rotor s.we.requests
  let r := creditRounds s ((rs.map fun x => x.2.length).foldl max 0 + 1) rs pool []
  let s := takeCredits r.2.2 (countCanal r.1 (countThrottled r.1 s))
  let s := { s with we := { s.we with
    rotor := (s.we.rotor + 1) % 192, duty := nextDuty s predicted room r.2.1
    requests := s.we.late, late := [], lastEpoch := some s.ck.dt } }
  let s := if room < 0 ∧ s.we.duty = 0 ∧ lim < basePredicted s predicted 0 then retain s else s
  let next := basePredicted s predicted s.we.duty + (pool - r.2.1)
  let s := if room < 0 then cutAux (next - lim) s else s
  let withheld := decide (room < 0) || (r.1.any fun x => !x.2.isEmpty) || decide (s.we.duty < 16)
    || !s.we.retained.isEmpty || !s.we.ramp.isEmpty
  let s := rflag weirPage Reg.weir.RAMP_LIMITED (decide (ramp < budget) && withheld) s
  { s with
    we := { s.we with total := next, room := max 0 (lim - next) }
    fq := { s.fq with
      overSeen := s.fq.overSeen || rbit s weirPage Reg.weir.OVERCOMMIT
      rampSeen := s.fq.rampSeen || rbit s weirPage Reg.weir.RAMP_LIMITED } }

/-- GRANT_EPOCH (R194): once in each epoch of 64 ns, in Weir cycles 14 and 15. -/
def execGrantEpoch (predicted : List Increment) (s : State) : Host.Outcome State Fault Refusal :=
  .next (if protRuns s && duePeriod 64 s.we.lastEpoch s && decide (14 ≤ weirCycle s) then withCaps (grantEpoch predicted) s else s)

/-- The grant computation of the present epoch has run. -/
def grantedNow (s : State) : Bool := s.we.lastEpoch.any fun t => t / 64 == s.ck.dt / 64

/-- The arrays of the MMAs in core `g`'s queue that have not run, each with its format class, the oldest MMA first (R308). -/
def mmaWants (s : State) (g : Nat) : List (Nat × Nat) :=
  ((coreRun s g).mma.filter fun q => !q.done).flatMap fun q => q.d.arrayList.map fun a => (a, mmaClass q.d.fmtA)

/-- Core `g` requests array `x.1` in format `x.2`: its queue names the array, and its oldest MMA that does has that format (R193,
R308). -/
def wantsCredit (s : State) (g : Nat) (x : Nat × Nat) : Bool :=
  (mmaWants s g).find? (fun y => y.1 == x.1) == some (x.1, formatClass x.2)

/-- What core `g` asks for of `wanted`, its arrays with cycles left. -/
def asked (s : State) (g : Nat) (wanted : List (Fin 32 × Fin 3)) : List (Nat × Nat) :=
  (wanted.map fun x => (x.1.val, x.2.val)).filter (wantsCredit s g)

/-- CREDIT_REQUEST (R193, R308): for the next epoch, or for the one after it from Weir cycle 14 on. -/
def execCreditRequest (core : Fin 192) (wanted : List (Fin 32 × Fin 3)) (s : State) : Host.Outcome State Fault Refusal :=
  .next (if !diePowered s (core.val / 16) then s
    else
      let w := asked s core.val wanted
      if weirCycle s ≤ 13 ∨ grantedNow s = true then
        { s with we := { s.we with requests := Assoc.set s.we.requests core.val w } }
      else { s with we := { s.we with late := Assoc.set s.we.late core.val w } })

/-- ARRAY_POWER_GATE (R192): an array that has held no credit for 16 consecutive epochs. -/
def execArrayPowerGate (core : Fin 192) (array : Fin 32) (s : State) : Host.Outcome State Fault Refusal :=
  .next (if diePowered s (core.val / 16)
        && !(s.we.credits.any fun c => c.core == core.val && c.array == array.val && decide (s.ck.dt / 64 ≤ c.last))
        && decide (Assoc.getD s.we.idle (32 * core.val + array.val) 0 + 16 < s.ck.dt / 64) then
      setGated core.val array.val true s
    else s)

/-! ### Correction (R197, R198) -/

/-- One tagged increment counts in its die's counter (R191). -/
def countEvents (incs : List Increment) (s : State) : State :=
  incs.foldl (fun s x => rwrap (pageOf .dieModel 0 x.die.val) Reg.dieModel.CNT x.count s x.cls.val) s

/-- The model draw of one microsecond at gain 1, mA-in (R190, R197). -/
def modelRaw (s : State) (incs : List Increment) : Rat :=
  let dynamic := (incs.map fun x => eventEnergy s x.die.val x.quad.val x.cls.val x.count).foldl (· + ·) 0 / 100000
  toMaIn s (dynamic + staticMw s + pHub)

/-- V48_IN as measured now, and its minimum, which the first measurement sets (R103, R121). Outside 40–60 V a qualification of
R112 ends. -/
def senseV48 (v : Nat) (s : State) : State :=
  let s := rset powerPage Reg.powerState.V48 v { s with pw := { s.pw with qualified := s.pw.qualified && decide (4000 ≤ v ∧ v ≤ 6000) } }
  let m := rget s powerPage Reg.powerState.V48_MIN
  rset powerPage Reg.powerState.V48_MIN (if m = 0 then v else min m (v % 65536)) s

/-- The registers that a correction step senses, and the readings of the sensors that have updated (R103, R124, R210, R258). -/
def takeSense (m : Sense) (s : State) : State :=
  let s := senseV48 m.v48 s
  let stage := fun (d i o v : Nat) (s : State) =>
    let p := pageOf .powerStage 0 d
    rset p Reg.powerStage.IIN i (rset p Reg.powerStage.IOUT o (rset p Reg.powerStage.VIV v s))
  let s := stage 13 m.iin0 m.iout0 m.viv0 (stage 14 m.iin1 m.iout1 m.viv1 s)
  let s := m.readings.foldl (fun s x => storeReading x s) s
  let s := (List.range 8).foldl (fun s n => rset (hubPage .aux) Reg.aux.I_NOW (m.aux.getD n 0) s n) s
  let sum := (List.range 8).foldl (fun a n => a + m.aux.getD n 0) 0
  rset weirPage Reg.weir.I_AUX sum (rset (hubPage .aux) Reg.aux.SUM sum s)

/-- MODEL_FAULT set or cleared (R198). -/
def setModelFault (on : Bool) (s : State) : State :=
  irqLevel weirPage 12 on (rflag weirPage Reg.weir.MODEL_FAULT on s)

/-- The block behind a page may draw: it is neither off nor in reset. On a page where EN has no effect EN says nothing (R61, R121,
R123). -/
def mayDraw (s : State) (p : Page) : Bool := hasAllotment p.blk && ((hget s p).en || !enHasEffect p.blk) && !offline s p

/-- PG_DRAW of every page that carries an allotment: a modelled share that no rule states, zero where the block is off
or in reset (R65, R186). -/
def updateDraws (s : State) : State :=
  (s.hdr.map (·.1)).foldl (fun s p =>
    if mayDraw s p then
      let x := takeFree s
      hset p { hget x.2 p with draw := Config.freeNat x.1 % 2 ^ 32 } x.2
    else hset p { hget s p with draw := 0 } s) s

/-- `correct` of R197 with the account step of R215: the new gain, and the efficiency entry that the step's model used; the present
IV-rail current selects the entry of the next step (R190). -/
def correctStep (m : Sense) (s : State) : State :=
  let incs := m.events ++ s.en.counted
  let s := countEvents m.events (takeSense m s)
  let s := { s with en := { s.en with counted := [] } }
  let iSense := (m.iin0 + m.iin1) * 10
  let raw := modelRaw s incs
  let gain := max (8 / 10) (min (5 / 4) (s.we.gain + ((iSense : Rat) / max raw 1 - s.we.gain) / 8))
  let offset := max 0 ((iSense : Rat) - gain * raw)
  let limit := decide (gain = 8 / 10 ∨ gain = 5 / 4)
  let s := { s with we := { s.we with
    gain := gain, offset := offset, iRaw := raw
    atLimit := if limit then s.we.atLimit + 1 else 0
    inside := if limit then 0 else s.we.inside + 1
    lastStep := some s.ck.dt } }
  let s := rset weirPage Reg.weir.I_SENSE iSense (rset weirPage Reg.weir.I_MODEL (gain * raw).floor.toNat s)
  let s := accountStep iSense (rget s weirPage Reg.weir.I_AUX) incs s
  let s := { s with we := { s.we with effJ := min 15 ((m.iout0 + m.iout1) * 10 / 12500) } }
  let s := updateDraws (followVoltage s)
  if m.excursion then irqPulse weirPage 13 (radd weirPage Reg.weir.EXCURSIONS 1 s) else s

/-- CORRECT (R197): once in each microsecond of TRICKLE and FLOW. -/
def execCorrect (m : Sense) (s : State) : Host.Outcome State Fault Refusal :=
  .next (if protRuns s && duePeriod 1000 s.we.lastStep s then sitePowerCheck (withCaps (correctStep m) s) else s)

/-- MODEL_FAULT (R198): the gain has sat at a limit for 16 consecutive steps. -/
def execModelFault (s : State) : Host.Outcome State Fault Refusal :=
  .next (if 16 ≤ s.we.atLimit && !rbit s weirPage Reg.weir.MODEL_FAULT then
      setModelFault true (raise 0x3002 12 0 (s.we.gain * 16384).floor.toNat 0 s)
    else s)

/-- MODEL_FAULT_CLEAR (R198): the gain has stayed inside its limits for 1,000 consecutive steps. -/
def execModelFaultClear (s : State) : Host.Outcome State Fault Refusal :=
  .next (if 1000 ≤ s.we.inside then setModelFault false s else s)

/-! ### Retention (R201) -/

/-- The quadrants in retention from the rotation on, wrapping at 48. -/
def rotationOrder (s : State) : List Nat :=
  (List.range 48).map (fun i => (s.we.rotation + i) % 48) |>.filter fun x => s.we.retained.contains x

/-- RETENTION_SLICE (R201): the quadrants woken in the previous slice return to retention, and the next ones wake, as
many as the room allows at 75 mA-in each. -/
def retentionSlice (s : State) : State :=
  let back := s.we.woken ++ s.we.waking.map (·.1)
  let each := atV48 s 75
  let w := if each = 0 then 0 else (max 0 s.we.room / each).floor.toNat
  let s := { s with we := { s.we with retained := s.we.retained ++ back.filter fun x => !s.we.retained.contains x } }
  let next := (rotationOrder s).take w
  let s := takeRoom (each * next.length) s
  { s with we := { s.we with
      retained := s.we.retained.filter fun x => !next.contains x
      woken := []
      waking := next.map fun x => (x, s.ck.dt + 4000)
      rotation := match next.getLast? with
        | some x => (x + 1) % 48
        | none => s.we.rotation
      lastSlice := some s.ck.dt } }

def execRetentionSlice (s : State) : Host.Outcome State Fault Refusal :=
  .next (if protRuns s && duePeriod 50000 s.we.lastSlice s then retentionSlice s else s)

/-- QUADRANT_WAKE_COMPLETE (R201): 4 µs after the wake began. -/
def execQuadrantWakeComplete (die : Fin 12) (q : Fin 4) (s : State) : Host.Outcome State Fault Refusal :=
  let x := 4 * die.val + q.val
  .next (match Assoc.get s.we.waking x with
    | some t =>
      if t ≤ s.ck.dt then
        { s with we := { s.we with waking := s.we.waking.filter (·.1 ≠ x), woken := s.we.woken ++ [x] } }
      else s
    | none => s)

/-! ### Room, cuts, sheds and the host cap -/

/-- A die power page that is in reset is not cut (R186, R202). -/
def dieCuttable (s : State) (d : Nat) : Bool := decide ((hget s (pageOf .diePower 0 d)).phase ≠ .inReset)

/-- The dies that step 5 of R200 can cut, highest first, while the site channel keeps C0 and C6. -/
def cuttableDies (s : State) : List Nat :=
  (pick 12 fun d => diePowered s d && dieCuttable s d && !s.pw.falling.contains d && !(tier1Applies s && (d == 0 || d == 6))).reverse

/-- Step 5: dies cut until the floors of the rest fit, at most all of them. -/
def cutDies : List Nat → State → State
  | [], s => s
  | d :: ds, s =>
    if effCap s < atV48 s (floorRef s fun x => diePowered s x && !s.pw.falling.contains x) then
      cutDies ds (dieDownStart d (cutGrant (pageOf .diePower 0 d) s))
    else s

/-- Step 6: the hub castles, then tier 1 is cut. -/
def cutTier1 (s : State) : State :=
  if tier1Applies s && decide (effCap s < atV48 s (floorRef s fun x => diePowered s x && !s.pw.falling.contains x)) then
    let s := if castled s && s.sc.lost then s else powerCause s
    let s := if (hget s (hubPage .siteChannel)).phase = .inReset then s else cutGrant (hubPage .siteChannel) s
    ([6, 0].filter (dieCuttable s)).foldl (fun s d => dieDownStart d (cutGrant (pageOf .diePower 0 d) s)) s
  else s

/-- FLOOR_BREACH_CUT (R200 steps 5 and 6). -/
def execFloorBreachCut (s : State) : Host.Outcome State Fault Refusal :=
  .next (if rbit s weirPage Reg.weir.FLOOR_BREACH then
      let s := cutAux (auxGrant s) s
      sitePowerCheck (withCaps (fun s => cutTier1 (cutDies (cuttableDies s) s)) s)
    else s)

/-- An assertion accepted (R205). SHED_PIN shows the filtered level of the pin: 0 while asserted. -/
def shedAssert (s : State) : State :=
  let s := { s with we := { s.we with shedLast := some s.ck.dt } }
  let s := radd weirPage Reg.weir.SHEDS 1 (rset weirPage Reg.weir.SHED_PIN 0 (rset weirPage Reg.weir.SHED_ACTIVE 1 s))
  spateReturn (irqLevel weirPage 9 true (alertSettle s))

/-- SHED_MIN since the latest assertion has passed (R205). -/
def shedMinOver (s : State) : Bool :=
  match s.we.shedLast with
  | some t => passed t (rget s weirPage Reg.weir.SHED_MIN * 1000000) s
  | none => true

/-- The shed ends (R205, R207). -/
def shedEnd (s : State) : State := irqLevel weirPage 9 false (alertSettle (rset weirPage Reg.weir.SHED_ACTIVE 0 s))

/-- SHED_ASSERT (R205); in DRY and until TRICKLE the island takes the level alone (R535). -/
def execShedAssert (s : State) : Host.Outcome State Fault Refusal :=
  .next (let s := { s with shedPin := true }
    if protRuns s then withCaps shedAssert s else s)

/-- SHED_RELEASE (R205). -/
def execShedRelease (s : State) : Host.Outcome State Fault Refusal :=
  .next (let s := { s with shedPin := false }
    if protRuns s then
      withCaps (fun s =>
        let s := rset weirPage Reg.weir.SHED_PIN 1 s
        if shedMinOver s then shedEnd s else s) s
    else s)

/-- SHED_MIN_EXPIRE (R205). -/
def execShedMinExpire (s : State) : Host.Outcome State Fault Refusal :=
  .next (if rbit s weirPage Reg.weir.SHED_ACTIVE && rbit s weirPage Reg.weir.SHED_PIN && shedMinOver s then
      withCaps shedEnd s
    else s)

/-- The effect of SET_HOST_CAP (R181, R211). -/
def setHostCapEffect (r : Req) (s : State) : State :=
  if r.arg.toNat ≤ 40000 ∧ (r.client = .pf0 ∨ r.client = .firmware) then
    endCmd weirPage Code.ok (withCaps (rset weirPage Reg.weir.HOST_CAP r.arg.toNat) s)
  else endCmd weirPage Code.badArg s

/-- SET_HOST_CAP (R211). -/
def execSetHostCap (r : Req) (s : State) : Host.Outcome State Fault Refusal :=
  .next (command weirPage 0x01 r (setHostCapEffect r) s)

end Sys2Proof.Machine
end

