-- ==== Sys2Proof/Machine/Power.lean ====
section
/-! DEFINITION. Chapter 04: the supply thresholds, the power states and their commands. -/

namespace Sys2Proof.Machine

/-- The power stages run: from the wake to the next DRY (R117, R120). -/
def stagesRun (s : State) : Bool := decide (s.pw.mode = .booting ∨ s.pw.mode = .trickle ∨ s.pw.mode = .flow)

/-- A threshold of R108 that does not act in this state is still a measurement of V48_IN. -/
def measured (v : Nat) (s : State) : State := if s.pw.mode = .off then s else senseV48 v s

/-! ### Thresholds (R108, R109) -/

/-- BROWNOUT set: grants held at zero, jobs ended, FLOW falls (R108–R110). -/
def brownout (s : State) : State :=
  let s := irqLevel powerPage 8 true (alertSettle (rset powerPage Reg.powerState.BROWNOUT 1 s))
  brownoutFall (holdPowerGrants (supplyFault 0 s))

/-- BROWNOUT (R108): the falling threshold of 38.0 V ± 0.4 V, met for its filter time. -/
def execBrownout (v : Nat) (s : State) : Host.Outcome State Fault Refusal :=
  .next (if (s.pw.mode = .trickle ∨ s.pw.mode = .flow) ∧ v < 3840 ∧ rbit s powerPage Reg.powerState.BROWNOUT = false then
      withCaps (fun s => brownout (senseV48 v s)) s
    else if v < 3840 then withCaps (measured v) s
    else s)

/-- BROWNOUT cleared, in whatever power state (R108); RECOVERED rises where the page is not in reset with the hub. -/
def brownoutOver (s : State) : State :=
  let s := alertSettle (rset powerPage Reg.powerState.BROWNOUT 0 s)
  if hubRuns s then retryAll (irqPulse powerPage 9 (irqLevel powerPage 8 false s)) else s

/-- BROWNOUT_CLEAR (R108): at or above 40.0 V ± 0.4 V for 10 ms. -/
def execBrownoutClear (v : Nat) (s : State) : Host.Outcome State Fault Refusal :=
  .next (if s.pw.mode ≠ .off ∧ 3960 ≤ v ∧ rbit s powerPage Reg.powerState.BROWNOUT = true then
      brownoutOver (senseV48 v s)
    else s)

/-- The device passes through the brown-out sequence if it was in FLOW, and enters DRY (R108). -/
def fallToDry (kind : Nat) (why : DryCause) (s : State) : State :=
  wantDry why (brownoutFall (supplyFault kind s))

/-- STAGE_UNDERVOLTAGE (R108): below 30.0 V ± 0.5 V. -/
def execStageUndervoltage (v : Nat) (s : State) : Host.Outcome State Fault Refusal :=
  .next (if v < 3050 then
      if stagesRun s then withCaps (fun s => fallToDry 1 .underVoltage (senseV48 v s)) s else measured v s
    else s)

/-- OVERVOLTAGE_TRIP (R108): above 62.0 V ± 0.5 V. -/
def execOvervoltageTrip (v : Nat) (s : State) : Host.Outcome State Fault Refusal :=
  .next (if 6150 < v then
      if stagesRun s then withCaps (fun s => fallToDry 2 .overVoltage (senseV48 v s)) s else measured v s
    else s)

/-- The four fault bits of a stage as they read now: OVERTEMP, OVERCURRENT, IV_UV, IV_OV (R124). -/
def setStageBits (stage bits : Nat) (s : State) : State :=
  let p := pageOf .powerStage 0 (13 + stage)
  rflag p Reg.powerStage.OVERTEMP (bitAt bits 0) (rflag p Reg.powerStage.OVERCURRENT (bitAt bits 1)
    (rflag p Reg.powerStage.IV_UV (bitAt bits 2) (rflag p Reg.powerStage.IV_OV (bitAt bits 3) s)))

/-- A power-stage die that reported no fault reports one: it stops switching, and the device falls to TRICKLE on the other
stage (R111). With both stopped, nothing makes the IV rail: DRY, as for a stage under-voltage (log entry 25). -/
def stageFault (stage bits : Nat) (s : State) : State :=
  let s := pgFault (pageOf .powerStage 0 (13 + stage)) true (setStageBits stage bits s)
  let s := rset powerPage Reg.powerState.STAGE_DEGRADED 1 s
  let s := brownoutFall (holdPowerGrants (supplyFault 3 s))
  if stageReports s 13 && stageReports s 14 then wantDry .underVoltage s else s

/-- STAGE_FAULT (R111): `bits` are the stage's fault bits as they read now, none when its report ends. A stage that does not run
in DRY reports nothing new. -/
def execStageFault (stage : Fin 2) (bits : BitVec 4) (s : State) : Host.Outcome State Fault Refusal :=
  .next (if bits = 0 ∨ (stagesRun s = true ∧ stageReports s (13 + stage.val) = true) then setStageBits stage.val bits.toNat s
    else if stagesRun s then withCaps (stageFault stage.val bits.toNat) s
    else s)

/-! ### The always-on converter and the cold start (R105, R153, R229) -/

/-- AO_CONVERTER_STOP (R105): the package is dark; the island's state is lost. -/
def execAoConverterStop (s : State) : Host.Outcome State Fault Refusal :=
  .next (islandLosses { s with pw := { s.pw with mode := .off } })

/-- The billing state that the boot after a cold start finds: the checkpointed open interval becomes a record with
LOST_TAIL and its remainders go on, the accumulators restart from zero, the ring stands, and the index advances at the opening, which is
checkpointed (R223, R229, R232). -/
def coldEnergy (e : Energy) : Energy :=
  let fresh := fun (x : Nat) (left : List Rat) (ring : List IntervalRec) =>
    let o : OpenInterval := { index := x, totals := left }
    ({ opened := o, ring := ring, saved := some { dt := 0, acc := List.replicate 21 0, opened := o } } : Energy)
  match e.saved with
  | none => fresh (e.opened.index + 1) (List.replicate 21 0) e.ring
  | some c =>
    let o := c.opened
    let r : IntervalRec :=
      { index := o.index, flags := putBit (o.flags ||| (if o.noWall then 2 else 0) ||| (if o.lenNew then 64 else 0)) 3 true
        len := o.len, utcS := o.utcS, utcNs := o.utcNs, dtOpen := o.dtOpen, dtClose := c.dt, step := 0
        fields := recordOrder.map (fun a => wholeUnits (o.totals.getD a 0)), ready := false }
    fresh (o.index + 1) (remainders o.totals) (keepRing (e.ring ++ [r]))

/-- The registers that MRAM holds (R263). -/
def mramRegs (s : State) : List (RegKey × Nat) :=
  s.rf.filter fun x => decide (x.1.page.blk = .dieFreq) && ((x.1.off == 0x098) || (decide (0x0A0 ≤ x.1.off ∧ x.1.off ≤ 0x0AC)))

/-- The package after a cold start: everything at reset, with MRAM, fuses and flash kept (R153); one more power cycle
(R113). -/
def coldStart (s : State) : State :=
  let new : State := { State.reset with
    pending := s.pending, out := s.out, fresh := s.fresh, dir := s.dir, rf := mramRegs s
    jr := { nextSeq := s.jr.nextSeq, slots := s.jr.slots, unsettled := s.jr.unsettled, committed := s.jr.committed,
            cycles := s.jr.cycles + 1 }
    bt := { flash := s.bt.flash }
    ev := { nextUid := s.ev.nextUid, ring := s.ev.ring, nextSeq := s.ev.nextSeq, ff := s.ev.ff, opSec := s.ev.opSaved,
            opSaved := s.ev.opSaved }
    en := coldEnergy s.en
    fq := { copyA := s.fq.copyA, copyB := s.fq.copyB, goodA := s.fq.goodA, goodB := s.fq.goodB, derates := s.fq.derates,
            nextDr := s.fq.nextDr, opMin := s.fq.opMin, overdue := s.fq.overdue }
    fuse := s.fuse, fuseOn := s.fuseOn }
  let new := rset powerPage Reg.powerState.DRY_CAUSE_VALID 1 (rset powerPage Reg.powerState.DRY_CAUSE 3 new)
  let new := rset (hubPage .eventLog) Reg.eventLog.FF_FULL (decide (4032 ≤ s.ev.ff.length)).toNat new
  coldKeep s (rset (hubPage .eventLog) Reg.eventLog.TFULL (decide (4096 ≤ s.ev.ff.length)).toNat new)

/-- COLD_START (R153): V48_IN rises through 18 V after the converter has stopped. -/
def execColdStart (s : State) : Host.Outcome State Fault Refusal :=
  .next (if s.pw.mode = .off then coldStart s else s)

/-- DRY_EXIT_QUALIFIED (R112): V48_IN has stayed within 40–60 V for 10 ms, so BROWNOUT clears too (R108). After three failed REFCLK
attempts it starts a fresh set only once V48_IN has left that range (R130). -/
def execDryExitQualified (v : Nat) (s : State) : Host.Outcome State Fault Refusal :=
  .next (if s.pw.mode = .dry ∧ 4000 ≤ v ∧ v ≤ 6000 then
      let anew := !s.pw.qualified || !s.pw.exhausted
      let s := brownoutOver (senseV48 v s)
      let s := { s with pw := { s.pw with qualified := true } }
      if s.pw.dryWhy ≠ .command ∧ anew = true then wakeAccept true s
      else if s.ck.pending ≠ 0 then wakeAccept false s
      else s
    else s)

/-! ### DIE_UP, DIE_DOWN, ENTER_DRY (R118–R122) -/

/-- While no die rises, the next named die starts to rise under the ramp limiter, once it has gone down where it was still going
down; after the last, a DIE_UP that executes ends with OK (R118, R122). -/
def riseNext (s : State) : State :=
  if s.pw.rising.isSome then s
  else
    match s.pw.upQueue with
    | d :: ds =>
      if s.pw.falling.contains d then s
      else rampEnter (pageOf .diePower 0 d) (setDieTrans d true { s with pw := { s.pw with rising := some d, upQueue := ds } })
    | [] => powerCmdEnds 1 Code.ok s

/-- The dies of a mask that DIE_UP has still to bring up: neither ACTIVE nor rising (R122). -/
def diesToRise (s : State) (m : Nat) : List Nat :=
  (bitsSet 12 m).filter fun d => (!diePowered s d || s.pw.falling.contains d) && s.pw.rising ≠ some d

/-- The effect of DIE_UP (R122). -/
def dieUpEffect (r : Req) (s : State) : State :=
  let m := r.arg.toNat
  if m = 0 ∨ 4096 ≤ m then endCmd powerPage Code.badArg s
  else if recovery s || !grantOk s powerPage || (bitsSet 12 m).any (fun d => !grantOk s (pageOf .diePower 0 d)) then
    endCmd powerPage Code.noGrant s
  else
    riseNext { s with pw := { s.pw with upQueue := diesToRise s m } }

/-- DIE_UP (R122). -/
def execDieUp (r : Req) (s : State) : Host.Outcome State Fault Refusal :=
  .next (command powerPage 0x01 r (dieUpEffect r) s)

/-- Every die that DIE_DOWN names is off (R122). -/
def downDone (s : State) : Bool := (bitsSet 12 s.pw.downMask).all fun d => !diePowered s d

/-- The effect of DIE_DOWN (R122). -/
def dieDownEffect (r : Req) (s : State) : State :=
  let m := r.arg.toNat
  if 4096 ≤ m then endCmd powerPage Code.badArg s
  else
    let s := (bitsSet 12 m).foldl (fun s d => dieDownStart d s) { s with pw := { s.pw with downMask := m } }
    if downDone s then endCmd powerPage Code.ok s else s

/-- DIE_DOWN (R122). -/
def execDieDown (r : Req) (s : State) : Host.Outcome State Fault Refusal :=
  .next (command powerPage 0x02 r (dieDownEffect r) s)

/-- The effect of ENTER_DRY (R122): its final code stands in the journal before the power stages stop. -/
def enterDryEffect (r : Req) (s : State) : State :=
  if r.arg = 0 then wantDry .command (finishCmd powerPage Code.ok s) else endCmd powerPage Code.badArg s

/-- ENTER_DRY (R122). -/
def execEnterDry (r : Req) (s : State) : Host.Outcome State Fault Refusal :=
  .next (command powerPage 0x03 r (enterDryEffect r) s)

/-- Die `d` is ACTIVE: FLOW, its event counters at zero, and the next die starts (R118, R191). -/
def dieActive (d : Nat) (s : State) : State :=
  let s := setDieOn d true (setDieTrans d false { s with pw := { s.pw with rising := none } })
  let s := (List.range 18).foldl (fun s i => rset (pageOf .dieModel 0 d) Reg.dieModel.CNT 0 s i) s
  let s := { s with fq := { s.fq with lastMin := Assoc.set s.fq.lastMin d (s.ck.dt - Assoc.getD s.fq.opPart d 0) } }
  riseNext (startOfDie d (if s.pw.mode = .trickle then setMode .flow s else s))

/-- DIE_ACTIVE (R118): the rising die's bring-up completes, once the ramp limiter has let it through. -/
def execDieActive (d : Fin 12) (s : State) : Host.Outcome State Fault Refusal :=
  .next (if hubRuns s = true ∧ s.pw.rising = some d.val ∧ s.we.ramp.contains (pageOf .diePower 0 d.val) = false then dieActive d.val s
    else s)

/-- CORE_DOMAIN_DOWN (R119, R120). -/
def coreDomainDown (d : Nat) (s : State) : State :=
  let s := dieContentsLost d { s with pw := { s.pw with falling := s.pw.falling.filter (· ≠ d) } }
  let s := setDieOn d false (setDieTrans d false s)
  let s := if downDone s then powerCmdEnds 2 Code.ok s else s
  lastDieDown (riseNext s)

def execCoreDomainDown (d : Fin 12) (s : State) : Host.Outcome State Fault Refusal :=
  .next (if s.pw.falling.contains d.val then withCaps (coreDomainDown d.val) s else s)

/-- V48_MIN_WRITE (R121): any write loads the present V48. -/
def execV48MinWrite (c : Client) (v : Word) (s : State) : Host.Outcome State Fault Refusal :=
  .next (inOrder c powerPage (.write 0x050 v.toNat) (blockWrite c powerPage 0x050 (fun s => rset powerPage Reg.powerState.V48_MIN (v48 s) s)) s)

end Sys2Proof.Machine
end

