-- ==== Sys2Proof/Machine/Wake.lean ====
section
/-! DEFINITION. Chapter 05: clock failures, calibration, CAN wake, pins, REFCLK and the handover of device time. -/

namespace Sys2Proof.Machine

def inDry (s : State) : Bool := decide (s.pw.mode = .dry)

/-- XTAL32_FAIL (R127): flagged; in DRY, and after it until the hub has taken device time over (R140), the island keeps device time
on the wake oscillator and wakes. DESIGN CHOICE (log entry 110): no rule says when XTAL32_OK returns to 1; it stands at 0 until a
cold start. -/
def execXtal32Fail (s : State) : Host.Outcome State Fault Refusal :=
  .next (if s.pw.mode = .off ∨ rbit s timePage Reg.time.XTAL32_OK = false then s
    else
      let island := inDry s || decide (s.ck.src ≠ .pll)
      let s := raise 0xE007 12 0 island.toNat (s.ck.dt % 2 ^ 32) (rset timePage Reg.time.XTAL32_OK 0 s)
      if island then
        wakeSource 12 (rset timePage Reg.time.DT_DEGRADED 1 { s with ck := { s.ck with src := .wakeOsc, oscOn := true } })
      else s)

/-- WAKE_OSC_CALIBRATE (R128): before a DRY entry, and every 600 s in DRY. -/
def execWakeOscCalibrate (cycles : Nat) (s : State) : Host.Outcome State Fault Refusal :=
  .next (if s.pw.mode = .off ∨ (inDry s = true ∧ (match s.ck.lastCal with
        | some t => passed t 600000000000 s
        | none => true) = false) then s
    else calibrate cycles s)

/-- WAKE_EN bit `i`; bits 5 and 12 are fixed at 1 (R152). -/
def wakeEn (s : State) (i : Nat) : Bool := i == 5 || i == 12 || bitAt (rget s wakePage Reg.wake.WAKE_EN) i

/-- The listen window of a port is open (R135). -/
def windowOpen (s : State) (port : Nat) : Bool :=
  match Assoc.get s.ck.windows port with
  | some e => decide (s.ck.ticks < e + 656)
  | none => false

/-- The CAN wake detectors work: in DRY, and on the way out of it until the hub takes over (R128, R138). -/
def canWakes (s : State) : Bool := inDry s || (decide (s.pw.mode = .booting) && s.ck.accepted && decide (s.ck.src ≠ .pll))

/-- CAN_ACTIVITY_EDGE (R134–R136): a dominant edge on an armed port opens or restarts the listen window. `recessive` is the number of
whole recessive bit times before it: the decoder is ready after 11 of them that follow the start of its oscillator, so the frame of
the first edge is never decoded. -/
def execCanActivityEdge (port : Fin 4) (recessive : Nat) (s : State) : Host.Outcome State Fault Refusal :=
  .next (if canWakes s && wakeEn s port.val then
      let opened := windowOpen s port.val
      let s' := { s with ck := { s.ck with
        oscOn := true
        windows := Assoc.set s.ck.windows port.val s.ck.ticks
        decoders := if opened then
            (if recessive < 11 ∨ s.ck.decoders.contains port.val then s.ck.decoders else port.val :: s.ck.decoders)
          else s.ck.decoders.filter (· ≠ port.val) } }
      if opened then s' else radd wakePage Reg.wake.DRY_WINDOWS 1 s'
    else s)

/-- LISTEN_WINDOW_CLOSE (R135): with the last window the oscillator stops and the decoders reset. -/
def execListenWindowClose (port : Fin 4) (s : State) : Host.Outcome State Fault Refusal :=
  .next (match Assoc.get s.ck.windows port.val with
    | some e =>
      if e + 656 ≤ s.ck.ticks then
        let ws := s.ck.windows.filter (·.1 ≠ port.val)
        { s with ck := { s.ck with
          windows := ws
          oscOn := if ws.isEmpty then decide (s.ck.src = .wakeOsc) else s.ck.oscOn
          decoders := if ws.isEmpty then [] else s.ck.decoders } }
      else s
    | none => s)

/-- DRY_WAKE_FRAME_MATCH (R136, R510): a decoded frame without bit-rate switch; one that matches is kept for the hub. -/
def execDryWakeFrameMatch (port : Fin 4) (f : CanFrame) (s : State) : Host.Outcome State Fault Refusal :=
  .next (if canWakes s && wakeEn s port.val && windowOpen s port.val && s.ck.decoders.contains port.val && !f.brs then
      let s := radd wakePage Reg.wake.DRY_FRAMES 1 s
      if wakePattern s port.val f then wakeSource port.val { s with ck := { s.ck with kept := some (port.val, f) } } else s
    else s)

/-- ALARM_REACHED (R133, R152): the ALARM source in TRICKLE and FLOW, a wake in DRY, one more cause on the way out of it (R138). After
three failed REFCLK attempts an ALARM already passed starts no fresh set (R130). -/
def execAlarmReached (s : State) : Host.Outcome State Fault Refusal :=
  .next (if s.ck.alarm ≤ s.ck.dt then
      if inDry s then
        if wakeEn s 6 && !(s.pw.exhausted && s.ck.alarmHit) then wakeSource 6 { s with ck := { s.ck with alarmHit := true } } else s
      else if hubRuns s then irqLevel wakePage 8 true { s with ck := { s.ck with alarmHit := true } }
      else if decide (s.pw.mode = .booting) && wakeEn s 6 && !s.ck.alarmHit then
        wakeSource 6 { s with ck := { s.ck with alarmHit := true } }
      else s
    else s)

/-- The level at which a pin wakes: PERST_N high, a GPIO as GPIO_POL says (R133, R152). -/
def pinWakes (s : State) (pin : Nat) (high : Bool) : Bool :=
  if pin = 0 then high else high == bitAt (rget s wakePage Reg.wake.GPIO_POL) (pin - 1)

/-- WAKE_PIN_LEVEL (R133): pin 0 is PERST_N, pins 1–4 are GPIO0–GPIO3; the level has been held for 2 ticks. After three failed REFCLK
attempts a level that the pin has not left starts no fresh set (R130). -/
def execWakePinLevel (pin : Fin 5) (high : Bool) (s : State) : Host.Outcome State Fault Refusal :=
  .next (let held := Assoc.get s.ck.pins pin.val = some high
    let t := { s with ck := { s.ck with pins := Assoc.set s.ck.pins pin.val high } }
    if wakeEn s (7 + pin.val) && pinWakes s pin.val high && !(s.pw.exhausted && held) then wakeSource (7 + pin.val) t else t)

/-! ### REFCLK (R130) -/

/-- REFCLK within 100 MHz ± 200 ppm. -/
def refclkGood (hz : Option Nat) : Bool :=
  match hz with
  | some f => decide (99980000 ≤ f ∧ f ≤ 100020000)
  | none => false

/-- A failed attempt counts in REFCLK_RETRIES (R130, R152). -/
def refclkFails (s : State) : State := radd wakePage Reg.wake.REFCLK_RETRIES 1 { s with ck := { s.ck with refTries := s.ck.refTries + 1, wakeOut := false } }

/-- REFCLK_CHECK (R130): the boot goes on, or WAKE_OUT falls for a retry; after the third failure the device stays in
DRY. The exit from DRY is a hub reset, and HUB_RESETS counts it; the boot of a cold start is none since that cold start (R153, R177). -/
def execRefclkCheck (hz : Option Nat) (s : State) : Host.Outcome State Fault Refusal :=
  .next (if s.pw.mode = .booting ∧ s.pw.phase = .refclk then
      if refclkGood hz then
        let s := { s with pw := { s.pw with phase := .cores } }
        if s.bt.cause = 2 then radd (hubPage .boot) Reg.boot.HUB_RESETS 1 s else s
      else if 2 ≤ s.ck.refTries then
        let s := refclkFails s
        { s with ck := { s.ck with accepted := false }
                 pw := { s.pw with mode := .dry, phase := .idle, exhausted := true, qualified := v48InRange s, refFailed := 3 } }
      else
        let s := refclkFails s
        { s with pw := { s.pw with phase := .refWait (s.ck.dt + 10000000) } }
    else s)

/-- REFCLK_RETRY (R130): 10 ms after a failed attempt. -/
def execRefclkRetry (s : State) : Host.Outcome State Fault Refusal :=
  .next (match s.pw.phase with
    | .refWait t =>
      if t ≤ s.ck.dt then { s with ck := { s.ck with wakeOut := true }, pw := { s.pw with phase := .refclk } } else s
    | _ => s)

/-- DEVICE_TIME_HANDOVER (R140): at DRY entry the island takes device time with frac = 0 and WAKE_OUT falls; after a
wake the time PLL takes over once it has locked. -/
def execDeviceTimeHandover (s : State) : Host.Outcome State Fault Refusal :=
  .next (if inDry s && decide (s.ck.src = .pll) then
      { s with ck := { s.ck with src := .xtal, frac := 0, wakeOut := false } }
    else if (s.pw.phase = .cores ∨ s.pw.phase = .ready ∨ hubRuns s = true) ∧ s.ck.src ≠ .pll ∧ s.pw.mode ≠ .off ∧ s.pw.mode ≠ .dry then
      { s with ck := { s.ck with src := .pll, frac := 0, oscOn := false, windows := [], decoders := [] } }
    else s)

/-- The alarm that a write to ALARM_HI sets (R152). -/
def alarmTake (v : Nat) (s : State) : State :=
  let s := rset wakePage Reg.wake.ALARM_HI v s
  let a := v * 2 ^ 32 + rget s wakePage Reg.wake.ALARM_LO
  let s := { s with ck := { s.ck with alarm := a, alarmHit := decide (a ≤ s.ck.dt) } }
  irqLevel wakePage 8 (decide (a ≤ s.ck.dt)) s

/-- ALARM_WRITE (R152): a write to ALARM_HI makes the new alarm take effect. -/
def execAlarmWrite (c : Client) (v : Word) (s : State) : Host.Outcome State Fault Refusal :=
  .next (inOrder c wakePage (.write 0x04C v.toNat) (blockWrite c wakePage 0x04C (alarmTake v.toNat)) s)

/-! ### Device time itself (R139) -/

/-- One advance of device time: a time-PLL cycle, an XTAL32 tick, or a wake-oscillator cycle of 62.5 ns. Operating
seconds count in TRICKLE and FLOW (R607). -/
def tick (s : State) : State :=
  match s.pw.mode with
  | .off => s
  | _ =>
    let old := s.ck.dt
    let ck := match s.ck.src with
      | .pll => { s.ck with dt := old + tickNs s }
      | .xtal => { s.ck with dt := old + tickNs s, frac := (s.ck.frac + 37) % 64, ticks := s.ck.ticks + 1 }
      | .wakeOsc => { s.ck with dt := old + tickNs s, frac := (s.ck.frac + 32) % 64 }
    let s := { s with ck := ck }
    if protRuns s then
      let n := s.ev.opNs + (ck.dt - old)
      { s with ev := { s.ev with opSec := s.ev.opSec + n / 1000000000, opNs := n % 1000000000 } }
    else s

end Sys2Proof.Machine
end

