-- ==== Sys2Proof/Machine/Time.lean ====
section
/-! DEFINITION. Chapter 05: the wall clock, its servo and PTP (R144–R151). -/

namespace Sys2Proof.Machine

/-- SRC_SEL (R150). -/
def srcSel (s : State) : Nat := rget s timePage Reg.time.SRC_SEL

/-- The effect of WALL_SET (R145, R151): the staged value, LAST_STEP, WALL_VALID; a step closes the billing interval
(R226, R230). -/
def wallSetEffect (r : Req) (s : State) : State :=
  let ns := rget s timePage Reg.time.STAGE_NS
  let fromHost := decide (r.client = .pf0 ∨ r.client = .siteBus)
  let servo := decide (srcSel s = 2 ∨ srcSel s = 3)
  if r.arg ≠ 0 ∨ 1000000000 ≤ ns ∨ fromHost = servo then endCmd timePage Code.badArg s
  else
    let sec := rget s timePage Reg.time.STAGE_SEC_LO + rget s timePage Reg.time.STAGE_SEC_HI * 2 ^ 32
    let new : Int := ((sec * 1000000000 + ns : Nat) : Int)
    let utcOld := toInt 16 (rget s timePage Reg.time.UTC_OFFSET)
    let utcNew := toInt 16 (rget s timePage Reg.time.STAGE_UTC)
    let step : Int := new - wallNs s - (utcNew - utcOld) * 1000000000
    let s := { s with ck := { s.ck with anchorDt := s.ck.dt, anchorNs := new } }
    let s := rset timePage Reg.time.UTC_OFFSET (rget s timePage Reg.time.STAGE_UTC) s
    let s := rset timePage Reg.time.WALL_VALID 1 (rset timePage Reg.time.LAST_STEP (ofInt 64 step) s)
    let s := irqPulse timePage 8 s
    let s := if step = 0 then s
      else
        let s := closeTrigger 0 { s with en := { s.en with step := step } }
        raise (if step < 0 then 0x4001 else 0x4002) 12 0 (ofInt 64 step) 0 s
    endCmd timePage Code.ok s

/-- WALL_SET (R151). -/
def execWallSet (r : Req) (s : State) : Host.Outcome State Fault Refusal :=
  .next (command timePage 0x01 r (wallSetEffect r) s)

/-- Hub firmware stages the wall time `ns` and the UTC offset and issues WALL_SET as FUNCTION 16, SOURCE 3 (R146). -/
def firmwareWallSet (ns : Int) (utc : Nat) (s : State) : State :=
  let s := rset timePage Reg.time.STAGE_NS (ns % 1000000000).toNat s
  let sec := (ns / 1000000000).toNat
  let s := rset timePage Reg.time.STAGE_SEC_HI (sec / 2 ^ 32) (rset timePage Reg.time.STAGE_SEC_LO sec s)
  let s := rset timePage Reg.time.STAGE_UTC utc s
  let r : Req := { client := .firmware, source := .hubInternal, arg := 0, tag := 0 }
  command timePage 0x01 r (wallSetEffect r) s

/-- RATE_ADJ clamped to ±500 ppm (R150). -/
def clampRate (r : Int) : Int := max (-32768000) (min 32768000 r)

/-- A timing message of the servo's source has come (R146). -/
def timingHeard (s : State) : State := { s with ck := { s.ck with lastMsg := some s.ck.dt } }

/-- The servo takes a measured offset and the UTC offset of its source (R146): a step by WALL_SET above STEP_THRESH or
for a new UTC offset, else a new RATE_ADJ, whose law no rule gives: an open value within the clamp. DESIGN CHOICE (log entry 111):
R150 calls WALL_LOCKED only "locked to its source"; it sets at every measured offset, also at one that makes a step. -/
def servoOffset (off : Int) (utc : Nat) (s : State) : State :=
  let s := timingHeard s
  let s := rset timePage Reg.time.WALL_LOCKED 1 s
  if (rget s timePage Reg.time.STEP_THRESH : Int) < off.natAbs ∨ utc ≠ rget s timePage Reg.time.UTC_OFFSET then
    firmwareWallSet (wallNs s - off) utc s
  else if s.bt.update.isSome then s
  else
    let x := takeFree s
    let s := reanchor x.2
    rset timePage Reg.time.RATE_ADJ (ofInt 32 (clampRate (toInt 32 (Config.freeNat x.1)))) s

/-- A PTP timestamp: wall-clock time at 8 ns resolution (R149). -/
def ptpStamp (s : State) : Int := wallNs s / 8 * 8

/-- The receive and transmit timestamps with the PHY's latencies (R149). -/
def ptpRx (s : State) : Int := ptpStamp s - rget s timePage Reg.time.PTP_RX_LAT
def ptpTx (s : State) : Int := ptpStamp s + rget s timePage Reg.time.PTP_TX_LAT

/-- The slave asks for the delay of the exchange whose t1 and t2 it holds. -/
def ptpDelayReq (t1 : Int) (s : State) : State :=
  let t3 := ptpTx s
  let s := { s with ck := { s.ck with ptp := { s.ck.ptp with t1 := some t1, t3 := some t3 } } }
  send (.ptp { kind := .delayReq, domain := BitVec.ofNat 8 (rget s timePage Reg.time.DOMAIN), udp := rbit s timePage Reg.time.TRANSPORT,
               oneStep := false, seqId := BitVec.ofNat 16 s.ck.ptp.seqId, stamp := t3, correction := 0 }) s

/-- PTP_OFFSET: signed ns, saturating (R150). -/
def ptpOffset (off : Int) (s : State) : State :=
  rset timePage Reg.time.PTP_OFFSET (ofInt 32 (max (-2147483648) (min 2147483647 off))) s

/-- A message in the slave role (R148). -/
def ptpSlave (m : PtpMsg) (s : State) : State :=
  match m.kind with
  | .sync =>
    let s := { s with ck := { s.ck with ptp := { s.ck.ptp with seqId := m.seqId.toNat, t1 := none, t2 := some (ptpRx s - m.correction), t3 := none } } }
    if m.oneStep then ptpDelayReq m.stamp s else s
  | .followUp =>
    if s.ck.ptp.seqId = m.seqId.toNat ∧ s.ck.ptp.t2.isSome = true ∧ s.ck.ptp.t1 = none then
      ptpDelayReq (m.stamp + m.correction) s
    else s
  | .delayResp =>
    match s.ck.ptp.t1, s.ck.ptp.t2, s.ck.ptp.t3 with
    | some t1, some t2, some t3 =>
      if s.ck.ptp.seqId = m.seqId.toNat then
        let off := ((t2 - t1) - (m.stamp - m.correction - t3)) / 2
        let s := ptpOffset off { s with ck := { s.ck with ptp := { s.ck.ptp with seqId := 0, t1 := none, t2 := none, t3 := none } } }
        if srcSel s = 2 then servoOffset off (rget s timePage Reg.time.UTC_OFFSET) s else s
      else s
    | _, _, _ => s
  | _ => s

/-- The announce interval, and the time without an Announce after which a master is gone: 2 s and three intervals. PRESUMED (log
entry 111): the default profile of IEEE 1588-2019, for which no register stands. -/
def announceNs : Nat := 2000000000

/-- A clock in the master role is the best master it hears of (R148). -/
def ptpMasters (s : State) : Bool :=
  rbit s timePage Reg.time.PTP_ROLE &&
    (match s.ck.ptp.better with
     | some t => passed t (3 * announceNs) s
     | none => true)

/-- A message while the clock is master: it answers delay requests, and gives way to a better clock that announces itself (R148). -/
def ptpMaster (m : PtpMsg) (s : State) : State :=
  match m.kind with
  | .delayReq => send (.ptp { m with kind := .delayResp, stamp := ptpRx s }) s
  | _ => s

/-- The comparison of the best-master-clock algorithm in the master role: the Announce of a better clock, or of one whose data set
is the same (log entry 111), is given way to (R148). -/
def ptpAnnounce (m : PtpMsg) (s : State) : State :=
  if m.kind = .announce ∧ rbit s timePage Reg.time.PTP_ROLE = true ∧ m.rank ≤ Config.ptpRank then
    { s with ck := { s.ck with ptp := { s.ck.ptp with better := some s.ck.dt } } }
  else s

/-- The messages that time a slave (R146). -/
def PtpKind.times : PtpKind → Bool
  | .sync | .followUp | .delayResp => true
  | .delayReq | .announce => false

/-- PTP_MESSAGE (R148, R149): of the configured domain and transport, while PTP is enabled. A clock in the master role that has given
way to a better one follows it as a slave. -/
def execPtpMessage (m : PtpMsg) (s : State) : Host.Outcome State Fault Refusal :=
  .next (if hubRuns s && rbit s timePage Reg.time.PTP_EN && decide (m.domain.toNat = rget s timePage Reg.time.DOMAIN)
        && (m.udp == rbit s timePage Reg.time.TRANSPORT) then
      (if ptpMasters s then ptpAnnounce m (ptpMaster m s)
       else ptpSlave m (if PtpKind.times m.kind && decide (srcSel s = 2) then timingHeard (ptpAnnounce m s) else ptpAnnounce m s))
    else s)

/-- The sync interval in ns: 2^LOG_SYNC s (R150). -/
def syncInterval (s : State) : Nat :=
  match toInt 4 (rget s timePage Reg.time.LOG_SYNC) with
  | .ofNat n => 1000000000 * 2 ^ n
  | .negSucc n => 1000000000 / 2 ^ (n + 1)

/-- The master announces itself when its interval is over (R148). -/
def announce (m : PtpMsg) (s : State) : State :=
  if (match s.ck.ptp.lastAnn with
      | some t => passed t announceNs s
      | none => true) then
    send (.ptp { m with kind := .announce, rank := Config.ptpRank }) { s with ck := { s.ck with ptp := { s.ck.ptp with lastAnn := some s.ck.dt } } }
  else s

/-- PTP_SYNC_TX (R148): as master, one Sync for each interval; two-step adds its follow-up. -/
def execPtpSyncTx (s : State) : Host.Outcome State Fault Refusal :=
  .next (if hubRuns s && rbit s timePage Reg.time.PTP_EN && ptpMasters s
        && (match s.ck.lastSync with
            | some t => passed t (syncInterval s) s
            | none => true) then
      let one := rbit s timePage Reg.time.ONE_STEP
      let m : PtpMsg := { kind := .sync, domain := BitVec.ofNat 8 (rget s timePage Reg.time.DOMAIN), udp := rbit s timePage Reg.time.TRANSPORT,
                          oneStep := one, seqId := BitVec.ofNat 16 s.ck.syncId, stamp := ptpTx s, correction := 0 }
      let s := { s with ck := { s.ck with lastSync := some s.ck.dt, syncId := s.ck.syncId + 1 } }
      announce m (if one then send (.ptp m) s
        else send (.ptp { m with kind := .followUp }) (send (.ptp { m with stamp := 0 }) s))
    else s)

/-- The message interval of the servo's source (R146): the sync interval, or the site bus's cycle. -/
def sourceInterval (s : State) : Nat :=
  if srcSel s = 2 then syncInterval s
  else (rget s (hubPage .siteBus) Reg.siteBus.SLOTS_M1 + 1) * rget s (hubPage .siteBus) Reg.siteBus.SLOT_LEN * 1000

/-- SERVO_TIMEOUT (R146): three intervals without a timing message. DESIGN CHOICE (log entry 111): no rule says what becomes of
WALL_LOCKED when SRC_SEL is written 0 or 1; it stands, for the servo that clears it runs under SRC_SEL 2 and 3 alone. -/
def execServoTimeout (s : State) : Host.Outcome State Fault Refusal :=
  .next (if (srcSel s = 2 ∨ srcSel s = 3) ∧ rbit s timePage Reg.time.WALL_LOCKED = true ∧
        (match s.ck.lastMsg with
         | some t => passed t (3 * sourceInterval s) s
         | none => true) = true then
      irqPulse timePage 9 (rset timePage Reg.time.WALL_LOCKED 0 s)
    else s)

end Sys2Proof.Machine
end

