-- ==== Sys2Proof/Machine/Boot.lean ====
section
/-! DEFINITION. Chapter 06: resets, boot, live update, the flash and identity. -/

namespace Sys2Proof.Machine

def bootPage : Page := hubPage .boot
def idPage : Page := hubPage .identity

/-! ### Flash contents and images (R159–R162) -/

def bankBase (b : Nat) : Nat := b * 0x8000
def statusBase (b : Nat) : Nat := bankBase b + 0x7000

/-- A marker is set when its byte reads other than 0xFF (R162). -/
def marker (s : State) (b i : Nat) : Bool := Mem.read flashByte s.bt.flash (statusBase b + i) != 0xFF

/-- The state of a bank: 0 FRESH, 1 TRIAL, 2 CONFIRMED, 3 REJECTED (R162, R177). -/
def bankState (s : State) (b : Nat) : Nat :=
  if marker s b 3 then 3 else if marker s b 2 then 2 else if marker s b 1 then 1 else 0

/-- A status marker is programmed: 1 TRIAL, 2 CONFIRMED, 3 REJECTED. -/
def setMarker (b i : Nat) (s : State) : State := flashWrite (statusBase b + i) [0x00] s

/-- A little-endian field of bank `b`'s header. -/
def hdrField (s : State) (b off n : Nat) : Nat := leNat (flashRead s (bankBase b + off) n)

def imageVersion (s : State) (b : Nat) : Nat := hdrField s b 0x008 4
def imageSvn (s : State) (b : Nat) : Nat := hdrField s b 0x00C 4
def bodySize (s : State) (b : Nat) : Nat := hdrField s b 0x010 4

/-- A header passes every test of R161. -/
def headerValid (s : State) (b : Nat) : Bool :=
  let zero := fun (o n : Nat) => (flashRead s (bankBase b + o) n).all (· == 0)
  let n := bodySize s b
  decide (hdrField s b 0 4 = 0x4C464857 ∧ hdrField s b 4 2 = 1 ∧ hdrField s b 6 2 = 512)
    && decide (4 ≤ n ∧ n ≤ 20480 ∧ n % 4 = 0) && bitAt (hdrField s b 0x014 4) 0
    && zero 0x018 8 && zero 0x0B0 208 && zero 0x1E0 32
    && (Crypto.sha384 (flashRead s (bankBase b + 0x050) 96) == beBytes 48 s.fuse.fwKeyHash)
    && Crypto.ecdsaVerify (flashRead s (bankBase b + 0x050) 96) (Crypto.sha384 (flashRead s (bankBase b) 0x180))
        (flashRead s (bankBase b + 0x180) 96)
    && decide (svnFloor s ≤ imageSvn s b)

/-- The body of bank `b` has the hash of its header. -/
def bodyGood (s : State) (b : Nat) : Bool :=
  Crypto.sha384 (flashRead s (bankBase b + 0x200) (bodySize s b)) == flashRead s (bankBase b + 0x020) 48

/-- STATE_A or STATE_B: 4 for an invalid header (R177). -/
def stateCode (s : State) (b : Nat) : Nat := if headerValid s b then bankState s b else 4

/-- STATE_A and STATE_B show the banks. -/
def showBanks (s : State) : State :=
  rset bootPage Reg.boot.STATE_A (stateCode s 0) (rset bootPage Reg.boot.STATE_B (stateCode s 1) s)

/-! ### Boot (R163–R166, R170, R175) -/

/-- The candidates of R163, higher VERSION first, A before B when equal. -/
def candidates (s : State) : List Nat :=
  let ok := [0, 1].filter fun b => headerValid s b && (bankState s b == 0 || bankState s b == 2)
  if ok = [0, 1] ∧ imageVersion s 0 < imageVersion s 1 then [1, 0] else ok

/-- The banks whose trial was never confirmed: they are rejected after TRICKLE (R163). -/
def trialBanks (s : State) : List Nat := [0, 1].filter fun b => headerValid s b && bankState s b == 1

/-- The flash's SFDP figures into the SPI NOR page (R170, R171). -/
def discoverFlash (f : Option Sfdp) (s : State) : State :=
  let s := { s with bt := { s.bt with sfdp := f } }
  match f with
  | some x =>
    let s := rflag spiPage Reg.spiNor.ADDR4 (x.addr4 && x.erase4k) (rflag spiPage Reg.spiNor.SFDP_OK x.erase4k s)
    let s := rset spiPage Reg.spiNor.WIDTH (if x.erase4k then x.width.toNat else 1) s
    rset spiPage Reg.spiNor.SIZE_LOG2 x.sizeLog2.toNat (rset spiPage Reg.spiNor.CLK_MHZ (if x.erase4k then min 100 x.clkMhz.toNat else 25) s)
  | none => rset spiPage Reg.spiNor.CLK_MHZ 25 (rset spiPage Reg.spiNor.WIDTH 1 s)

/-- Bit string of die d's identity record, little-endian as the identity page shows it (R174). -/
def idBytes (d : Nat) : List Byte := (List.range 8).flatMap fun w => leBytes 4 (idWord d w)

/-- REC_CRC of a record holds (R174). -/
def idGood (d : Nat) : Bool := crc32 ((idBytes d).take 28) == idWord d 7

/-- The fifteen identity records and DEVICE_ID (R175, R176). DESIGN CHOICE (log entry 109): R175 gives no byte order to the
digest's first 128 bits as a number, its first byte is the most significant; and it does not say how many records several
failing dies make, nor their DIE: there is one, of the hub. -/
def readIdentity (s : State) : State :=
  let s := (List.range 15).foldl (fun s d => (List.range 8).foldl (fun s w =>
    rset idPage Reg.identity.ID_REC (idWord d w) s (8 * d + w)) s) s
  let s := rset idPage Reg.identity.ID_VALID (maskOf 15 idGood) s
  if (List.range 15).all idGood then
    let h := beNat ((Crypto.sha384 ((List.range 15).flatMap idBytes)).take 16)
    (List.range 4).foldl (fun s i => rset idPage Reg.identity.DEVICE_ID (h / 2 ^ (32 * i)) s i) s
  else
    raise 0xF001 12 0 0 0 ((List.range 4).foldl (fun s i => rset idPage Reg.identity.DEVICE_ID 0 s i) s)

/-- A certified table is valid: non-decreasing, and never above the fused table (R238). -/
def tableValid (t : List ((Nat × Nat) × Nat)) : Bool :=
  (List.range 192).all fun g =>
    let e := fun p => vfOrd (Assoc.getD t (g, p) (fusedVf g p))
    (List.range 8).all (fun p => decide (e p ≤ vfOrd (fusedVf g p)))
      && (List.range 7).all fun p => decide (e p ≤ e (p + 1))

/-- The lower of the two copies, entry by entry (R239). -/
def lowerTables (a b : List ((Nat × Nat) × Nat)) : List ((Nat × Nat) × Nat) :=
  b.foldl (fun t x =>
    let v := Assoc.getD a x.1 (fusedVf x.1.1 x.1.2)
    if vfOrd x.2 < vfOrd v then Assoc.set t x.1 x.2 else t)
    (a.filter fun x => decide (vfOrd x.2 ≤ vfOrd (Assoc.getD b x.1 (fusedVf x.1.1 x.1.2))))

/-- The fused tables lowered by 4 settings at every point (R239). -/
def loweredFused : List ((Nat × Nat) × Nat) :=
  (List.range 192).flatMap fun g => (List.range 8).map fun p =>
    ((g, p), if vfOrd (fusedVf g p) - 4 < 0 then 63 else fusedVf g p - 4)

/-- The certified tables at a hub boot (R239). -/
def loadTables (s : State) : State :=
  let a := s.fq.goodA && tableValid s.fq.copyA
  let b := s.fq.goodB && tableValid s.fq.copyB
  let put := fun (t : List ((Nat × Nat) × Nat)) (s : State) =>
    { s with fq := { s.fq with copyA := t, copyB := t, goodA := true, goodB := true } }
  if a && b then put (lowerTables s.fq.copyA s.fq.copyB) s
  else if a then put s.fq.copyA s
  else if b then put s.fq.copyB s
  else raise 0xE002 12 0 0 0 (put loweredFused s)

/-- What the running image shows on the boot page (R177). -/
def showImage (b : Nat) (fallback : Bool) (s : State) : State :=
  let s := rset bootPage Reg.boot.BANK b (rflag bootPage Reg.boot.FALLBACK fallback s)
  rset bootPage Reg.boot.FW_VERSION (imageVersion s b) (rset bootPage Reg.boot.FW_SVN (imageSvn s b) s)

/-- `boot` of R163 on the ordered candidates: the first body that hashes runs; a FRESH one gets a deferred TRIAL. FALLBACK shows
that the first candidate's body failed, also where no other loads (R177). -/
def runCandidate : List Nat → Bool → State → State
  | [], fallback, s => rset bootPage Reg.boot.RECOVERY 1 (rflag bootPage Reg.boot.FALLBACK fallback s)
  | b :: bs, fallback, s =>
    if bodyGood s b then
      let s := showImage b fallback s
      let marks := if bankState s b = 0 then s.bt.marks ++ [(b, 1)] else s.bt.marks
      { s with bt := { s.bt with running := true, marks := marks } }
    else runCandidate bs true (raise 0xC001 12 b (imageVersion s b) 0 s)

/-- STAGE_DEGRADED clears on a hub reset after which both stages report no fault (R111): as the reset ends with the release of
the service cores. -/
def stageRecheck (s : State) : State :=
  rflag powerPage Reg.powerState.STAGE_DEGRADED (rbit s powerPage Reg.powerState.STAGE_DEGRADED && stageFaults s) s

/-- The hub boot from the release of the service cores to "ready for HUB_BOOT" (R163, R164). -/
def serviceCoreBoot (f : Option Sfdp) (s : State) : State :=
  let s := discoverFlash f (stageRecheck { s with fuseOn := s.fuse })
  let s := loadTables (readIdentity s)
  let s := (List.range 16).foldl (fun s j => rset weirPage Reg.weir.EFF (Config.eff j) s j) s
  let s := rset bootPage Reg.boot.RESET_CAUSE s.bt.cause s
  let s := showBanks { s with bt := { s.bt with marks := (trialBanks s).map fun b => (b, 3) } }
  let s := runCandidate (candidates s) false s
  let s := keyStoreLoad s
  let s := if recovery s then s else bootLoads s
  { s with pw := { s.pw with phase := .ready } }

/-- SERVICE_CORE_BOOT (R163). -/
def execServiceCoreBoot (sfdp : Option Sfdp) (s : State) : Host.Outcome State Fault Refusal :=
  .next (if s.pw.mode = .booting ∧ s.pw.phase = .cores then serviceCoreBoot sfdp s else s)

/-- One COMPLETION for a command whose outcome is still PENDING: OK if its commit record was written, else ABORTED
(R89). It repeats what the entry of the accepted command told, also where the ring holds that entry no longer (R88). TIME as
at `jFinish` (log entry 107). -/
def settleOne (s : State) (e : JEntry) : State :=
  let q := e.seq
  let ok := s.jr.committed.contains q || s.bt.resetSeq == some q
  if jOutcome s q = some Code.pending ∨ jOutcome s q = none then
    jWrite (fun n => { e with seq := n, time := s.ck.dt, kind := .completion, result := if ok then Code.ok else Code.aborted,
                              value := q % 2 ^ 32, arg := q / 2 ^ 32 % 32768 }) s
  else s

/-- TRICKLE declared (R89, R117, R535): HUB_BOOT and the COMPLETION entries, then the hub's functions run. Hub firmware requests the
public-key engine's 25 mA-in (R601). The Weir, where it has not run through a hub reset, starts with the island's SHED_N. -/
def trickleDeclare (s : State) : State :=
  let s := jMark 1 s.jr.cycles s
  let s := s.jr.unsettled.foldl settleOne s
  let s := { s with
    jr := { s.jr with unsettled := [], committed := [] }
    bt := { s.bt with resetSeq := none, watchdog := s.ck.dt }
    pw := { s.pw with phase := .idle }
    ck := { s.ck with accepted := false } }
  let s := { s with pw := { s.pw with mode := .trickle } }
  let s := if s.pw.refFailed = 0 then s
    else raise 0xE001 12 0 s.pw.refFailed 0 { s with pw := { s.pw with refFailed := 0 } }
  let s := if s.bt.running then withCaps (requestAllot (hubPage .keyStore) 25) s else s
  let s := siteDeclare s
  if 4 ≤ s.bt.cause then s
  else if s.shedPin then withCaps shedAssert s else rset weirPage Reg.weir.SHED_PIN 1 s

/-- TRICKLE_DECLARE (R117). -/
def execTrickleDeclare (s : State) : Host.Outcome State Fault Refusal :=
  .next (if s.pw.mode = .booting ∧ s.pw.phase = .ready then trickleDeclare s else s)

/-- DEFERRED_MARKER_WRITE (R163): hub firmware programs the deferred markers. -/
def execDeferredMarkerWrite (s : State) : Host.Outcome State Fault Refusal :=
  .next (if hubRuns s && s.bt.running then
      let ms := s.bt.marks
      showBanks (ms.foldl (fun s m => setMarker m.1 m.2 s) { s with bt := { s.bt with marks := [] } })
    else s)

/-! ### Resets (R153–R158) -/

/-- A hub reset with RESET_CAUSE bit `cause` (R155, R156): the hub castles, the link goes down, jobs are faulted, every die goes
down. -/
def hubResetStart (cause : Nat) (s : State) : State :=
  let s := { s with bt := { s.bt with cause := 2 ^ cause, running := false } }
  let s := powerCause s
  let s := bridgeReset (riseAborted s)
  lastDieDown (allDiesDown { s with pw := { s.pw with resetting := true } })

/-- The effect of HUB_RESET (R158, R178): the latched cause is its commit record. -/
def hubResetEffect (r : Req) (s : State) : State :=
  if r.arg = 0 then
    let q := (hget s bootPage).cmd.map (·.seq)
    hubResetStart 2 (commitCmd bootPage { s with bt := { s.bt with resetSeq := q } })
  else endCmd bootPage Code.badArg s

/-- HUB_RESET (R178). -/
def execHubReset (r : Req) (s : State) : Host.Outcome State Fault Refusal :=
  .next (command bootPage 0x04 r (hubResetEffect r) s)

/-- The service cores run outside ROM and updates (R154). -/
def coresRun (s : State) : Bool := hubRuns s && s.bt.running && s.bt.update.isNone

/-- The service cores execute, ROM or firmware, and so compare their outputs: from their release to the next reset (R154). -/
def coresCompare (s : State) : Bool :=
  hubRuns s || (!s.pw.resetting && (decide (s.pw.mode = .booting) && (decide (s.pw.phase = .cores) || decide (s.pw.phase = .ready))))

/-- LOCKSTEP_MISMATCH (R154). -/
def execLockstepMismatch (s : State) : Host.Outcome State Fault Refusal :=
  .next (if coresCompare s then hubResetStart 3 s else s)

/-- WATCHDOG_EXPIRE (R154): not restarted within 100 ms ± 1 ms, while the service cores run. -/
def execWatchdogExpire (s : State) : Host.Outcome State Fault Refusal :=
  .next (if coresRun s && passed s.bt.watchdog 99000000 s then hubResetStart 4 s else s)

/-- HOST_LINK_RESET (R157): the host bridge alone. -/
def execHostLinkReset (_cause : LinkResetCause) (s : State) : Host.Outcome State Fault Refusal :=
  .next (if hubRuns s then bridgeReset (radd bootPage Reg.boot.HOST_RESETS 1 s) else s)

/-- TAP_RESET (R153): JTAG_TRST_N low. -/
def execTapReset (s : State) : Host.Outcome State Fault Refusal :=
  .next { s with bt := { s.bt with tap := .idcode } }

/-- TAP_INSTRUCTION_LOAD (R574): with DEBUG_LOCK every instruction but IDCODE and BYPASS loads BYPASS. -/
def execTapInstructionLoad (i : TapInstr) (s : State) : Host.Outcome State Fault Refusal :=
  .next (if hubRuns s then
      let j := match i with
        | .idcode => TapInstr.idcode
        | .bypass => .bypass
        | .samplePreload => if s.fuseOn.debugLock = 1 then .bypass else .samplePreload
        | .extest => if s.fuseOn.debugLock = 1 then .bypass else .extest
        | .other => .bypass
      { s with bt := { s.bt with tap := j } }
    else s)

/-! ### Live update (R167–R169) -/

def runningBank (s : State) : Nat := rget s bootPage Reg.boot.BANK

/-- The end of an update: UPDATE_END with the version now running, or 0 (R91, R167). -/
def updateEnd (version code : Nat) (s : State) : State :=
  retryAll <| endCmd bootPage code (jMark 3 version { s with bt := { s.bt with update := none, watchdog := s.ck.dt } })

/-- The effect of FW_UPDATE (R167 steps 1–5): the new image then has 500 µs to report itself initialised. DESIGN CHOICE (log
entry 108): R166 and R178 leave open what FW_UPDATE does in recovery mode, where no bank runs: it is taken for either bank. -/
def fwUpdateEffect (r : Req) (s : State) : State :=
  let b := r.arg.toNat
  if 2 ≤ b ∨ (b = runningBank s ∧ recovery s = false) ∨ bankState s b = 3 then endCmd bootPage Code.badArg s
  else
    let s := jMark 2 (rget s bootPage Reg.boot.FW_VERSION) s
    let s := slowPathDrop s
    let u : Update := { bank := b, version := imageVersion s b, svn := imageSvn s b, since := s.ck.dt }
    let s := { s with bt := { s.bt with update := some u } }
    if headerValid s b && bodyGood s b then showBanks (setMarker b 1 s) else updateEnd 0 Code.authFail s

/-- FW_UPDATE (R167). -/
def execFwUpdate (r : Req) (s : State) : Host.Outcome State Fault Refusal :=
  .next (command bootPage 0x01 r (fwUpdateEffect r) s)

/-- The new image reports itself initialised within its 500 µs (R167 step 7). DESIGN CHOICE (log entry 108): FALLBACK, which
R177 gives only for a boot, then reads 0; after an update in recovery mode the image runs, and RECOVERY stands until the next
hub reset (R166). -/
def updateDone (u : Update) (s : State) : State :=
  if passed u.since 500000 s then s
  else
    let s := showImage u.bank false s
    updateEnd u.version Code.ok { s with bt := { s.bt with running := true } }

/-- FW_INIT_TIMEOUT (R167 step 6): the old image resumes. -/
def execFwInitTimeout (s : State) : Host.Outcome State Fault Refusal :=
  .next (match s.bt.update with
    | some u => if passed u.since 500000 s then updateEnd 0 Code.faulted s else s
    | none => s)

/-- The effects of FW_CONFIRM and FW_REJECT (R178). -/
def fwConfirmEffect (r : Req) (s : State) : State :=
  let b := r.arg.toNat
  if 2 ≤ b ∨ b ≠ runningBank s ∨ recovery s = true ∨ bankState s b ≠ 1 then endCmd bootPage Code.badArg s
  else endCmd bootPage Code.ok (showBanks (setMarker b 2 s))

def fwRejectEffect (r : Req) (s : State) : State :=
  let b := r.arg.toNat
  if 2 ≤ b ∨ (b = runningBank s ∧ recovery s = false) then endCmd bootPage Code.badArg s
  else endCmd bootPage Code.ok (showBanks (setMarker b 3 s))

/-- FW_CONFIRM (R178). -/
def execFwConfirm (r : Req) (s : State) : Host.Outcome State Fault Refusal :=
  .next (command bootPage 0x02 r (fwConfirmEffect r) s)

/-- FW_REJECT (R178). -/
def execFwReject (r : Req) (s : State) : Host.Outcome State Fault Refusal :=
  .next (command bootPage 0x03 r (fwRejectEffect r) s)

/-! ### The flash commands (R170–R173) -/

/-- A range touches the running bank (R172). -/
def inRunningBank (s : State) (a n : Nat) : Bool :=
  !recovery s && decide (a < bankBase (runningBank s) + 0x8000 ∧ bankBase (runningBank s) < a + n)

/-- The effect of FL_READ (R172). -/
def flReadEffect (r : Req) (s : State) : State :=
  let n := rgetC s r.client spiPage Reg.spiNor.FL_LEN
  let a := r.arg.toNat
  if n = 0 ∨ 256 < n ∨ flashSize s < a + n then endCmd spiPage Code.badArg s
  else
    let old := rbytesC s r.client spiPage Reg.spiNor.FL_BUF 64
    let bs := flashRead s a n ++ old.drop n
    endCmd spiPage Code.ok (rsetCs r.client spiPage Reg.spiNor.FL_BUF (leWords bs 64) s)

/-- FL_READ (R172). -/
def execFlRead (r : Req) (s : State) : Host.Outcome State Fault Refusal :=
  .next (command spiPage 0x01 r (flReadEffect r) s)

/-- The flash becomes busy with an operation. -/
def flashStart (op a : Nat) (data : List Byte) (s : State) : State :=
  { s with bt := { s.bt with busy := some { opcode := op, addr := a, since := s.ck.dt, data := data } } }

/-- The effect of FL_ERASE (R170, R172): its end is the end of the erase. -/
def flEraseEffect (r : Req) (s : State) : State :=
  let a := r.arg.toNat
  if rbit s spiPage Reg.spiNor.SFDP_OK = false ∨ a % 4096 ≠ 0 ∨ flashSize s < a + 4096 ∨ inRunningBank s a 4096 = true then
    endCmd spiPage Code.badArg s
  else flashStart 2 a [] s

/-- FL_ERASE (R172). -/
def execFlErase (r : Req) (s : State) : Host.Outcome State Fault Refusal :=
  .next (command spiPage 0x02 r (flEraseEffect r) s)

/-- A target byte may be programmed: erased with OVER = 0; no bit from 0 to 1 with OVER = 1 (R173). -/
def programmable (again : Bool) (old new : Byte) : Bool := if again then (old &&& new) == new else old == 0xFF

/-- The effect of FL_PROGRAM (R172, R173). -/
def flProgramEffect (r : Req) (s : State) : State :=
  let n := rgetC s r.client spiPage Reg.spiNor.FL_LEN
  let a := r.arg.toNat
  if rbit s spiPage Reg.spiNor.SFDP_OK = false ∨ n = 0 ∨ 256 < n ∨ 256 < a % 256 + n ∨ flashSize s < a + n
      ∨ inRunningBank s a n = true then endCmd spiPage Code.badArg s
  else
    let data := (rbytesC s r.client spiPage Reg.spiNor.FL_BUF 64).take n
    let again := rbit s spiPage Reg.spiNor.OVER
    if ((flashRead s a n).zip data).all fun x => programmable again x.1 x.2 then flashStart 3 a data s
    else endCmd spiPage Code.notErased s

/-- FL_PROGRAM (R173). -/
def execFlProgram (r : Req) (s : State) : Host.Outcome State Fault Refusal :=
  .next (command spiPage 0x03 r (flProgramEffect r) s)

/-- After programming, the range read back is what FL_BUF of the command's client holds (R173). -/
def readsBack (f : FlashOp) (s : State) : Bool :=
  match (hget s spiPage).cmd with
  | some r => flashRead s f.addr f.data.length == (rbytesC s r.client spiPage Reg.spiNor.FL_BUF 64).take f.data.length
  | none => true

/-- The busy operation takes place (R172, R173). -/
def flashDone (f : FlashOp) (s : State) : State :=
  let s := { s with bt := { s.bt with busy := none } }
  if f.opcode = 2 then endCmd spiPage Code.ok { s with bt := { s.bt with flash := Mem.forget s.bt.flash f.addr 4096 } }
  else
    let s := flashWrite f.addr f.data s
    endCmd spiPage (if readsBack f s then Code.ok else Code.faulted) s

/-- Free bytes, as many as asked for (log entry 2). -/
def freeBytes (n : Nat) (s : State) : List Byte × State :=
  ((List.range n).map fun i => BitVec.ofNat 8 (Config.freeNat (s.fresh + i)), { s with fresh := s.fresh + n })

/-- FLASH_BUSY_TIMEOUT (R172): more than twice the declared time. What the target then holds is stated nowhere. -/
def execFlashBusyTimeout (s : State) : Host.Outcome State Fault Refusal :=
  .next (match s.bt.busy with
    | some f =>
      let t := match s.bt.sfdp with
        | some x => if f.opcode = 2 then x.eraseNs else x.programNs
        | none => 0
      if passed f.since (2 * t + 1) s then
        let n := if f.opcode = 2 then 4096 else f.data.length
        let x := freeBytes n { s with bt := { s.bt with busy := none } }
        endCmd spiPage Code.timeout (flashWrite f.addr x.1 x.2)
      else s
    | none => s)

end Sys2Proof.Machine
end

