-- ==== Sys2Proof/Machine/Image.lean ====
section
/-! DEFINITION. Chapter 13: the job image and its form (R349–R355), and the wait-graph certificate's check (R357–R361). -/

namespace Sys2Proof.Machine

/-! ### Reading an image -/

/-- The little-endian number of `n` bytes at offset `o`. -/
def imgN (bs : List Byte) (o n : Nat) : Nat := leNat (sliceB bs o n)

/-- A section table entry: offset, size, count. -/
structure Sect where
  off  : Nat
  size : Nat
  cnt  : Nat
deriving DecidableEq, Repr

/-- The entries of the section table, by type (R349). -/
def sectsOf (bs : List Byte) : List (Nat × Sect) :=
  (List.range 5).map fun i =>
    let o := 128 + 16 * i
    (imgN bs o 4, { off := imgN bs (o + 4) 4, size := imgN bs (o + 8) 4, cnt := imgN bs (o + 12) 4 })

/-- The section of a type. -/
def sectOf (bs : List Byte) (t : Nat) : Sect := Assoc.getD (sectsOf bs) t { off := 0, size := 0, cnt := 0 }

/-- The offsets of the records of section `t`, each of `w` bytes. -/
def recsOf (bs : List Byte) (t w : Nat) : List Nat :=
  let x := sectOf bs t
  (List.range x.cnt).map fun i => x.off + w * i

def readDie (bs : List Byte) (o : Nat) : JDie :=
  { cores := imgN bs o 1, place := imgN bs (o + 1) 1, sram := imgN bs (o + 2) 2, objects := imgN bs (o + 4) 2 }

def readCore (bs : List Byte) (o : Nat) : JCore :=
  { jdie := imgN bs o 1, pin := imgN bs (o + 1) 1, base := imgN bs (o + 4) 4, initOff := imgN bs (o + 8) 4,
    initSize := imgN bs (o + 12) 4 }

def readRegion (bs : List Byte) (o : Nat) : Region :=
  { jbase := imgN bs o 4, granules := imgN bs (o + 4) 4, kind := imgN bs (o + 8) 1, dataOff := imgN bs (o + 12) 4,
    dataSize := imgN bs (o + 16) 4 }

def readObj (bs : List Byte) (o : Nat) : JObj :=
  { jobj := imgN bs o 2, loc := imgN bs (o + 2) 1, ctrl := imgN bs (o + 4) 4, count := imgN bs (o + 8) 4 }

/-- The image that the bytes hold. -/
def readImage (bs : List Byte) : Image :=
  { size := imgN bs 8 4, regime := imgN bs 12 1, canalN := imgN bs 13 1, dev := imgN bs 14 1, group := imgN bs 15 1,
    jobId := imgN bs 16 8, draw := imgN bs 24 4, hubObjects := imgN bs 28 2, certDigest := sliceB bs 0x50 48,
    certOff := (sectOf bs 5).off, certSize := (sectOf bs 5).size
    dies := (recsOf bs 1 8).map (readDie bs), cores := (recsOf bs 2 16).map (readCore bs),
    regions := (recsOf bs 3 24).map (readRegion bs), objects := (recsOf bs 4 12).map (readObj bs) }

/-! ### Form (R349–R354) -/

/-- The header's fixed fields and SIZE, before the rest is read. -/
def headForm (bs : List Byte) : Bool :=
  let n := imgN bs 8 4
  imgN bs 0 4 == 0x4C464A42 && imgN bs 4 2 == 1 && imgN bs 6 2 == 5 && decide (n ≤ 2 ^ 28) && n % 16 == 0
    && decide (208 ≤ n)

def fieldForm (bs : List Byte) (im : Image) : Bool :=
  decide (im.regime ≤ 2) && (if im.regime = 2 then ([0, 8, 16, 24, 32] : List Nat).contains im.canalN else im.canalN == 0)
    && decide (1 ≤ im.group ∧ im.group ≤ 16 ∧ im.dev < im.group) && decide (im.hubObjects ≤ 16384) && imgN bs 0x1E 2 == 0

/-- Record sizes of sections 1–4. -/
def recSize (t : Nat) : Nat := ([0, 8, 16, 24, 12] : List Nat).getD t 0

/-- Each type once, inside SIZE, its records filling it. -/
def sectForm (bs : List Byte) (size : Nat) : Bool :=
  [1, 2, 3, 4, 5].all fun t =>
    ((sectsOf bs).filter fun x => x.1 == t).length == 1
      && (let x := sectOf bs t
          decide (x.off + x.size ≤ size) && (if t = 5 then decide (16 ≤ x.size) else x.size == x.cnt * recSize t))

def dieForm (bs : List Byte) (im : Image) : Bool :=
  decide (1 ≤ im.dies.length ∧ im.dies.length ≤ 12)
    && (im.dies.all fun d => decide (1 ≤ d.cores ∧ d.cores ≤ 16) && (decide (d.place ≤ 11) || d.place == 0xFF)
        && decide (d.sram ≤ 512) && decide (d.objects ≤ 4096))
    && ((recsOf bs 1 8).all fun o => imgN bs (o + 6) 2 == 0)

def coreForm (bs : List Byte) (im : Image) : Bool :=
  decide (1 ≤ im.cores.length ∧ im.cores.length ≤ 192)
    && (im.cores.all fun c => decide (c.jdie < im.dies.length) && (decide (c.pin ≤ 191) || c.pin == 0xFF)
        && decide (c.base < 2 ^ 18) && c.initSize % 16 == 0 && decide (c.initSize ≤ coreSize)
        && decide (c.initOff + c.initSize ≤ im.size))
    && ((recsOf bs 2 16).all fun o => imgN bs (o + 2) 2 == 0)
    && (im.dies.zipIdx.all fun d => (im.cores.filter fun c => c.jdie == d.2).length == d.1.cores)

/-- Regions of a list are pairwise disjoint. -/
def disjoint : List Region → Bool
  | [] => true
  | r :: rs => (rs.all fun x => decide (r.jbase + r.granules ≤ x.jbase ∨ x.jbase + x.granules ≤ r.jbase)) && disjoint rs

def memForm (bs : List Byte) (im : Image) : Bool :=
  (im.regions.all fun r => decide (1 ≤ r.granules) && decide (r.jbase + r.granules ≤ 131072) && decide (r.kind ≤ 3)
      && (if r.kind = 3 then decide (r.dataOff + r.dataSize ≤ im.size) && decide (r.dataSize ≤ r.granules * granuleSize)
          else r.dataOff == 0 && r.dataSize == 0))
    && ((recsOf bs 3 24).all fun o => imgN bs (o + 9) 3 == 0 && imgN bs (o + 20) 4 == 0)
    && disjoint im.regions

/-- The object record of number `n`. -/
def objRec (im : Image) (n : Nat) : Option JObj := im.objects.find? fun o => o.jobj == n

/-- PAIR stands only where R318 allows it. -/
def pairForm (im : Image) (o : JObj) : Bool :=
  !ctrlPair o.ctrl ||
    (ctrlType o.ctrl == 1 && o.jobj % 2 == 0 &&
      (match objRec im (o.jobj + 1) with
       | some p => ctrlType p.ctrl == 1 && !ctrlPair p.ctrl && p.loc == o.loc
       | none => false))

def distinct : List Nat → Bool
  | [] => true
  | x :: xs => !xs.contains x && distinct xs

def objForm (bs : List Byte) (im : Image) : Bool :=
  (im.objects.all fun o => decide (o.jobj ≤ 7679) && (decide (o.loc < im.dies.length) || o.loc == 0xFF)
      && ctrlType o.ctrl != 0 && ctrlOwner o.ctrl == 0 && bitsOf o.ctrl 26 5 == 0 && pairForm im o)
    && ((recsOf bs 4 12).all fun o => imgN bs (o + 3) 1 == 0)
    && distinct (im.objects.map (·.jobj))
    && (im.objects.filter fun o => o.loc == 0xFF).length == im.hubObjects
    && (im.dies.zipIdx.all fun d => (im.objects.filter fun o => o.loc == d.2).length == d.1.objects)

/-! ### The certificate (R357) -/

structure CNode where
  kind  : Nat
  dev   : Nat
  jcore : Nat
  pc    : Nat
  base  : Int
  coef  : List Int
  obj   : Nat
  add   : Nat
deriving DecidableEq, Repr

structure CEdge where
  dst   : Nat
  src   : Nat
  sel   : List Nat
  off   : List Int
  hbase : Nat
  hstep : Nat
deriving DecidableEq, Repr

def readNode (bs : List Byte) (o : Nat) : CNode :=
  { kind := imgN bs o 1, dev := imgN bs (o + 1) 1, jcore := imgN bs (o + 2) 1, pc := imgN bs (o + 4) 4,
    base := toInt 64 (imgN bs (o + 8) 8), coef := (List.range 4).map fun v => toInt 16 (imgN bs (o + 16 + 2 * v) 2),
    obj := imgN bs (o + 24) 2, add := imgN bs (o + 28) 4 }

def readEdge (bs : List Byte) (o : Nat) : CEdge :=
  { dst := imgN bs o 4, src := imgN bs (o + 4) 4, sel := (List.range 4).map fun v => imgN bs (o + 8 + v) 1,
    off := (List.range 4).map fun v => toInt 16 (imgN bs (o + 12 + 2 * v) 2), hbase := imgN bs (o + 20) 4,
    hstep := imgN bs (o + 24) 4 }

def nodeOffs (bs : List Byte) (im : Image) : List Nat :=
  (List.range (imgN bs im.certOff 4)).map fun i => im.certOff + 16 + 32 * i
def edgeOffs (bs : List Byte) (im : Image) : List Nat :=
  (List.range (imgN bs (im.certOff + 4) 4)).map fun i => im.certOff + 16 + 32 * (imgN bs im.certOff 4 + i)

def certForm (bs : List Byte) (im : Image) : Bool :=
  let nn := imgN bs im.certOff 4
  let ne := imgN bs (im.certOff + 4) 4
  decide (nn ≤ 65536) && decide (ne ≤ 262144) && imgN bs (im.certOff + 8) 8 == 0 && im.certSize == 16 + 32 * (nn + ne)
    && (sectOf bs 5).cnt == nn + ne
    && ((nodeOffs bs im).all fun o =>
        let n := readNode bs o
        decide (n.kind ≤ 2) && decide (n.dev < im.group) && imgN bs (o + 3) 1 == 0 && imgN bs (o + 26) 2 == 0
          && (if n.kind = 2 then n.jcore == 0xFF && decide (1 ≤ n.pc ∧ n.pc ≤ 2 ^ 20) else n.jcore != 0xFF && n.add == 0))
    && ((edgeOffs bs im).all fun o =>
        let e := readEdge bs o
        decide (e.dst < nn) && decide (e.src < nn) && imgN bs (o + 28) 4 == 0)

/-- The image keeps R349–R354 and the certificate's form (R355). -/
def imageForm (bs : List Byte) (im : Image) : Bool :=
  headForm bs && im.size == bs.length && fieldForm bs im && sectForm bs im.size && dieForm bs im && coreForm bs im
    && memForm bs im && objForm bs im && certForm bs im

/-- DIGEST and CERT_DIGEST are the computed ones (R349, R355). -/
def digestsOk (bs : List Byte) (im : Image) : Bool :=
  Crypto.sha384 (bs.take 0x20 ++ List.replicate 48 0 ++ bs.drop 0x50) == sliceB bs 0x20 48
    && Crypto.sha384 (sliceB bs im.certOff im.certSize) == im.certDigest

/-! ### Streams and their occurrences (R358) -/

/-- Descriptor `pc` of job core `c`'s stream as R356 loads it; none past the end of core SRAM. -/
def streamDesc (bs : List Byte) (c : JCore) (pc : Nat) : Option Desc :=
  let a := 16 * (c.base + pc)
  if coreSize < a + 16 then none
  else
    let w := fun i => if a + 4 * i + 4 ≤ c.initSize then imgN bs (c.initOff + a + 4 * i) 4 else 0
    some { w0 := w 0, w1 := w 1, w2 := w 2, w3 := w 3 }

/-- The WAIT and SIGNAL descriptors of a stream, from pc to its first END. -/
def syncDescs (bs : List Byte) (c : JCore) : Nat → Nat → List (Nat × Desc)
  | 0, _ => []
  | f + 1, pc =>
    match streamDesc bs c pc with
    | none => []
    | some d =>
      if d.op = 7 then []
      else if d.op = 3 ∨ d.op = 4 then (pc, d) :: syncDescs bs c f (pc + 1)
      else syncDescs bs c f (pc + 1)

/-- One decode of a WAIT or SIGNAL: its pc, its iteration vector (innermost first), its stepped VALUE. -/
structure Occ where
  pc    : Nat
  vec   : List Nat
  value : Nat
deriving DecidableEq, Repr

/-- VALUE stepped under R315 at an iteration vector. -/
def steppedValue (d : Desc) (vec : List Nat) : Nat :=
  if bitAt d.tgt 0 then ofInt 32 ((d.w2 : Int) + vec.getD d.lvl 0 * d.stride) else d.w2

/-- Occurrences of the descriptors from `pc` to `last`, inside the loops whose indices are `vec`; the flag says that the
stream ended. `depth` bounds the nesting, `f` the length of the run; a loop without a WAIT or SIGNAL adds none. -/
def occsIn (bs : List Byte) (c : JCore) (syncs : List Nat) : Nat → Nat → Nat → Nat → List Nat → List Occ × Bool
  | _, 0, _, _, _ => ([], true)
  | depth, f + 1, pc, last, vec =>
    if last < pc then ([], false)
    else
      match streamDesc bs c pc with
      | none => ([], true)
      | some d =>
        match d.op with
        | 7 => ([], true)
        | 5 =>
          match depth with
          | 0 => ([], true)
          | dp + 1 =>
            if d.body = 0 ∨ last < pc + d.body then ([], true)
            else
              let inner := if syncs.any fun p => decide (pc < p ∧ p ≤ pc + d.body) then
                  (List.range (d.cnt + 1)).foldl (fun acc i =>
                    if acc.2 then acc
                    else
                      let r := occsIn bs c syncs dp f (pc + 1) (pc + d.body) (i :: vec)
                      (acc.1 ++ r.1, r.2)) (([], false) : List Occ × Bool)
                else ([], false)
              if inner.2 then inner
              else
                let r := occsIn bs c syncs (dp + 1) f (pc + d.body + 1) last vec
                (inner.1 ++ r.1, r.2)
        | op =>
          if 8 ≤ op then ([], true)
          else
            let here : List Occ := if op = 3 ∨ op = 4 then [{ pc := pc, vec := vec, value := steppedValue d vec }] else []
            let r := occsIn bs c syncs depth f (pc + 1) last vec
            (here ++ r.1, r.2)

/-- The occurrences of a job core's stream in decode order. -/
def occsOf (bs : List Byte) (c : JCore) : List Occ :=
  (occsIn bs c ((syncDescs bs c 196608 0).map (·.1)) 4 196608 0 196608 []).1

/-! ### The check (R359, R360) -/

/-- RANK_BASE + Σ RANK_COEF[v] · i[v], in 64-bit signed arithmetic. -/
def rankOf (n : CNode) (vec : List Int) : Int :=
  toInt 64 (ofInt 64 (n.base + ((List.range 4).map fun v => n.coef.getD v 0 * vec.getD v 0).foldl (· + ·) 0))

/-- `a` ≤ `b`, outermost level first. -/
def vecLe (a b : List Int) : Bool :=
  let cmp := fun v (k : Bool) => if a.getD v 0 < b.getD v 0 then true else if b.getD v 0 < a.getD v 0 then false else k
  cmp 3 (cmp 2 (cmp 1 (cmp 0 true)))

/-- The verdict so far and its evaluations; more than 16,777,216 refuse. -/
structure Verdict where
  ok : Bool
  n  : Nat
deriving DecidableEq, Repr

def evalLimit : Nat := 16777216

/-- A requirement. -/
def Verdict.need (v : Verdict) (b : Bool) : Verdict := if v.ok then { v with ok := b } else v

/-- A requirement that counts one evaluation. -/
def Verdict.eval (v : Verdict) (b : Bool) : Verdict :=
  if v.ok then { ok := b && decide (v.n + 1 ≤ evalLimit), n := v.n + 1 } else v

/-- What the check knows of a core: its occurrences and its WAIT and SIGNAL descriptors. -/
structure CoreView where
  occs  : List Occ
  syncs : List (Nat × Desc)
deriving DecidableEq, Repr

def asInts (v : List Nat) : List Int := v.map Int.ofNat

/-- The object on device `p` that a node updates or awaits; `none` for one elsewhere. -/
def nodeObj (p : Nat) (n : CNode) : Option Nat :=
  if n.kind = 2 then (if n.dev = p then some n.obj else none)
  else if n.obj < 8192 then (if n.dev = p then some n.obj else none)
  else if (n.obj - 8192) / 512 = p ∧ n.dev ≠ p then some ((n.obj - 8192) % 512) else none

/-- The occurrences of a node with their vectors: of a WAIT or SIGNAL of this device, or of a HOST. -/
def nodeOccs (p : Nat) (cs : List CoreView) (n : CNode) : List (List Int × Nat) :=
  if n.kind = 2 then (List.range n.pc).map fun (k : Nat) => ([Int.ofNat k, 0, 0, 0], n.add)
  else if n.dev = p then
    match cs[n.jcore]? with
    | some v => (v.occs.filter fun o => o.pc == n.pc).map fun o => (asInts o.vec, o.value)
    | none => []
  else []

/-- The last index of a node's occurrences at each level. -/
def lastVec (os : List (List Int × Nat)) : List Int :=
  (List.range 4).map fun v => (os.map fun o => o.1.getD v 0).foldl max 0

/-- The source vector of an edge for a DST iteration (R359). -/
def mapEdge (e : CEdge) (os : List (List Int × Nat)) (i : List Int) : List Int :=
  (List.range 4).map fun v =>
    let s := e.sel.getD v 0xFF
    if s = 0xFF then (lastVec os).getD v 0 else i.getD s 0 + e.off.getD v 0

/-- The descriptor of a node. -/
def nodeDesc (cs : List CoreView) (n : CNode) : Option Desc :=
  match cs[n.jcore]? with
  | some v => (v.syncs.find? fun d => d.1 == n.pc).map (·.2)
  | none => none

/-- Nodes and descriptors of device `p` name each other (R360). -/
def namesOk (p : Nat) (cs : List CoreView) (nodes : List CNode) : Bool :=
  (cs.zipIdx.all fun c => c.1.syncs.all fun d =>
    match nodes.filter fun n => n.kind != 2 && n.dev == p && n.jcore == c.2 && n.pc == d.1 with
    | [n] => n.obj == d.2.obj && n.kind == (if d.2.op = 3 then 0 else 1)
    | _ => false)
  && nodes.all fun n => n.kind == 2 || n.dev != p ||
    (match nodeDesc cs n with
     | some d => n.kind == (if d.op = 3 then 0 else 1)
     | none => false)

/-- The SIGNAL occurrences of this device into local object `o`, with their descriptors. -/
def signalsInto (cs : List CoreView) (o : Nat) : List (Desc × Nat) :=
  cs.flatMap fun v => v.occs.filterMap fun x =>
    match v.syncs.find? fun d => d.1 == x.pc with
    | some d => if d.2.op = 4 ∧ d.2.obj = o then some (d.2, x.value) else none
    | none => none

/-- An object that a node of the device names takes only the signals that its type allows (R360). -/
def objectOk (im : Image) (cs : List CoreView) (o : Nat) : Bool :=
  match objRec im o with
  | none => false
  | some r =>
    let ss := signalsInto cs o
    match ctrlType r.ctrl with
    | 1 => ss.all fun x => !x.1.act && !bitAt x.1.tgt 0
    | 3 => ss.all fun x => !x.1.act && x.2 == 1
    | _ => (ss.all fun x => x.2 != 0) || (ss.all fun x => x.2 == 0)

/-- Ranks rise from one occurrence of a list to the next. -/
def ranksRise : Option Int → List Int → Verdict → Verdict
  | _, [], v => v
  | none, r :: rs, v => ranksRise (some r) rs v
  | some q, r :: rs, v => ranksRise (some r) rs (v.eval (decide (q < r)))

/-- The ranks of a core's occurrences in decode order. -/
def coreRanks (p j : Nat) (nodes : List CNode) (c : CoreView) : List Int :=
  c.occs.map fun o =>
    match nodes.find? fun n => n.kind != 2 && n.dev == p && n.jcore == j && n.pc == o.pc with
    | some n => rankOf n (asInts o.vec)
    | none => 0

/-- What a DST needs of its object, and what is there from the start (R360). -/
structure Need where
  typ  : Nat
  ctrl : Nat
  init : Nat
deriving DecidableEq, Repr

/-- What a node adds at each occurrence (R359). -/
def unitOf (typ : Nat) (o : Nat) : Nat := if typ = 1 then o else 1

/-- The share of one edge at a DST iteration: rank and count. An edge whose source another device runs is that device's
to evaluate (R361). -/
def edgeShare (p : Nat) (cs : List CoreView) (nodes : List CNode) (typ : Nat) (rd : Int) (i : List Int) (e : CEdge) :
    Bool × Option Nat :=
  match nodes[e.src]? with
  | none => (false, none)
  | some n =>
    if n.kind ≠ 2 ∧ n.dev ≠ p then (true, none)
    else
      let os := nodeOccs p cs n
      let j := mapEdge e os i
      let upto := os.filter fun o => vecLe o.1 j
      let rankOk := match upto.getLast? with
        | some o => decide (rankOf n o.1 < rd)
        | none => true
      (rankOk, some ((upto.map fun o => unitOf typ o.2).foldl (· + ·) 0))

/-- The awaited amount is there (R360). -/
def enough (x : Need) (got need : Nat) : Bool :=
  match x.typ with
  | 1 => decide (need ≤ got)
  | 3 => decide (((need % 2 ^ 20 : Nat) - (x.init / 4096 : Nat) : Int) * ((ctrlParties x.ctrl + 1 : Nat) : Int) ≤ got)
  | _ => decide (1 ≤ got) || x.init == (decide (need ≠ 0)).toNat

/-- One DST iteration: every edge evaluated, then the sum (R360). -/
def dstAt (p : Nat) (cs : List CoreView) (nodes : List CNode) (es : List CEdge) (x : Need) (rd : Int) (i : List Int) (need : Nat)
    (v : Verdict) : Verdict :=
  let start := if x.typ = 1 then x.init else if x.typ = 3 then x.init % 4096 else 0
  let r := es.foldl (fun (acc : Verdict × Nat × Bool) e =>
    let q := edgeShare p cs nodes x.typ rd i e
    (acc.1.eval q.1, acc.2.1 + q.2.getD 0, acc.2.2 && q.2.isSome)) (v, start, true)
  if r.2.2 then r.1.need (enough x r.2.1 need) else r.1

/-- The object of device `p` on which a DST depends: a WAIT's own, or the one that a HOST's edges name. -/
def dstObj (p : Nat) (nodes : List CNode) (n : CNode) (es : List CEdge) : Option Nat :=
  if n.kind = 0 then (if n.dev = p then nodeObj p n else none)
  else es.findSome? fun e => (nodes[e.src]?).bind (nodeObj p)

/-- One DST node with the edges into it (R360). -/
def dstOk (im : Image) (p : Nat) (cs : List CoreView) (nodes : List CNode) (edges : List CEdge) (v : Verdict) (k : CNode × Nat) :
    Verdict :=
  let n := k.1
  let es := edges.filter fun e => e.dst == k.2
  if n.kind = 1 then v
  else
    match dstObj p nodes n es with
    | none => v
    | some o =>
      match objRec im o with
      | none => v.need false
      | some r =>
        let x : Need := { typ := ctrlType r.ctrl, ctrl := r.ctrl, init := r.count }
        let v := v.need (es.all fun e =>
          match nodes[e.src]? with
          | some s => s.kind != 0 && nodeObj p s == some o
          | none => false)
        if n.kind = 0 then
          (nodeOccs p cs n).foldl (fun v q => if v.ok then dstAt p cs nodes es x (rankOf n q.1) q.1 q.2 v else v) v
        else
          let e0 := es.head?
          (List.range n.pc).foldl (fun (v : Verdict) (i : Nat) =>
            if v.ok then
              let vec : List Int := [Int.ofNat i, 0, 0, 0]
              dstAt p cs nodes es x (rankOf n vec) vec (match e0 with
                | some e => e.hbase + e.hstep * i
                | none => 0) v
            else v) v

/-- check_cert on this device: accepted or not, and the evaluations (R360). -/
def checkCert (bs : List Byte) (im : Image) : Verdict :=
  let p := im.dev
  let nodes := (nodeOffs bs im).map (readNode bs)
  let edges := (edgeOffs bs im).map (readEdge bs)
  let cs := im.cores.map fun c => { occs := occsOf bs c, syncs := syncDescs bs c 196608 0 : CoreView }
  let v : Verdict := { ok := namesOk p cs nodes, n := 0 }
  let v := v.need (((nodes.filter fun n => n.dev == p).filterMap (nodeObj p)).eraseDups.all (objectOk im cs))
  let v := cs.zipIdx.foldl (fun v c => ranksRise none (coreRanks p c.2 nodes c.1) v) v
  let v := nodes.foldl (fun v n => if n.kind = 2 ∧ n.dev = p then ranksRise none ((nodeOccs p cs n).map fun o => rankOf n o.1) v else v) v
  nodes.zipIdx.foldl (dstOk im p cs nodes edges) v

end Sys2Proof.Machine
end

