-- ==== Sys2Proof/Machine/Admission.lean ====
section
/-! DEFINITION. Chapter 13: the admission unit. It snapshots the device, places a job, reserves what it takes and loads it
(R356, R365–R370, R390–R393). -/

namespace Sys2Proof.Machine

def admissionPage : Page := hubPage .admission

/-! ### The snapshot (R367) -/

/-- The progress draws of the slots that hold cores: COMMITTED (R367, R383). -/
def committed (s : State) : Nat :=
  (s.jb.slots.map fun x => if holdsCores x.2.st then (match x.2.image with
    | some i => i.draw
    | none => 0) else 0).foldl (· + ·) 0

def allHeld (s : State) : List Nat := s.jb.slots.flatMap fun x => heldGranules x.2

/-- Free granules for jobs: outside the host region, neither retired nor held (R383, R391, R397). -/
def freeGranules (s : State) : Nat :=
  let h := hostBase s
  h - (s.hbm.marks.filter fun m => m.2 && decide (m.1 < h)).length - ((allHeld s).filter (· < h)).length

/-- The banks of a die that take requests. -/
def openBanks (s : State) (d : Nat) : List Page := ((List.range 4).map fun b => pageOf .syncBank b d).filter (bankOpen s)

/-- Object `n` is free to be allocated. -/
def objIsFree (s : State) (n : Nat) : Bool := ctrlType (objGet s n).1 == 0 && bankOpen s (objBank n)

/-- Free objects of a die (R368), of the hub for d = 12. -/
def freeObjs (s : State) (d : Nat) : Nat :=
  (openBanks s d).length * (if d = 12 then 4096 else 1024)
    - (s.sy.objs.filter fun o => objDie o.1 == d && bankOpen s (objBank o.1)).length

/-- The 64 KiB units of die `d`'s SRAM in use, as (first, length). -/
def usedUnits (s : State) (d : Nat) : List (Nat × Nat) :=
  s.jb.slots.flatMap fun x =>
    match x.2.image with
    | some im => ((x.2.dies.zip x.2.srams).zip im.dies).filterMap fun y => if y.1.1 = d then some (y.1.2, y.2.sram) else none
    | none => []

/-- The lowest run of `n` free units of a die's 512. -/
def findUnits (used : List (Nat × Nat)) (n : Nat) : Nat → Nat → Option Nat
  | 0, _ => none
  | f + 1, u =>
    if 512 < u + n then none
    else if used.any fun x => decide (x.1 < u + n ∧ u < x.1 + x.2) then findUnits used n f (u + 1) else some u

/-! ### Cores (R241, R291, R292, R368) -/

/-- The setting at which a job's core starts (R241, R242). -/
def startN (s : State) (im : Image) (g : Nat) : Nat :=
  if im.regime = 2 then im.canalN
  else quadCap s g (nominalN s g)

/-- The voltage code at which it starts. -/
def startK (s : State) (im : Image) (g : Nat) : Nat :=
  if im.regime = 2 ∨ canalQuad s (g / 4) = true then 30 else max (quadCode s (g / 4)) (requiredCode s g (startN s im g))

/-- The core, its DMA and its array group are all ACTIVE (R292). -/
def coreAvailable (s : State) (g : Nat) : Bool :=
  enActive s (corePage .core g) && enActive s (corePage .dma g) && enActive s (pageOf .arrayGroup (g % 16 / 4) (g / 16))

/-- The site channel holds core `g` (R30). -/
def siteHolds (s : State) (g : Nat) : Bool := siteReserved s g

/-- Core `g` is eligible, its certified frequency apart (R368, R383). -/
def eligibleAny (s : State) (g : Nat) : Bool :=
  coreAvailable s g && !coreAssigned s g && !siteHolds s g && !retired s g

/-- Core `g` is eligible for a job; with `fmax` at its CANAL setting (R246, R368). -/
def eligible (s : State) (im : Image) (fmax : Bool) (g : Nat) : Bool :=
  eligibleAny s g && decide (atV48 s (coreCost (startN s im g) (startK s im g)) ≤ (hget s (corePage .core g)).grant)
    && (!fmax || im.regime != 2 || decide ((im.canalN : Int) ≤ vfOrd (cert s g 3)))

/-- The records of the CORES section that name job die `d`. -/
def coreRecs (im : Image) (d : Nat) : List JCore := im.cores.filter fun c => c.jdie == d

/-- Cores for the records of one job die on physical die `p`: pins as they are, the rest lowest first. -/
def pickCores (ok : Nat → Bool) (p : Nat) (rs : List JCore) : Option (List Nat) :=
  let pins := (rs.map (·.pin)).filter (· ≠ 0xFF)
  if distinct pins && pins.all fun g => decide (g / 16 = p) && ok g then
    let free := ((List.range 16).map (16 * p + ·)).filter fun g => ok g && !pins.contains g
    let want := (rs.filter fun r => r.pin == 0xFF).length
    if want ≤ free.length then
      some (rs.foldl (fun (acc : List Nat × List Nat) r =>
        if r.pin = 0xFF then (acc.1 ++ acc.2.take 1, acc.2.drop 1) else (acc.1 ++ [r.pin], acc.2)) ([], free)).1
    else none
  else none

/-- Where one job die goes: physical die, first SRAM unit, cores in record order. -/
structure Placed where
  die   : Nat
  unit  : Nat
  cores : List Nat
deriving DecidableEq, Repr

/-- Job die `d` fits physical die `p` (R368). -/
def fits (s : State) (im : Image) (fmax : Bool) (d : Nat) (r : JDie) (p : Nat) : Option Placed :=
  if diePowered s p && decide (r.objects ≤ freeObjs s p) then
    match findUnits (usedUnits s p) r.sram 513 0, pickCores (eligible s im fmax) p (coreRecs im d) with
    | some u, some gs => some { die := p, unit := u, cores := gs }
    | _, _ => none
  else none

/-- place(): job dies in ascending order, each on the first die that fits (R368). -/
def placeFrom (s : State) (im : Image) (fmax : Bool) : Nat → List JDie → List Nat → Option (List Placed)
  | _, [], _ => some []
  | d, r :: rs, used =>
    let cands := if r.place = 0xFF then List.range 12 else [r.place]
    match (cands.filter fun p => !used.contains p).findSome? (fits s im fmax d r) with
    | some x => (placeFrom s im fmax (d + 1) rs (x.die :: used)).map (x :: ·)
    | none => none

def place (s : State) (im : Image) (fmax : Bool) : Option (List Placed) := placeFrom s im fmax 0 im.dies []

/-! ### Granules (R392) -/

/-- A granule that may be allocated: free, unretired, outside the host region. -/
def granuleFree (s : State) (taken : List Nat) (g : Nat) : Bool :=
  decide (g < hostBase s) && !taken.contains g && !(s.hbm.marks.contains (g, true))

/-- The lowest such granule from `g` on, among the next `f`. -/
def lowestFree (s : State) (taken : List Nat) : Nat → Nat → Option Nat
  | 0, _ => none
  | f + 1, g => if granuleFree s taken g then some g else lowestFree s taken f (g + 1)

/-- The lowest free granule of a stack. -/
def stackFree (s : State) (taken : List Nat) (k : Nat) : Option Nat := lowestFree s taken stackGranules (k * stackGranules)

/-- The granule for job granule `g`: its home stack, the others in cyclic order, then any stack. -/
def allocOne (s : State) (homes taken : List Nat) (g : Nat) : Option Nat :=
  let order := (List.range homes.length).map fun i => homes.getD ((g + i) % homes.length) 0
  (order ++ List.range 6).findSome? (stackFree s taken)

/-- Granules for the job granules `gs`, with what is then taken. -/
def allocList (s : State) (homes : List Nat) : List Nat → List Nat → List Nat × List Nat
  | [], taken => ([], taken)
  | g :: gs, taken =>
    match allocOne s homes taken g with
    | some x => let r := allocList s homes gs (x :: taken); (x :: r.1, r.2)
    | none => ([], taken)

/-- The image copy's granules, then each region's. -/
def allocAll (s : State) (im : Image) (dies taken : List Nat) : List Nat × List (List Nat) :=
  let homes := (List.range 6).filter fun k => dies.any fun d => d / 2 == k
  let c := allocList s homes (List.range ((im.size + granuleSize - 1) / granuleSize)) taken
  let m := im.regions.foldl (fun (acc : List (List Nat) × List Nat) r =>
    let x := allocList s homes ((List.range r.granules).map (r.jbase + ·)) acc.2
    (acc.1 ++ [x.1], x.2)) ([], c.2)
  (c.1, m.1)

/-- Granules that an image needs. -/
def granulesNeeded (im : Image) : Nat :=
  (im.size + granuleSize - 1) / granuleSize + (im.regions.map (·.granules)).foldl (· + ·) 0

/-! ### Objects (R318, R319, R354) -/

/-- The lowest free object from `n` on that `ok` accepts, among the next `f`. -/
def lowestObj (ok : Nat → Bool) : Nat → Nat → Option Nat
  | 0, _ => none
  | f + 1, n => if ok n then some n else lowestObj ok f (n + 1)

/-- The first object number of a place and how many it has. -/
def objRange (d : Nat) : Nat × Nat := if d = 12 then (49152, 16384) else (4096 * d, 4096)

/-- Physical objects for the records of one place: pairs at adjacent numbers first, then the rest, each the lowest that
are free. -/
def allocObjs (s : State) (d : Nat) (os : List JObj) : Option (List (Nat × Nat)) :=
  let r := objRange d
  let isPair := fun (o : JObj) => ctrlPair o.ctrl
  let odd := fun (o : JObj) => os.any fun e => ctrlPair e.ctrl && e.jobj + 1 == o.jobj
  let free := fun (got : List (Nat × Nat)) n => objIsFree s n && !(got.any fun g => g.2 == n)
  let pairs := (os.filter isPair).foldl (fun (acc : Option (List (Nat × Nat))) o =>
    acc.bind fun got =>
      (lowestObj (fun n => n % 2 == 0 && free got n && free got (n + 1)) r.2 r.1).map fun n =>
        got ++ [(o.jobj, n), (o.jobj + 1, n + 1)]) (some [])
  (os.filter fun o => !isPair o && !odd o).foldl (fun (acc : Option (List (Nat × Nat))) o =>
    acc.bind fun got => (lowestObj (free got) r.2 r.1).map fun n => got ++ [(o.jobj, n)]) pairs

/-- The objects of a whole job on its placed dies and the hub. -/
def allocJobObjs (s : State) (im : Image) (ps : List Placed) : Option (List (Nat × Nat)) :=
  let places := (ps.zipIdx.map fun p => (p.1.die, p.2)) ++ [(12, 0xFF)]
  places.foldl (fun (acc : Option (List (Nat × Nat))) p =>
    acc.bind fun got => (allocObjs s p.1 (im.objects.filter fun o => o.loc == p.2)).map (got ++ ·)) (some [])

/-- CTRL and COUNT of every object of slot `j` as the image gives them (R319). -/
def writeObjs (j : Nat) (s : State) : State :=
  let x := slotGet s j
  match x.image with
  | none => s
  | some im => im.objects.foldl (fun s o =>
      match localObj x o.jobj with
      | some n => objWrite n (putBits o.ctrl 2 5 j) o.count s
      | none => s) s

/-! ### Contents (R356) -/

/-- The physical pieces of [a, a + n) of a run of granules. -/
def runPieces (grs : List Nat) (a n : Nat) : List (Nat × Nat) :=
  (granuleCuts a n).map fun c => (grs.getD (c.1 / granuleSize) 0 * granuleSize + c.1 % granuleSize, c.2)

/-- Bytes of a run of granules. -/
def readRun (s : State) (grs : List Nat) (a n : Nat) : List Byte :=
  (runPieces grs a n).flatMap fun p => (stackRead s p.1 p.2).1

/-- The poisoned 8-byte words of a run of granules, from `a` on. -/
def poisonRun (s : State) (grs : List Nat) (a n : Nat) : List Nat :=
  ((runPieces grs a n).foldl (fun (acc : List Nat × Nat) p =>
    (acc.1 ++ (stackRead s p.1 p.2).2.flatMap fun sec =>
      ((List.range 4).map fun w => 32 * sec + 8 * w).filterMap fun b =>
        if p.1 ≤ b ∧ b < p.1 + p.2 then some ((acc.2 + (b - p.1)) / 8) else none, acc.2 + p.2)) ([], 0)).1

/-- Bytes into a run of granules. -/
def writeRun (grs : List Nat) (bs : List Byte) (s : State) : State :=
  ((runPieces grs 0 bs.length).foldl (fun (acc : State × List Byte) p =>
    (stackWrite p.1 (acc.2.take p.2) [] acc.1, acc.2.drop p.2)) (s, bs)).1

/-- The core SRAM of every core of slot `j` from the image copy: INIT_SIZE bytes, then zero (R356). -/
def loadCores (j : Nat) (s : State) : State :=
  let x := slotGet s j
  match x.image with
  | none => s
  | some im => (x.cores.zip im.cores).foldl (fun s c =>
      let bs := readRun s x.copyGr c.2.initOff c.2.initSize
      let bad := poisonRun s x.copyGr c.2.initOff c.2.initSize
      coreWrite c.1 0 bs bad (coreZero c.1 c.2.initSize s)) s

/-- SCRATCH and OUTPUT regions and the job's die SRAM zeroed (R356). -/
def zeroJob (j : Nat) (s : State) : State :=
  let x := slotGet s j
  match x.image with
  | none => s
  | some im =>
    let s := (im.regions.zip x.memGr).foldl (fun s r => if writable r.1 then r.2.foldl (fun s g => zeroGranule g s) s else s) s
    ((x.dies.zip x.srams).zip im.dies).foldl (fun s d => dieZero d.1.1 (d.1.2 * 65536) (d.2.sram * 65536) s) s

/-- WEIGHTS regions from the image copy (R356). -/
def loadWeights (j : Nat) (s : State) : State :=
  let x := slotGet s j
  match x.image with
  | none => s
  | some im => (im.regions.zip x.memGr).foldl (fun s r =>
      if r.1.kind = 3 then writeRun r.2 (readRun s x.copyGr r.1.dataOff r.1.dataSize) s else s) s

/-- The contents of one granule moved, poison with them. -/
def moveGranule (old : State) (a b : Nat) (s : State) : State :=
  let x := stackRead old (a * granuleSize) granuleSize
  stackWrite (b * granuleSize) x.1 (x.2.map fun sec => sec - a * granuleSize / 32 + b * granuleSize / 32) s

/-- A restart on other dies: the copy, INPUT and WEIGHTS keep their contents in their new granules (R356, R392). -/
def moveJob (x y : Slot) (s : State) : State :=
  match x.image with
  | none => s
  | some im =>
    let pairs := x.copyGr.zip y.copyGr ++
      ((im.regions.zip (x.memGr.zip y.memGr)).flatMap fun r => if writable r.1 then [] else r.2.1.zip r.2.2)
    pairs.foldl (fun t p => moveGranule s p.1 p.2 t) s

/-! ### Clocks of a job's cores (R241–R243) -/

/-- Core `g` begins to serve slot `j`: its clock goes to the starting setting, the NOMINAL and SPATE cores of a CANAL
quadrant come down to their entry at point 3, and a measurement of the quadrant stops (R242, R243, R251). -/
def takeCore (j : Nat) (im : Image) (g : Nat) (s : State) : State :=
  let s := abortMeas (g / 4) s
  let p := corePage .core g
  let n := startN s im g
  let s := setRegime g im.regime (rset p Reg.core.SLOT_VALID 1 (rset p Reg.core.SLOT j s))
  let s := { s with fq := { s.fq with thrSeen := Assoc.set s.fq.thrSeen g (rget s p Reg.core.THROTTLE) } }
  let s := setFreq g n s
  if im.regime = 2 then
    (quadCores (g / 4)).foldl (fun s x =>
      if x ≠ g ∧ coreRuns s x = true ∧ regime s x ≠ 2 ∧ quadCap s x (nTarget s x) < nTarget s x then
        setFreq x (nTarget s x) s
      else s) s
  else s

/-! ### The decision (R367) -/

/-- What the unit finds: a refusal, or the placement and objects. -/
inductive Decision where
  | refuse (code : Nat)
  | takes (ps : List Placed) (objs : List (Nat × Nat))
deriving DecidableEq, Repr

/-- The part of the decision after the snapshot, for slot `j`. -/
def decideFit (s : State) (j : Nat) (im : Image) : Decision :=
  let own := (heldGranules (slotGet s j)).length
  if freeGranules s + own < granulesNeeded im ∨ freeObjs s 12 < im.hubObjects then .refuse 0x0103
  else
    match place s im true with
    | none => .refuse (if (place s im false).isSome then 0x0106 else 0x0103)
    | some ps =>
      if effCap s < floorSum s + atV48 s (400 + committed s + im.draw) then .refuse 0x0105
      else
        match allocJobObjs s im ps with
        | some objs => .takes ps objs
        | none => .refuse 0x0103

/-- The slot record of an admitted job, its memory allocated or kept (R392). -/
def reserved (s : State) (j : Nat) (im : Image) (ps : List Placed) (objs : List (Nat × Nat)) (load : Bool) : Slot :=
  let x := slotGet s j
  let dies := ps.map (·.die)
  let keep := !load && x.dies == dies
  let taken := (allHeld s).filter fun g => load || !(heldGranules x).contains g
  let mem := if keep then (x.copyGr, x.memGr) else allocAll s im dies taken
  let start : Slot := if load then { lastResult := x.lastResult, announced := [] } else x
  { start with
    image := some im, copyGr := mem.1, memGr := mem.2, dies := dies, srams := ps.map (·.unit), objs := objs, ended := []
    cores := ((im.cores.zipIdx.map fun c =>
      let mine := (im.cores.take c.2).filter fun d => d.jdie == c.1.jdie
      ((ps[c.1.jdie]?).map fun p => p.cores.getD mine.length 0).getD 0)) }

/-- An admitted job is reserved and loaded; `run` is its run number (R356, R367). -/
def reserveJob (j : Nat) (im : Image) (image : List Byte) (ps : List Placed) (objs : List (Nat × Nat)) (load : Bool) (run : Nat)
    (s : State) : State :=
  let x := slotGet s j
  let y : Slot := { reserved s j im ps objs load with run := run }
  let s := if load then s else if x.dies = y.dies then s else moveJob x y s
  let s := slotSet j y s
  let s := if load then writeRun y.copyGr image s else s
  let s := writeObjs j s
  let s := zeroJob j s
  let s := if load then loadWeights j s else s
  let s := loadCores j s
  y.cores.foldl (fun s g => takeCore j im g s) s

/-! ### LOAD (R363, R385, R391) -/

/-- The staged image of a LOAD: none where it runs past the host region (R391). -/
def stagedAt (s : State) (arg : Nat) : Option Nat :=
  let a := hostBase s * granuleSize + arg * 65536
  let n := leNat (stackRead s (a + 8) 4).1
  if a + n ≤ allGranules * granuleSize ∧ a + 12 ≤ allGranules * granuleSize then some a else none

/-- A slot's tenant (R362). -/
def tenantOf (s : State) (j : Nat) : Nat := match Assoc.get s.views j with
  | some (t, _) => t
  | none => 0

/-- The tenant holds 8 non-EMPTY slots already (R363). -/
def tenantFull (s : State) (t : Nat) : Bool :=
  decide (8 ≤ ((List.range 32).filter fun j => tenantOf s j == t && (slotGet s j).st != .empty).length)

/-- The decision of a LOAD from its staging argument, with the image and the evaluations. -/
def decideLoad (s : State) (j arg : Nat) : Decision × List Byte × Option Nat :=
  if (slotGet s j).st ≠ .empty ∨ tenantFull s (tenantOf s j) = true then (.refuse 0x0107, [], none)
  else
    match stagedAt s arg with
    | none => (.refuse Code.badArg, [], none)
    | some a =>
      let head := (stackRead s a 128).1
      if !headForm head then (.refuse Code.badArg, [], none)
      else
        let r := stackRead s a (imgN head 8 4)
        let im := readImage r.1
        if !r.2.isEmpty then (.refuse Code.authFail, [], none)
        else if !imageForm r.1 im then (.refuse Code.badArg, [], none)
        else if !digestsOk r.1 im then (.refuse Code.authFail, [], none)
        else
          let v := checkCert r.1 im
          if !v.ok then (.refuse 0x0104, [], some v.n) else (decideFit s j im, r.1, some v.n)

/-- The result of an admission in the slot, the admission page and the command (R370, R383). -/
def admissionEnd (j code : Nat) (s : State) : State :=
  let s := slotSet j { slotGet s j with lastResult := code } s
  if code = Code.ok then s else radd admissionPage Reg.admission.REFUSALS 1 s

end Sys2Proof.Machine
end

