-- ==== Sys2Proof/Machine/Bridge.lean ====
section
/-! DEFINITION. Chapter 15: the memory window, interrupts, bridge DMA channels and function resets (R422–R448). -/

namespace Sys2Proof.Machine

/-! ### The memory window (R425, R426, R429, R430) -/

/-- The physical address of a BAR2 offset (R425). -/
def winAddr (s : State) (off : Nat) : Nat := rget s bridgePage Reg.bridge.WIN_BASE * granuleSize + off

/-- A stack takes accesses: the transit domains are powered and neither of its halves is in drain or reset (R398,
R426). -/
def stackOpen (s : State) (k : Nat) : Bool :=
  transitOn s && [2 * k, 2 * k + 1].all fun d => !offline s (stackPage d) && !draining s (stackPage d)

/-- Every stack that [a, a + n) touches takes accesses. -/
def rangeOpen (s : State) (a n : Nat) : Bool :=
  n == 0 || (stackOpen s (stackOf a) && stackOpen s (stackOf (a + n - 1)))

/-- BAR2_WRITE (R425, R426, R429, R430). -/
def execBar2Write (off : BitVec 36) (data : List Byte) (poisoned : Bool) (s : State) : Host.Outcome State Fault Refusal :=
  .next (let a := winAddr s off.toNat
    if !linkUp s || decide (2 ^ 36 < off.toNat + data.length) then s
    else if poisoned then radd bridgePage Reg.bridge.RX_POISONED 1 s
    else if rangeOpen s a data.length then countStack (hostReq 0) true a data.length (stackWrite a data [] s)
    else s)

/-- The completions of a read of [a, a + n) that gives `bs`: cut at 64 B boundaries, in ascending order, each marked poisoned where its
own piece is (R422, R426). -/
def readCompletions (bad : Nat → Nat → Bool) (a : Nat) (bs : List Byte) : List Out :=
  (cutsAt 64 (bs.length / 64 + 2) a bs.length).map fun c =>
    .completion (if bad c.1 c.2 then .poisoned else .ok) ((bs.drop (c.1 - a)).take c.2)

/-- BAR2_READ (R395, R422, R425, R426): poisoned data still completes; a stack that takes no access gives poisoned data for the read's
length, whose value is open (R125, log entry 22). -/
def execBar2Read (off : BitVec 36) (len : Nat) (s : State) : Host.Outcome State Fault Refusal :=
  .next (let a := winAddr s off.toNat
    if !linkUp s then s
    else if 2 ^ 36 < off.toNat + len then unsupported s
    else if rangeOpen s a len then
      sendAll (readCompletions (fun b n => !(stackRead s b n).2.isEmpty) a (stackRead s a len).1)
        (countStack (hostReq 0) false a len (stackReadCounts a len s))
    else
      let x := takeFree s
      sendAll (readCompletions (fun _ _ => true) a (leBytes len (Config.freeNat x.1))) x.2)

/-- UNSUPPORTED_REQUEST (R420, R430). -/
def execUnsupportedRequest (f : Fin 16) (s : State) : Host.Outcome State Fault Refusal :=
  .next (if linkUp s && (f.val == 0 || s.br.vfEnable) then unsupported s else s)

/-- A write to WIN_BASE that has reached its page (R425, R447). -/
def winBaseTake (v : Nat) (s : State) : State :=
  if 77824 < v % 2 ^ 17 then pgErr bridgePage Code.badArg s else rset bridgePage Reg.bridge.WIN_BASE v s

/-- WIN_BASE_WRITE (R425). -/
def execWinBaseWrite (c : Client) (v : Word) (s : State) : Host.Outcome State Fault Refusal :=
  .next (inOrder c bridgePage (.write 0x044 v.toNat) (blockWrite c bridgePage 0x044 (winBaseTake v.toNat)) s)

/-! ### MSI-X and configuration (R420, R422, R436, R437, R446) -/

/-- Function `f` exists: PF0, or a VF while VF Enable is set. -/
def hasFunction (s : State) (f : Nat) : Bool := f == 0 || s.br.vfEnable

/-- MSIX_UNMASK (R436): a pending message goes out. -/
def execMsixUnmask (f : Fin 16) (vec : Fin 64) (s : State) : Host.Outcome State Fault Refusal :=
  .next (let x := (f.val, vec.val)
    if linkUp s && hasFunction s f.val && (f.val == 0 || decide (vec.val < 16)) then
      let s := { s with br := { s.br with unmasked := if s.br.unmasked.contains x then s.br.unmasked else x :: s.br.unmasked } }
      if s.br.pba.contains x && s.br.msixOn.contains f.val then
        send (.msix f.val vec.val) { s with br := { s.br with pba := s.br.pba.filter (· ≠ x) } }
      else s
    else s)

/-- PCIE_LINK_UP (R419, R447): a rate and a width that the bridge supports. -/
def execPcieLinkUp (rate : Fin 4) (width : Fin 17) (s : State) : Host.Outcome State Fault Refusal :=
  .next (if hubRuns s && rate.val != 0 && ([1, 2, 4, 8, 16] : List Nat).contains width.val then
      rset bridgePage Reg.bridge.WIDTH width.val (rset bridgePage Reg.bridge.RATE rate.val s)
    else s)

/-- PCIE_CONFIG_WRITE (R420, R422, R437, R446). Recovery mode has PF0 alone (R166). -/
def execPcieConfigWrite (f : Fin 16) (w : PcieCfg) (s : State) : Host.Outcome State Fault Refusal :=
  .next (if linkUp s && hasFunction s f.val then
      match w with
      | .msixEnable on =>
        let l := s.br.msixOn.filter (· ≠ f.val)
        { s with br := { s.br with msixOn := if on then f.val :: l else l } }
      | .msixMask v => { s with br := { s.br with unmasked := s.br.unmasked.filter (· ≠ (f.val, v.val)) } }
      | .vfEnable on =>
        if f.val ≠ 0 then s
        else if !on then removeVfs s
        else if recovery s then s
        else { s with br := { s.br with vfEnable := true } }
      | .maxReadRequest n => { s with br := { s.br with mrrs := Assoc.set s.br.mrrs f.val n } }
    else s)

/-! ### Bridge DMA channels (R433, R442–R444) -/

/-- What a channel's registers name (R448). -/
structure Xfer where
  host  : Nat
  dev   : Nat
  space : Nat
  dir   : Nat
  slot  : Nat
  core  : Nat
  len   : Nat
  post  : Option Nat
deriving DecidableEq, Repr

def xferOf (s : State) (f : Nat) : Xfer :=
  let p := dmaPage f
  { host := rget s p Reg.bridgeDma.HOST_LO + rget s p Reg.bridgeDma.HOST_HI * 2 ^ 32
    dev := rget s p Reg.bridgeDma.DEV_LO + rget s p Reg.bridgeDma.DEV_HI * 2 ^ 32
    space := rget s p Reg.bridgeDma.SPACE, dir := rget s p Reg.bridgeDma.DIR, slot := rget s p Reg.bridgeDma.SLOT
    core := rget s p Reg.bridgeDma.CORE, len := rget s p Reg.bridgeDma.LEN
    post := if rbit s p Reg.bridgeDma.POST_EN then some (rget s p Reg.bridgeDma.POST_OBJ) else none }

/-- Where the device side of a transfer lies: pieces of stacked memory by PMA, or core SRAM. -/
inductive XferAt where
  | stack (ps : List (Nat × Nat))
  | core (g a : Nat)
deriving DecidableEq, Repr

/-- A region that channel `f` may use in a direction (R443). -/
def xferRegion (f dir : Nat) (r : Region) : Bool := f == 0 || (if dir = 0 then r.kind == 1 else r.kind == 2)

/-- The device side of a transfer, or the code that refuses it (R443). -/
def xferPlace (s : State) (f : Nat) (x : Xfer) : Except Nat XferAt :=
  let y := slotGet s x.slot
  if f ≠ 0 ∧ tenantOf s x.slot ≠ f then .error 0x0108
  else
    match x.space with
    | 0 => if f = 0 ∧ x.dev + x.len ≤ allGranules * granuleSize then .ok (.stack [(x.dev, x.len)]) else .error Code.badArg
    | 1 =>
      match y.image with
      | some im =>
        match jobPieces y im (xferRegion f x.dir) x.dev x.len with
        | some ps => .ok (.stack ps)
        | none => .error Code.badArg
      | none => .error Code.badArg
    | 2 =>
      let g := if f = 0 then (if x.core < 192 ∧ siteHolds s x.core = false then some x.core else none)
        else if holdsCores y.st then y.cores[x.core]? else none
      match g with
      | some g => if x.dev + x.len ≤ coreSize then .ok (.core g x.dev) else .error Code.badArg
      | none => .error Code.badArg
    | _ => .error Code.badArg

/-- The physical COUNTER that a post-add names; none where POST_OBJ is not one of the job (R443, R444). -/
def postObj (s : State) (x : Xfer) : Option Nat :=
  match x.post with
  | none => none
  | some n =>
    match localObj (slotGet s x.slot) n with
    | some o => if ctrlType (objGet s o).1 = 1 then some o else none
    | none => none

/-- The first refusal of a transfer (R444), or its device side. -/
def xferCheck (s : State) (f : Nat) (x : Xfer) : Except Nat XferAt :=
  if x.host % 4 ≠ 0 ∨ x.dev % 4 ≠ 0 ∨ x.len % 4 ≠ 0 ∨ x.len = 0 ∨ 2 ^ 24 < x.len then .error Code.badArg
  else if x.post.isSome ∧ (postObj s x).isNone then
    (match xferPlace s f x with
    | .error c => .error c
    | .ok _ => .error Code.badArg)
  else xferPlace s f x

/-- The device side takes accesses. -/
def xferOpen (s : State) : XferAt → Bool
  | .stack ps => ps.all fun p => rangeOpen s p.1 p.2
  | .core g _ => diePowered s (g / 16) && !s.pw.falling.contains (g / 16)

/-- Bytes at the device side, and whether any is poisoned. -/
def xferRead (s : State) : XferAt → Nat → List Byte × Bool
  | .stack ps, _ => (ps.flatMap fun p => (stackRead s p.1 p.2).1, ps.any fun p => !(stackRead s p.1 p.2).2.isEmpty)
  | .core g a, n => let x := coreRead s g a n; (x.1, !x.2.isEmpty)

/-- The counts of what a transfer of function `f` reads: errors (R288, R395) and events (R214). -/
def xferReadCounts (f : Nat) (at_ : XferAt) (n : Nat) (s : State) : State :=
  match at_ with
  | .stack ps => ps.foldl (fun s p => countStack (hostReq f) false p.1 p.2 (stackReadCounts p.1 p.2 s)) s
  | .core g a => countCoreMem (hostReq f (g / 16)) false g a n (coreReadCounts g a n s)

/-- Bytes to the device side, as many as there are, with their events (R214). -/
def xferWrite (f : Nat) (at_ : XferAt) (bs : List Byte) (s : State) : State :=
  match at_ with
  | .stack ps => (ps.foldl (fun (acc : State × List Byte) p =>
      let now := acc.2.take p.2
      if acc.2.isEmpty then acc else (countStack (hostReq f) true p.1 now.length (stackWrite p.1 now [] acc.1), acc.2.drop p.2)) (s, bs)).1
  | .core g a => countCoreMem (hostReq f (g / 16)) true g a bs.length (coreWrite g a bs [] s)

/-- The largest read request that the bridge issues: Max_Read_Request_Size of PF0's Device Control, 512 B until it is programmed
(R422; log entry 116). -/
def readRequestSize (s : State) : Nat :=
  match Assoc.get s.br.mrrs 0 with
  | some n => if ([128, 256, 512, 1024, 2048, 4096] : List Nat).contains n then n else 512
  | none => 512

/-- The read requests of channel `f` for [a, a + n) of host memory, none across an edge of that size. -/
def hostReads (s : State) (f a n : Nat) : List Out :=
  (cutsAt (readRequestSize s) (n / readRequestSize s + 2) a n).map fun c => .hostRead f c.1 c.2

/-- The end of a transfer that moved everything: the post-add, then OK (R433, R443). -/
def xferDone (f : Nat) (x : Xfer) (s : State) : State :=
  let s := match postObj s x with
    | some o => objSignal o false 1 (if objDie o ≤ 11 then countAt (objDie o) 0 14 1 (.func (Fin.ofNat 16 f)) s else s)
    | none => s
  endCmd (dmaPage f) Code.ok s

/-- The effect of XFER (R442–R444). `host` and `data` are what the host's completions bring: for a transfer to the
device, fewer bytes than LEN with status ok leave it waiting. -/
def xferEffect (f : Nat) (r : Req) (host : HostCpl) (data : List Byte) (s : State) : State :=
  let p := dmaPage f
  let x := xferOf s f
  let s := rset p Reg.bridgeDma.BYTES_DONE 0 s
  if r.arg ≠ 0 then endCmd p Code.badArg s
  else
    match xferCheck s f x with
    | .error c => endCmd p c s
    | .ok at_ =>
      if !xferOpen s at_ then
        endCmd p (match at_, x.dir with
          | .stack _, 1 => if transitOn s then Code.aborted else Code.faulted
          | _, _ => Code.aborted) s
      else if x.dir = 1 then
        let y := xferRead s at_ x.len
        let s := xferReadCounts f at_ x.len s
        if y.2 then endCmd p Code.faulted (send (.hostPoison f x.host y.1) s)
        else xferDone f x (rset p Reg.bridgeDma.BYTES_DONE x.len (send (.hostWrite f x.host y.1) s))
      else
        let bs := data.take x.len
        let s := sendAll (hostReads s f x.host x.len) s
        let s := rset p Reg.bridgeDma.BYTES_DONE bs.length (xferWrite f at_ bs s)
        if host ≠ .ok then endCmd p Code.faulted s
        else if bs.length = x.len then xferDone f x s
        else { s with br := { s.br with xfers := s.br.xfers ++ [(f, s.ck.dt)] } }

/-- XFER. -/
def execXfer (f : Fin 16) (r : Req) (host : HostCpl) (data : List Byte) (s : State) : Host.Outcome State Fault Refusal :=
  .next (command (dmaPage f.val) 0x01 r (xferEffect f.val r host data) s host data)

/-- DMA_COMPLETION_TIMEOUT (R444): host data absent for 50 ms. -/
def execDmaCompletionTimeout (f : Fin 16) (s : State) : Host.Outcome State Fault Refusal :=
  .next (match s.br.xfers.find? fun x => x.1 == f.val with
    | some x =>
      if passed x.2 50000000 s then endXfer f.val Code.timeout (radd bridgePage Reg.bridge.CPL_TIMEOUTS 1 s) else s
    | none => s)

/-! ### Function-level resets (R445, R446) -/

/-- VF_FLR (R445). -/
def execVfFlr (t : Fin 15) (s : State) : Host.Outcome State Fault Refusal :=
  .next (if linkUp s && s.br.vfEnable then resetVf (t.val + 1) (endXfer (t.val + 1) Code.aborted s) else s)

/-- PF0_FLR (R446). -/
def execPf0Flr (s : State) : Host.Outcome State Fault Refusal :=
  .next (if linkUp s then
      let s := resetPf0 (removeVfs (abortXfers s))
      rclear bridgePage (fun f => !(decide (f.off = 0x044) || decide (f.off = 0x060))) s
    else s)

end Sys2Proof.Machine
end

