-- ==== Sys2Proof/Machine/SiteIo.lean ====
section
/-! DEFINITION. Chapter 18: aux channels, the dual-channel inputs and ALERT_N (R515–R538). -/

namespace Sys2Proof.Machine

/-- ALERT_HOLD_EXPIRE (R536). -/
def execAlertHoldExpire (s : State) : Host.Outcome State Fault Refusal := .next (alertSettle s)


/-! ### AUX_SET and AUX_CLEAR (R520, R524, R537) -/

/-- A named channel's configuration that AUX_SET refuses. -/
def auxConfigBad (s : State) (n : Nat) : Bool :=
  decide (chSteady s n < chHold s n ∨ chInrush s n < chSteady s n ∨ 3 * chSteady s n < chInrush s n ∨ chShort s n ≤ chInrush s n)

/-- AUX_SET refuses channel `n` with demand `on`. -/
def auxSetBad (s : State) (n : Nat) (on : Bool) : Bool :=
  chOwner s n == 1 || (on && chState s n == 6) || (on && s.io.epoLatched && bitAt (rget s auxPage Reg.aux.EPO_MASK) n)
    || auxConfigBad s n

/-- The channels demanded on fit AUX_GRANT (R524). -/
def auxFits (s : State) (demand : Nat) : Bool :=
  decide (atV48 s (((bitsSet 8 demand).map fun n => chSteady s n + 2).foldl (· + ·) 0) ≤ auxGrant s)

/-- The effect of AUX_SET. -/
def auxSetEffect (r : Req) (s : State) : State :=
  let a := r.arg.toNat
  let ns := bitsSet 8 a
  let on := fun n => bitAt a (8 + n)
  if 2 ^ 16 ≤ a ∨ (ns.any fun n => auxSetBad s n (on n)) = true then endCmd auxPage Code.badArg s
  else
    let demand := maskOf 8 fun n => if ns.contains n then on n else demanded s n
    if (ns.any on && !auxFits s demand) = true then endCmd auxPage Code.noGrant s
    else endCmd auxPage Code.ok (ns.foldl (fun s n => ownerDemand n (on n) s) s)

def execAuxSet (r : Req) (s : State) : Host.Outcome State Fault Refusal := .next (command auxPage 0x01 r (auxSetEffect r) s)

/-- The effect of AUX_CLEAR: channels in FAULT return to OFF with their demand cleared. -/
def auxClearEffect (r : Req) (s : State) : State :=
  if 2 ^ 8 ≤ r.arg.toNat then endCmd auxPage Code.badArg s
  else
    endCmd auxPage Code.ok ((bitsSet 8 r.arg.toNat).foldl (fun s n => if chState s n = 6 then chOff n (setDemand n false s) else s) s)

def execAuxClear (r : Req) (s : State) : Host.Outcome State Fault Refusal := .next (command auxPage 0x02 r (auxClearEffect r) s)

/-! ### A channel by itself (R517–R519) -/

/-- I_NOW of a channel. -/
def setNow (n current : Nat) (s : State) : State := rset auxPage Reg.aux.I_NOW (satN 16 current) s n

/-- INRUSH_SETTLED (R517): 1 ms of INRUSH at or below STEADY. -/
def execInrushSettled (n : Fin 8) (s : State) : Host.Outcome State Fault Refusal :=
  .next (if chState s n.val = 1 ∧ 1000000 ≤ inrushNs s n.val then setCh n.val 3 (pauseInrush n.val s) else s)

/-- INRUSH_TIMEOUT (R517). -/
def execInrushTimeout (n : Fin 8) (current : Nat) (s : State) : Host.Outcome State Fault Refusal :=
  .next (if chState s n.val = 1 ∧ 1000000 * rget s auxPage Reg.aux.INRUSH_MS n.val ≤ inrushNs s n.val then
      let s := setNow n.val current s
      if current ≤ chSteady s n.val then setCh n.val 3 (pauseInrush n.val s) else chFault n.val 2 s
    else s)

/-- AUX_LIMIT_ENTER (R518). -/
def execAuxLimitEnter (n : Fin 8) (current : Nat) (s : State) : Host.Outcome State Fault Refusal :=
  .next (if chState s n.val = 3 ∧ chSteady s n.val < current then
      setCh n.val 4 (setAuxRun n.val { auxRun s n.val with since := s.ck.dt } (setNow n.val current s))
    else s)

/-- AUX_LIMITING_END (R518). -/
def execAuxLimitingEnd (n : Fin 8) (current : Nat) (s : State) : Host.Outcome State Fault Refusal :=
  .next (if chState s n.val = 4 ∧ current ≤ chSteady s n.val then setCh n.val 3 (setNow n.val current s) else s)

/-- AUX_OVERLOAD (R518): 10 ms in LIMITING. -/
def execAuxOverload (n : Fin 8) (s : State) : Host.Outcome State Fault Refusal :=
  .next (if chState s n.val = 4 ∧ passed (auxRun s n.val).since 10000000 s = true then chFault n.val 3 s else s)

/-- AUX_SHORT (R519): in every state but OFF and FAULT, at or above the short threshold. -/
def execAuxShort (n : Fin 8) (current : Nat) (s : State) : Host.Outcome State Fault Refusal :=
  .next (if chState s n.val ≠ 0 ∧ chState s n.val ≠ 6 ∧ chShort s n.val ≤ current then
      let s := radd auxPage Reg.aux.SHORTS 1 (chFault n.val 1 (setNow n.val current s)) n.val
      raise 0x8001 12 n.val (rget s auxPage Reg.aux.I_NOW n.val) 0
        { s with io := { s.io with fired := (s.io.fired.filter (·.1 ≠ n.val)) ++ [(n.val, s.ck.dt)] } }
    else s)

/-! ### The allotment (R522, R523) -/

/-- The sensed currents and their sum. -/
def setCurrents (currents : List Nat) (s : State) : State :=
  let s := (List.range 8).foldl (fun s n => setNow n (currents.getD n (chNow s n)) s) s
  rset auxPage Reg.aux.SUM (satN 16 (auxSum s)) s

/-- The combined current exceeds AUX_GRANT. -/
def auxOver (s : State) : Bool := decide (auxGrant s < auxSum s)

/-- AUX_GRANT_EXCESS (R522): the holds; the excess with them in force begins to persist. -/
def execAuxGrantExcess (currents : List Nat) (s : State) : Host.Outcome State Fault Refusal :=
  .next (let s := setCurrents currents s
    if auxOver s then
      let s := holdAll s
      { s with io := { s.io with excess := if auxOver s then some (s.io.excess.getD s.ck.dt) else none } }
    else { s with io := { s.io with excess := none } })

/-- AUX_ESCALATE (R522): the excess has persisted for 500 ns with every hold in force. -/
def execAuxEscalate (currents : List Nat) (s : State) : Host.Outcome State Fault Refusal :=
  .next (let s := setCurrents currents s
    if auxOver s then
      match s.io.excess with
      | some t => if passed t 500 s then escalate { s with io := { s.io with excess := none } } else s
      | none => s
    else { s with io := { s.io with excess := none } })

/-- `a` is released before `b`: the higher PRIO, then the lower number. -/
def onBefore (s : State) (a b : Nat) : Bool :=
  decide (chPrio s b < chPrio s a) || (decide (chPrio s a = chPrio s b) && decide (a < b))

/-- Channels in state `st` in the order of release. -/
def onOrder (s : State) (st : Nat) : List Nat := sortBy (onBefore s) ((List.range 8).filter fun n => chState s n == st)

/-- AUX_RELEASE_CHECK (R523): once in each microsecond, at most one channel. -/
def execAuxReleaseCheck (currents : List Nat) (s : State) : Host.Outcome State Fault Refusal :=
  .next (if duePeriod 1000 s.io.relAt s then
      let s := setCurrents currents { s with io := { s.io with relAt := some s.ck.dt } }
      let room := auxGrant s - auxSum s
      let tooMuch := auxOver s
      match (onOrder s 2).find? fun n => !tooMuch && decide (chInrush s n - chHold s n ≤ room) with
      | some n => setCh n 1 (setAuxRun n { auxRun s n with since := s.ck.dt } s)
      | none =>
        match (onOrder s 5).find? fun n => !tooMuch && decide (0 < auxGrant s) && decide (chInrush s n ≤ room) with
        | some n => startInrush n s
        | none => s
    else s)

/-! ### The dual-channel pairs (R529–R534) -/

/-- A pair and its place in State. -/
def pairGet (s : State) (t : Bool) : PairIn := if t then s.io.tamp else s.io.epo
def pairSet (t : Bool) (x : PairIn) (s : State) : State :=
  if t then { s with io := { s.io with tamp := x } } else { s with io := { s.io with epo := x } }

/-- N ticks of the discrepancy time. -/
def discTicks (s : State) (t : Bool) : Nat :=
  ceilDiv ((if t then rget s dualPage Reg.dualIn.TAMP_DISC else rget s dualPage Reg.dualIn.EPO_DISC) * 32768) 1000

/-- XTAL32 ticks since device time `t`, itself a tick's. -/
def ticksSince (s : State) (t : Nat) : Nat := ((s.ck.dt - t) * 32768 + 500000000) / 1000000000

/-- The island is powered. -/
def islandOn (s : State) : Bool := decide (s.pw.mode ≠ .off)

/-- EPO_LATCHED sets: the gates of EPO_MASK are off and their demands cleared; a fault stays latched (R520, R527). -/
def latchEpo (s : State) : State :=
  (bitsSet 8 (rget s auxPage Reg.aux.EPO_MASK)).foldl (fun s n =>
    let s := setDemand n false s
    if chState s n = 6 then s else chOff n s) { s with io := { s.io with epoLatched := true } }

/-- DUAL_CHANNEL_DISAGREE (R530, R533): one wire moves, which one is open; the discrepancy timer starts. -/
def execDualChannelDisagree (tamperPair : Bool) (s : State) : Host.Outcome State Fault Refusal :=
  .next (let x := pairGet s tamperPair
    if islandOn s && x.a == x.b then
      let first := Config.freeNat s.fresh % 2 == 0
      alertSettle (pairSet tamperPair { x with
        a := if first then !x.a else x.a, b := if first then x.b else !x.b
        timing := some s.ck.dt, calm := none, ready := false } { s with fresh := s.fresh + 1 })
    else s)

/-- Both wires agree on `on`: the timer stops; CLEAR_READY counts anew. -/
def pairAgrees (t on : Bool) (s : State) : State :=
  let x := pairGet s t
  pairSet t { x with a := on, b := on, timing := none
                     calm := if on then none else if x.a || x.b then some s.ck.dt else some (x.calm.getD s.ck.dt)
                     ready := x.ready && !on && !x.a && !x.b } s

/-- The agreement comes inside the discrepancy window, or nothing was timing. -/
def insideWindow (s : State) (t : Bool) : Bool :=
  match (pairGet s t).timing with
  | some t0 => decide (ticksSince s t0 < discTicks s t)
  | none => true

/-- An accepted EPO state (R531, R532, R534). -/
def epoTake (on : Bool) (s : State) : State :=
  let s := rset dualPage Reg.dualIn.EPO_TIME s.ck.dt (pairSet false { pairGet s false with accepted := on } s)
  let s := irqPulse dualPage 8 (raise 0x8003 12 0 on.toNat (s.ck.dt % 2 ^ 32) s)
  let s := if on then latchEpo s else s
  if wakeEn s 4 then wakeSource 4 s else s

/-- EPO_ACCEPT (R531). -/
def execEpoAccept (asserted : Bool) (s : State) : Host.Outcome State Fault Refusal :=
  .next (if islandOn s && insideWindow s false then
      let s := pairAgrees false asserted s
      alertSettle (if (pairGet s false).accepted = asserted then s else epoTake asserted s)
    else s)

/-- MON_STAT of the enclosure: an assertion or a discrepancy fault of the TAMP pair stands (R592, R605). -/
def enclosureStat (s : State) : State :=
  rset tamperPage Reg.tamper.MON_STAT
    (putBit (rget s tamperPage Reg.tamper.MON_STAT) 1 (s.io.tamp.accepted || s.io.tamp.fault)) s

/-- TAMPER_ASSERTION_ACCEPT (R531, R532, R534, R592). -/
def execTamperAssertionAccept (asserted : Bool) (s : State) : Host.Outcome State Fault Refusal :=
  .next (if islandOn s && insideWindow s true then
      let s := pairAgrees true asserted s
      alertSettle (if (pairGet s true).accepted = asserted then s
        else
          let s := rset dualPage Reg.dualIn.TAMP_TIME s.ck.dt (pairSet true { pairGet s true with accepted := asserted } s)
          let s := irqPulse dualPage 10 s
          if asserted then
            wakeSource 5 (tamperAccept 1 (enclosureStat s))
          else enclosureStat s)
    else s)

/-- DISCREPANCY_FAULT (R531, R532): the window has closed. -/
def execDiscrepancyFault (tamperPair : Bool) (s : State) : Host.Outcome State Fault Refusal :=
  .next (let x := pairGet s tamperPair
    match x.timing with
    | some t0 =>
      if islandOn s && decide (discTicks s tamperPair ≤ ticksSince s t0) then
        let s := irqPulse dualPage 9 (pairSet tamperPair { x with timing := none, fault := true, ready := false } s)
        alertSettle (if tamperPair then
            wakeSource 5 (tamperAccept 1 (enclosureStat (radd dualPage Reg.dualIn.TAMP_DFAULTS 1 s)))
          else
            let s := raise 0x8002 12 0 (rget s dualPage Reg.dualIn.EPO_DISC) 0 (radd dualPage Reg.dualIn.EPO_DFAULTS 1 s)
            let s := latchEpo s
            if wakeEn s 4 then wakeSource 4 s else s)
      else s
    | none => s)

/-- CLEAR_READY (R533). -/
def execClearReady (tamperPair : Bool) (s : State) : Host.Outcome State Fault Refusal :=
  .next (let x := pairGet s tamperPair
    match x.calm with
    | some t =>
      if islandOn s && x.fault && !x.a && !x.b && decide (discTicks s tamperPair ≤ ticksSince s t) then
        pairSet tamperPair { x with ready := true } s
      else s
    | none => s)

/-- EPO_RESET (R532). -/
def epoResetEffect (r : Req) (s : State) : State :=
  let x := s.io.epo
  if r.arg ≠ 0 ∨ x.a = true ∨ x.b = true ∨ x.fault = true then endCmd dualPage Code.badArg s
  else endCmd dualPage Code.ok (alertSettle { s with io := { s.io with epoLatched := false } })

def execEpoReset (r : Req) (s : State) : Host.Outcome State Fault Refusal := .next (command dualPage 0x01 r (epoResetEffect r) s)

/-- DISC_CLEAR (R533): every named pair must be ready. -/
def discClearEffect (r : Req) (s : State) : State :=
  let a := r.arg.toNat
  let bad := fun (i : Nat) (x : PairIn) => bitAt a i && !x.ready
  if 4 ≤ a ∨ bad 0 s.io.epo = true ∨ bad 1 s.io.tamp = true then endCmd dualPage Code.badArg s
  else
    let clear := fun (i : Nat) (x : PairIn) => if bitAt a i then { x with fault := false, ready := false } else x
    endCmd dualPage Code.ok
      (enclosureStat (alertSettle { s with io := { s.io with epo := clear 0 s.io.epo, tamp := clear 1 s.io.tamp } }))

def execDiscClear (r : Req) (s : State) : Host.Outcome State Fault Refusal := .next (command dualPage 0x02 r (discClearEffect r) s)

end Sys2Proof.Machine
end

