-- ==== Sys2Proof/Machine/Keys.lean ====
section
/-! DEFINITION. Chapter 20: the commands of the fuse bank, the key store and the tamper monitors (R570–R605). -/

namespace Sys2Proof.Machine

/-! ### The fuse bank (R570, R571) -/

/-- Width of a programmable field by its code, 0 for a field that no command programs. -/
def fuseWidth (code : Nat) : Nat := ([0, 0, 16, 16, 1, 2, 1, 1, 0, 128, 0, 256] : List Nat).getD code 0

/-- The blown bits of a programmable field. -/
def fuseGet (f : Fuses) (code : Nat) : Nat :=
  match code with
  | 2 => f.denyPf0
  | 3 => f.denySb
  | 4 => f.debugLock
  | 5 => f.tamperResp
  | 6 => f.mandatory
  | 7 => f.commission
  | 9 => f.svnFloor
  | 11 => f.integrator
  | _ => 0

/-- A programmable field with its new bits. -/
def fuseSet (code v : Nat) (f : Fuses) : Fuses :=
  match code with
  | 2 => { f with denyPf0 := v }
  | 3 => { f with denySb := v }
  | 4 => { f with debugLock := v }
  | 5 => { f with tamperResp := v }
  | 6 => { f with mandatory := v }
  | 7 => { f with commission := v }
  | 9 => { f with svnFloor := v }
  | 11 => { f with integrator := v }
  | _ => f

/-- The staged value of a field: FUSE_VAL0 lowest, cut to the field's bits. -/
def fuseStaged (s : State) (code : Nat) : Nat :=
  leNat (wordsBytes ((List.range 12).map fun i => rget s fusePage Reg.fuse.FUSE_VAL i)) % 2 ^ fuseWidth code

/-- COMMISSIONED closes this field (R571). -/
def fuseClosed (code : Nat) : Bool := [2, 3, 4, 5, 6, 11].contains code

/-- FUSE_PROGRAM ends with BAD_ARG (R571, R597). -/
def fuseBad (s : State) (code v : Nat) : Bool :=
  let old := fuseGet s.fuse code
  decide (fuseWidth code = 0 ∨ old ||| v ≠ v)
    || (fuseClosed code && decide (s.fuse.commission = 1))
    || (code == 9 && decide (rget s (hubPage .boot) Reg.boot.FW_SVN < (bitsSet 128 v).length))
    || tampered s || !hubRuns s || decide (v48 s < 4000)

/-- The effect of FUSE_PROGRAM: the bank holds the new bits; what they bring takes effect under R572. -/
def fuseProgramEffect (r : Req) (s : State) : State :=
  let code := r.arg.toNat
  let v := fuseStaged s code
  if fuseBad s code v then endCmd fusePage Code.badArg s
  else endCmd fusePage Code.ok (commitCmd fusePage { s with fuse := fuseSet code v s.fuse })

/-- FUSE_PROGRAM (R571, R604). -/
def execFuseProgram (r : Req) (s : State) : Host.Outcome State Fault Refusal :=
  .next (command fusePage 0x01 r (fuseProgramEffect r) s)

/-! ### What a key command may use (R576, R590, R602) -/

def argS (r : Req) : Nat := r.arg.toNat % 128
def argT (r : Req) : Nat := bitsOf r.arg.toNat 8 7
def argReplace (r : Req) : Bool := bitAt r.arg.toNat 15

/-- PF0 and the site bus use only slots with HOST. -/
def hostMay (s : State) (c : Client) (n : Nat) : Bool := decide (c = .firmware) || bitAt (ksGet s n).attr 18

/-- The client may use slot `n`, and it is VALID. -/
def slotUsable (s : State) (c : Client) (n : Nat) : Bool := ksValid s n && hostMay s c n

/-- The slot's attribute bit. -/
def slotBit (s : State) (n bit : Nat) : Bool := bitAt (ksGet s n).attr bit

/-- The public-key engine has its grant (R601, R602). -/
def pkReady (s : State) : Bool := grantOk s keyPage

/-- ENTROPY_FAIL (R588). -/
def entropyBad (s : State) : Bool := rbit s keyPage Reg.keyStore.ENTROPY_FAIL

/-- A key of this TYPE needs the public-key engine to be formed. -/
def typePk (t : Nat) : Bool := t == 3 || t == 4

/-- Staged attributes that a key may have: a TYPE of R576 and no reserved bit. -/
def attrOk (a : Nat) : Bool := decide (1 ≤ attrType a ∧ attrType a ≤ 5 ∧ a < 2 ^ 19)

/-- No key can be written: TAMPERED or SEALED (R597, R599). -/
def writeBarred (s : State) : Bool := tampered s || keySealed s

/-- The slot takes a new key: it is EMPTY, or REPLACE is set. -/
def mayPlace (s : State) (n : Nat) (replace : Bool) : Bool := decide ((ksGet s n).st = .empty) || replace

/-- A new key in slot `n` (R585): the cell that the commit word does not name, the commit word, and key RAM. A slot whose
committed copy is of an earlier, persistent key gives the copy up with the commit word. -/
def placeKey (n attr origin : Nat) (key : List Byte) (s : State) : State :=
  let old := ksGet s n
  let w := commitGet s n
  let a := putBits attr 14 2 origin
  let gen := (old.gen + 1) % 2 ^ 30
  let cell := if attrPersist a then 1 - w % 2 else w % 2
  let k : KeySlot := { st := .valid, attr := a, gen := gen, cell := cell, key := key, uses := old.uses }
  let s :=
    if attrPersist a then commitSet n (commitWord true gen cell) (cellStore n cell k s)
    else if bitAt w 31 then commitSet n (commitWord false gen cell) s
    else s
  ksSet n k (commitCmd keyPage s)

/-- A fresh key of a TYPE from the DRBG (R588). -/
def freshKey (t : Nat) (s : State) : List Byte × State :=
  let x := takeFree s
  let v := (Config.drbg x.1).toNat
  (if typePk t then beBytes 48 (v % (Crypto.pN - 1) + 1) else beBytes (keyLen t) (v % 2 ^ (8 * keyLen t)), x.2)

/-- The client's staged attributes. -/
def stagedAttr (s : State) (c : Client) : Nat := rgetC s c keyPage Reg.keyStore.KS_ATTR

/-- The first `n` bytes of the client's buffer. -/
def bufBytes (s : State) (c : Client) (n : Nat) : List Byte := (rbytesC s c keyPage Reg.keyStore.BUF ((n + 3) / 4)).take n

/-- Bytes into the client's buffer from byte 0. -/
def bufPut (c : Client) (bs : List Byte) (s : State) : State :=
  rsetCs c keyPage Reg.keyStore.BUF (leWords bs ((bs.length + 3) / 4)) s

/-- The end of a key command. -/
def keyEnd (code : Nat) (s : State) : State := endCmd keyPage code s

/-! ### The key commands (R581–R591, R602) -/

/-- KEY_GEN. -/
def keyGenEffect (r : Req) (s : State) : State :=
  let a := stagedAttr s r.client
  if writeBarred s ∨ attrOk a = false ∨ r.arg.toNat ≠ argS r + (argReplace r).toNat * 2 ^ 15 ∨ mayPlace s (argS r) (argReplace r) = false then
    keyEnd Code.badArg s
  else if typePk (attrType a) && !pkReady s then keyEnd Code.noGrant s
  else if entropyBad s then keyEnd Code.faulted s
  else
    let x := freshKey (attrType a) s
    keyEnd Code.ok (placeKey (argS r) a 0 x.1 x.2)

def execKeyGen (r : Req) (s : State) : Host.Outcome State Fault Refusal :=
  .next (command keyPage 0x01 r (keyGenEffect r) s)

/-- The header of a transport blob is as R582 lays it down, and its TARGET is this device or any (R583). -/
def transportGood (s : State) (b : List Byte) : Bool :=
  blobGood b 1 && decide (blobField b 0x14 4 = 0 ∧ blobField b 0x0C 1 < 128)
    && ((sliceB b 0x18 16).all (· == 0) || sliceB b 0x18 16 == deviceId s)

/-- The wrapping slot `t` may be used. -/
def wrapOk (s : State) (c : Client) (t : Nat) : Bool := slotUsable s c t && ksHas s t 1 10

/-- KEY_IMPORT (R583). -/
def keyImportEffect (r : Req) (s : State) : State :=
  let b := bufBytes s r.client 116
  let t := blobField b 0x0C 1
  if writeBarred s ∨ r.arg.toNat ≠ argS r + (argReplace r).toNat * 2 ^ 15 ∨ mayPlace s (argS r) (argReplace r) = false then
    keyEnd Code.badArg s
  else if transportGood s b = false then keyEnd Code.authFail s
  else if wrapOk s r.client t = false then keyEnd Code.badArg s
  else
    let attr := blobField b 8 4
    let s := ksUse t s
    match blobOpen (ksGet s t).key b with
    | none => keyEnd Code.authFail s
    | some k =>
      if (k.drop (keyLen (attrType attr))).any (· != 0) then keyEnd Code.authFail s
      else if entropyBad s && attrPersist attr then keyEnd Code.faulted s
      else keyEnd Code.ok (placeKey (argS r) attr 1 (k.take (keyLen (attrType attr))) s)

def execKeyImport (r : Req) (s : State) : Host.Outcome State Fault Refusal :=
  .next (command keyPage 0x02 r (keyImportEffect r) s)

/-- The client's TARGET registers as 16 bytes, bytes 0–3 in TARGET0. -/
def targetBytes (s : State) (c : Client) : List Byte := rbytesC s c keyPage Reg.keyStore.TARGET 4

/-- KEY_EXPORT (R583). -/
def keyExportEffect (r : Req) (s : State) : State :=
  let n := argS r
  let t := argT r
  if r.arg.toNat ≠ n + t * 2 ^ 8 ∨ slotUsable s r.client n = false ∨ attrExport (ksGet s n).attr = false ∨ wrapOk s r.client t = false then
    keyEnd Code.badArg s
  else if entropyBad s then keyEnd Code.faulted s
  else
    let k := ksGet s n
    let x := drawIv s
    let head := blobHead 1 k.attr t k.gen 0 (targetBytes s r.client) x.1
    keyEnd Code.ok (bufPut r.client (blobSeal (ksGet s t).key head k.key x.1) (ksUse t (ksUse n x.2)))

def execKeyExport (r : Req) (s : State) : Host.Outcome State Fault Refusal :=
  .next (command keyPage 0x03 r (keyExportEffect r) s)

/-- Label and context from buffer byte `o` on: their lengths lie in 1–32 and 0–64 (R581). -/
def labelContext (b : List Byte) (o : Nat) : Option (List Byte × List Byte) :=
  let l := leNat (sliceB b o 1)
  let m := leNat (sliceB b (o + 1 + l) 1)
  if 1 ≤ l ∧ l ≤ 32 ∧ m ≤ 64 then some (sliceB b (o + 1) l, sliceB b (o + 2 + l) m) else none

/-- A destination's staged attributes for a derived key: TYPE 1, 2 or 5 (R581). -/
def derivedOk (a : Nat) : Bool := attrOk a && !typePk (attrType a)

/-- A derived key into slot `t`: the KDF over `key`. -/
def placeDerived (t attr origin : Nat) (key : List Byte) (lc : List Byte × List Byte) (s : State) : State :=
  keyEnd Code.ok (placeKey t attr origin (Crypto.kdf key lc.1 lc.2 (8 * keyLen (attrType attr))) s)

/-- KEY_DERIVE (R581). -/
def keyDeriveEffect (r : Req) (s : State) : State :=
  let n := argS r
  let a := stagedAttr s r.client
  match labelContext (bufBytes s r.client 512) 0 with
  | none => keyEnd Code.badArg s
  | some lc =>
    if writeBarred s ∨ r.arg.toNat ≠ n + argT r * 2 ^ 8 ∨ slotUsable s r.client n = false ∨ slotBit s n 8 = false ∨ derivedOk a = false then
      keyEnd Code.badArg s
    else if entropyBad s && attrPersist a then keyEnd Code.faulted s
    else placeDerived (argT r) a 2 (ksGet s n).key lc (ksUse n s)

def execKeyDerive (r : Req) (s : State) : Host.Outcome State Fault Refusal :=
  .next (command keyPage 0x04 r (keyDeriveEffect r) s)

/-- KEY_AGREE (R581). -/
def keyAgreeEffect (r : Req) (s : State) : State :=
  let n := argS r
  let a := stagedAttr s r.client
  let b := bufBytes s r.client 512
  match labelContext b 96 with
  | none => keyEnd Code.badArg s
  | some lc =>
    if writeBarred s ∨ r.arg.toNat ≠ n + argT r * 2 ^ 8 ∨ slotUsable s r.client n = false ∨ attrType (ksGet s n).attr ≠ 4 ∨ derivedOk a = false then
      keyEnd Code.badArg s
    else if !pkReady s then keyEnd Code.noGrant s
    else
      match Crypto.p384Shared (scalar (ksGet s n).key) (b.take 96) with
      | none => keyEnd Code.badArg s
      | some z =>
        if entropyBad s && attrPersist a then keyEnd Code.faulted s
        else placeDerived (argT r) a 3 z lc (ksUse n s)

def execKeyAgree (r : Req) (s : State) : Host.Outcome State Fault Refusal :=
  .next (command keyPage 0x05 r (keyAgreeEffect r) s)

/-- KEY_DELETE (R585): VALID = 0 with GEN_new, and the slot is EMPTY. -/
def keyDeleteEffect (r : Req) (s : State) : State :=
  let n := argS r
  if r.arg.toNat ≠ n then keyEnd Code.badArg s
  else
    let k := ksGet s n
    let w := commitGet s n
    let gen := (k.gen + 1) % 2 ^ 30
    let s := if attrPersist k.attr || bitAt w 31 then commitSet n (commitWord false gen (w % 2)) s else s
    keyEnd Code.ok (ksSet n { gen := gen, cell := w % 2, uses := k.uses } (commitCmd keyPage s))

def execKeyDelete (r : Req) (s : State) : Host.Outcome State Fault Refusal :=
  .next (command keyPage 0x06 r (keyDeleteEffect r) s)

/-- FLAGS of R589. -/
def attestFlags (s : State) (deviceOnly : Bool) : Nat :=
  (devMode s).toNat + (tampered s).toNat * 2 + deviceOnly.toNat * 4 + (keySealed s).toNat * 8

/-- Bytes 0x00–0xDF of a statement (R589). -/
def statement (s : State) (nonce : List Byte) (slot : Option Nat) : List Byte :=
  let f := s.fuse
  let k := match slot with
    | some n => ksGet s n
    | none => {}
  leBytes 4 0x4C464154 ++ leBytes 2 1 ++ leBytes 2 (attestFlags s slot.isNone) ++ deviceId s ++ nonce ++ leBytes 8 s.ck.dt
    ++ leBytes 4 (rget s (hubPage .boot) Reg.boot.FW_VERSION) ++ leBytes 4 (rget s (hubPage .boot) Reg.boot.FW_SVN)
    ++ leBytes 4 (f.denyPf0 + f.denySb * 2 ^ 16) ++ leBytes 4 (epochCount s)
    ++ (match slot with
        | some n => leBytes 1 n ++ leBytes 1 (attrType k.attr) ++ [0, 0] ++ leBytes 4 k.attr ++ leBytes 4 k.gen ++ List.replicate 4 0
        | none => List.replicate 16 0)
    ++ (if typePk (attrType k.attr) then Crypto.p384Public (scalar k.key) else List.replicate 96 0)
    ++ (if slot.isSome then (keyCheck k).take 16 else List.replicate 16 0)
    ++ leBytes 4 (f.debugLock + f.tamperResp * 2 + f.mandatory * 8 + f.commission * 16 + svnFloor s * 2 ^ 8)
    ++ List.replicate 12 0

/-- A nonce of ECDSA from the DRBG, in [1, n − 1]. -/
def drawNonce (s : State) : Nat × State :=
  let x := takeFree s
  ((Config.drbg x.1).toNat % (Crypto.pN - 1) + 1, x.2)

/-- The signed statement into the buffer. -/
def attestWrite (c : Client) (slot : Option Nat) (s : State) : State :=
  let t := statement s (bufBytes s c 32) slot
  let x := drawNonce s
  keyEnd Code.ok (bufPut c (t ++ Crypto.ecdsaSign (attestKey s) (Crypto.sha384 t) x.1) x.2)

/-- ATTEST (R589, R590). -/
def attestEffect (r : Req) (s : State) : State :=
  let n := argS r
  let alone := bitAt r.arg.toNat 8
  if r.arg.toNat ≠ n + alone.toNat * 2 ^ 8 then keyEnd Code.badArg s
  else if !alone ∧ (slotUsable s r.client n = false ∨ attrOrigin (ksGet s n).attr = 1 ∨ attrExport (ksGet s n).attr = true) then
    keyEnd Code.badArg s
  else if !pkReady s then keyEnd Code.noGrant s
  else if entropyBad s then keyEnd Code.faulted s
  else if alone then attestWrite r.client none s
  else attestWrite r.client (some n) (ksUse n s)

def execAttest (r : Req) (s : State) : Host.Outcome State Fault Refusal :=
  .next (command keyPage 0x07 r (attestEffect r) s)

/-- What CHALLENGE signs (R591). -/
def challengeBytes (s : State) (n : Nat) (nonce : List Byte) : List Byte :=
  ascii "LF-CR" ++ beBytes 2 n ++ nonce ++ deviceId s ++ beBytes 4 (epochCount s) ++ beBytes 2 (attestFlags s false)

/-- CHALLENGE (R591). -/
def challengeEffect (r : Req) (s : State) : State :=
  let n := argS r
  if r.arg.toNat ≠ n ∨ slotUsable s r.client n = false ∨ ksHas s n 2 11 = false then keyEnd Code.badArg s
  else
    keyEnd Code.ok (bufPut r.client (Crypto.hmac384 (ksGet s n).key (challengeBytes s n (bufBytes s r.client 32))) (ksUse n s))

def execChallenge (r : Req) (s : State) : Host.Outcome State Fault Refusal :=
  .next (command keyPage 0x08 r (challengeEffect r) s)

/-- ZEROIZE (R600, R602): with ADVANCE it ends once the epoch has advanced. -/
def zeroizeEffect (r : Req) (s : State) : State :=
  if 2 ≤ r.arg.toNat then keyEnd Code.badArg s
  else if r.arg.toNat = 1 then tamperRespond 3 8 s
  else keyEnd Code.ok (tamperRespond 1 8 s)

def execZeroize (r : Req) (s : State) : Host.Outcome State Fault Refusal :=
  .next (command keyPage 0x09 r (zeroizeEffect r) s)

/-- The conditions of TAMPER_CLEAR hold (R598). -/
def tamperQuiet (s : State) : Bool :=
  !s.io.tamp.a && !s.io.tamp.b && !s.io.tamp.accepted && !s.io.tamp.fault
    && rget s tamperPage Reg.tamper.MON_STAT == 0

/-- After TAMPER_CLEAR the wiped slots with a committed copy are loaded again (R598). -/
def reloadKeys (s : State) : State :=
  ((s.sec.commits.filter fun x => bitAt x.2 31 && decide ((ksGet s x.1).st = .zeroized)).map (·.1)).foldl
    (fun s n => (loadSlot n s).1) s

/-- TAMPER_CLEAR (R598). -/
def tamperClearEffect (r : Req) (s : State) : State :=
  if r.arg ≠ 0 ∨ tamperQuiet s = false then keyEnd Code.badArg s
  else
    let s := rset tamperPage Reg.tamper.TAMPER_CAUSE 0 (rset keyPage Reg.keyStore.TAMPERED 0 s)
    keyEnd Code.ok (reloadKeys { s with sec := { s.sec with latch := none } })

def execTamperClear (r : Req) (s : State) : Host.Outcome State Fault Refusal :=
  .next (command keyPage 0x0A r (tamperClearEffect r) s)

/-- GET_PUB (R602). -/
def getPubEffect (r : Req) (s : State) : State :=
  let n := argS r
  if r.arg.toNat ≠ n ∨ slotUsable s r.client n = false ∨ typePk (attrType (ksGet s n).attr) = false then keyEnd Code.badArg s
  else if !pkReady s then keyEnd Code.noGrant s
  else keyEnd Code.ok (bufPut r.client (Crypto.p384Public (scalar (ksGet s n).key)) (ksUse n s))

def execGetPub (r : Req) (s : State) : Host.Outcome State Fault Refusal :=
  .next (command keyPage 0x0B r (getPubEffect r) s)

/-! ### Monitors and the tamper response (R592–R596) -/

/-- The cause of a monitor (R592). -/
def monCause : Monitor → Nat
  | .mesh => 2
  | .supply => 3
  | .clock => 4
  | .thermal => 5

/-- MON_STAT of a cause. -/
def monStat (cause : Nat) (on : Bool) (s : State) : State :=
  rset tamperPage Reg.tamper.MON_STAT (putBit (rget s tamperPage Reg.tamper.MON_STAT) cause on) s

/-- A monitor accepts its condition: a tamper, and in DRY a wake (R36, R592). -/
def monitorTrip (m : Monitor) (s : State) : State := wakeSource 5 (tamperAccept (monCause m) (monStat (monCause m) true s))

/-- TAMPER_MONITOR_TRIP (R592): in every power state. -/
def execTamperMonitorTrip (m : Monitor) (s : State) : Host.Outcome State Fault Refusal :=
  .next (if islandOn s then monitorTrip m s else s)

/-- EPOCH_ADVANCE (R595, R596). -/
def execEpochAdvance (s : State) : Host.Outcome State Fault Refusal :=
  .next (if s.sec.advance && islandOn s && reservoirCharged s then epochBlow s else s)

/-- KEY_COPY_OVERWRITE (R595): in DRY it waits for the wake, and in any state for the TAMPER records (R612). -/
def execKeyCopyOverwrite (s : State) : Host.Outcome State Fault Refusal :=
  .next (if s.sec.erase && hubRuns s && s.ev.tamperQ.isEmpty then eraseCells s else s)

/-- When a monitor was last tested, and its failures in a row. -/
def bistGet (s : State) (m : Monitor) : Option (Nat × Nat) := Assoc.get s.sec.bist (monCause m)

/-- A test of this monitor is due: one in every 1,024 XTAL32 ticks, 31.25 ms (R593). -/
def bistDue (s : State) (m : Monitor) : Bool := duePeriod 31250000 ((bistGet s m).map (·.1)) s

/-- A failed test: BIST_FAILS and its event; the second in a row is a tamper of cause 6 (R593). -/
def bistFail (m : Monitor) (before : Nat) (s : State) : State :=
  let s := radd tamperPage Reg.tamper.BIST_FAILS 1 s
  let s := raise 0xA004 12 0 (monCause m) (rget s tamperPage Reg.tamper.BIST_FAILS) s
  if before = 0 then s else wakeSource 5 (tamperAccept 6 s)

/-- A test has run: failures in a row start anew after a pass and after the tamper. -/
def bistDone (m : Monitor) (fails : Nat) (s : State) : State :=
  { s with sec := { s.sec with bist := Assoc.set s.sec.bist (monCause m) (s.ck.dt, fails) } }

/-- BIST_RUN (R593): `tripped` is whether the monitor trips on the stimulus, `stillReports` whether it reports its
condition at its next sample after it. -/
def execBistRun (m : Monitor) (tripped stillReports : Bool) (s : State) : Host.Outcome State Fault Refusal :=
  .next (if islandOn s && bistDue s m then
      let before := (bistGet s m).elim 0 (·.2)
      let s := if tripped then bistDone m 0 s
        else bistFail m before (bistDone m (if before = 0 then 1 else 0) s)
      if stillReports then monitorTrip m s else monStat (monCause m) false s
    else s)

/-- ENTROPY_FAIL (R588). -/
def execEntropyFail (proportion : Bool) (s : State) : Host.Outcome State Fault Refusal :=
  .next (if islandOn s then
      raise 0xA003 12 0 proportion.toNat 0 (rset keyPage Reg.keyStore.ENTROPY_FAIL 1 s)
    else s)

/-- ENTROPY_RECOVER (R588). -/
def execEntropyRecover (s : State) : Host.Outcome State Fault Refusal :=
  .next (if islandOn s then rset keyPage Reg.keyStore.ENTROPY_FAIL 0 s else s)

end Sys2Proof.Machine
end

