-- ==== Sys2Proof/Machine/Jobs.lean ====
section
/-! DEFINITION. Chapter 13: the commands of the admission page and of the job slots (R362–R386). -/

namespace Sys2Proof.Machine

/-! ### Binding (R362, R383) -/

/-- Slot `j` leaves its tenant's view, and the window pages that showed it go (R334, R362). -/
def unview (j : Nat) (s : State) : State :=
  match Assoc.get s.views j with
  | some (t, v) => { s with
      views := s.views.filter (·.1 ≠ j)
      hdr := s.hdr.filter fun h => !((List.range 30).any fun w => decide (h.1 = winPage t v w)) }
  | none => s

/-- The effect of BIND_SLOT, either way of its unbind bit (R362). -/
def bindEffect (r : Req) (s : State) : State :=
  let a := r.arg.toNat
  let j := bitsOf a 0 5
  let t := bitsOf a 5 4
  let v := bitsOf a 9 3
  let endWith := fun c s => endCmd admissionPage c s
  if 2 ^ 13 ≤ a ∨ (slotGet s j).st ≠ .empty then endWith Code.badArg s
  else if bitAt a 12 then endWith Code.ok (unview j s)
  else if t = 0 then endWith Code.badArg s
  else if s.views.any fun x => x.2 == (t, v) then endWith 0x0107 s
  else
    let s := unview j s
    endWith Code.ok { s with views := Assoc.set s.views j (t, v) }

/-- BIND_SLOT with unbind = 0. -/
def execBindSlot (r : Req) (s : State) : Host.Outcome State Fault Refusal :=
  .next (command admissionPage 0x01 r (bindEffect r) s)

/-- BIND_SLOT with unbind = 1. -/
def execUnbindSlot (r : Req) (s : State) : Host.Outcome State Fault Refusal :=
  .next (command admissionPage 0x01 r (bindEffect r) s)

/-! ### LOAD, RESTART and the admission unit (R366–R370, R382) -/

/-- A request waits for the admission unit (R366). -/
def admQueue (q : AdmReq) (s : State) : State := { s with jb := { s.jb with queue := s.jb.queue ++ [q] } }

/-- LOAD (R385): the request waits for the unit. -/
def execLoad (slot : Fin 32) (r : Req) (s : State) : Host.Outcome State Fault Refusal :=
  .next (command (slotPage slot.val) 0x01 r (admQueue { slot := slot.val, load := true, peer := none }) s)

/-- The effect of RESTART (R375, R382, R385). -/
def restartEffect (j : Nat) (r : Req) (s : State) : State :=
  let x := slotGet s j
  if r.arg ≠ 0 ∨ ¬ (x.st = .faulted ∨ x.st = .done ∨ x.st = .cancelled) ∨ ¬ (mayRestart x = true) then
    endCmd (slotPage j) Code.badArg s
  else admQueue { slot := j, load := false, peer := none } s

/-- RESTART. -/
def execRestart (slot : Fin 32) (r : Req) (s : State) : Host.Outcome State Fault Refusal :=
  .next (command (slotPage slot.val) 0x04 r (restartEffect slot.val r) s)

/-- A group job goes back to FAULTED: one of its devices refused with `code` (R382). -/
def groupBack (j code : Nat) (s : State) : State :=
  let s := freeHeld j s
  let x := slotGet s j
  let s := slotSet j { x with lastResult := code, announced := [], waitGroup := none,
                              pendingRestart := x.pendingRestart && mayRestart x } s
  closeSessions (setJob j .faulted s)

/-- A RESTART_RESULT frame to device `p` (R406). -/
def sendResult (j p code : Nat) (s : State) : State :=
  match ctlPort s j p with
  | some n => sendTo j p n (groupHdr s j p .restartResult) (beBytes 2 code ++ List.replicate 6 0) s
  | none => s

/-- The leader's group answers with a refusal: every peer hears it, and the command ends with it (R382, log entry 21). -/
def groupRefused (j code : Nat) (s : State) : State :=
  let s := (peersOf (slotGet s j)).foldl (fun s p => sendResult j p code s) s
  endCmd (slotPage j) code (groupBack j code s)

/-- The restart came from hub firmware for RESTART_PENDING (R375). -/
def isAuto (s : State) (j : Nat) : Bool :=
  (slotGet s j).pendingRestart &&
    (match (hget s (slotPage j)).cmd with
     | some r => decide (r.client = .firmware)
     | none => false)

/-- AUTO_COUNT advances at an admitted auto-restart (R375). -/
def countAuto (j : Nat) (auto : Bool) (s : State) : State :=
  if auto then slotSet j { slotGet s j with autoCount := satN 4 ((slotGet s j).autoCount + 1) } s else s

/-- A leader's group restart: STARTING, and RESTART to every peer (R382). -/
def groupRestart (j : Nat) (s : State) : State :=
  let s := openSessions j (setJob j .starting s)
  let s := slotSet j { slotGet s j with throttle := 0, canalInt := 0, stale := 0, announced := [],
                                        waitGroup := some { since := s.ck.dt, devs := peersOf (slotGet s j) } } s
  sendPeers j .restart [] s

/-- An admitted LOAD: LOADED, with a fresh slot accumulator and its tenant fixed (R219, R376). -/
def loadAdmitted (j : Nat) (s : State) : State :=
  let s := { s with tenants := setAt s.tenants j (tenantOf s j), en := { s.en with slotAcc := setAt s.en.slotAcc j 0 } }
  endCmd (slotPage j) Code.ok (commitCmd (slotPage j) (setJob j .loaded (admissionEnd j Code.ok s)))

/-- The decision of a LOAD taken up. -/
def doLoad (j arg : Nat) (s : State) : State :=
  let d := decideLoad s j arg
  let s := match stagedAt s arg with
    | some a => stackReadCounts a (min (leNat (stackRead s (a + 8) 4).1) (2 ^ 28)) s
    | none => s
  let s := match d.2.2 with
    | some n => rset admissionPage Reg.admission.LAST_EVALS n s
    | none => s
  match d.1 with
  | .refuse c => endCmd (slotPage j) c (admissionEnd j c s)
  | .takes ps objs => loadAdmitted j (reserveJob j (readImage d.2.1) d.2.1 ps objs true 1 s)

/-- The decision of a RESTART taken up; a peer's takes the leader's run number (R382). -/
def doRestart (j : Nat) (peer : Option Nat) (s : State) : State :=
  match (slotGet s j).image with
  | none => s
  | some im =>
    match decideFit s j im with
    | .refuse c =>
      let s := admissionEnd j c s
      (match peer with
      | some _ => sendResult j 0 c s
      | none => endCmd (slotPage j) c s)
    | .takes ps objs =>
      let auto := isAuto s j
      let run := match peer with
        | some r => r
        | none => ((slotGet s j).run + 1) % 2 ^ 32
      let s := commitCmd (slotPage j) (admissionEnd j Code.ok (reserveJob j im [] ps objs false run s))
      match peer with
      | some _ => startJob j (sendResult j 0 Code.ok (openSessions j (setJob j .starting s)))
      | none => if groupSize (slotGet s j) = 1 then startJob j (countAuto j auto s) else groupRestart j s

/-- The request's command still executes and has no end yet. -/
def requestStands (s : State) (q : AdmReq) : Bool :=
  q.peer.isSome ||
    (match (hget s (slotPage q.slot)).cmd with
     | some r => r.final.isNone && r.opcode == (if q.load then 1 else 4)
     | none => false)

/-- The argument of the command that executes on a slot page. -/
def slotArg (s : State) (j : Nat) : Nat := match (hget s (slotPage j)).cmd with
  | some r => r.arg
  | none => 0

/-- ADMISSION_DECIDE (R366): the unit takes up the oldest request. -/
def execAdmissionDecide (s : State) : Host.Outcome State Fault Refusal :=
  .next (match s.jb.queue with
    | q :: qs =>
      if hubRuns s then
        let s := { s with jb := { s.jb with queue := qs } }
        if !requestStands s q then s
        else if q.load then doLoad q.slot (slotArg s q.slot) s
        else doRestart q.slot q.peer s
      else s
    | [] => s)

/-! ### START (R385, R407, R418) -/

/-- The sessions that port `n` would hold with those that slot `j` names (R407). -/
def sessionsWith (s : State) (j n : Nat) : List Nat :=
  let open_ := (s.ner.sessions.filter fun x => x.port == n).map (·.mac)
  let new := ((peersOf (slotGet s j)).filter fun p => (peerPorts s j p).contains n).map (peerMac s j)
  (open_ ++ new).eraseDups

/-- A group slot may start (R407, R418). -/
def groupMayStart (s : State) (j : Nat) : Bool :=
  let x := slotGet s j
  let t := groupTag s j
  t != 0 && ((List.range 32).all fun i => i == j || !slotLive s i || groupTag s i != t)
    && ((peersOf x).all fun p => peerValid s j p && (peerPorts s j p).any (linkIsUp s))
    && (List.range 4).all fun n => decide ((sessionsWith s j n).length ≤ 16)

/-- The effect of START. -/
def startEffect (j : Nat) (r : Req) (s : State) : State :=
  let x := slotGet s j
  if r.arg ≠ 0 ∨ x.st ≠ .loaded ∨ (groupSize x ≠ 1 ∧ ¬ groupMayStart s j = true) then endCmd (slotPage j) Code.badArg s
  else endCmd (slotPage j) Code.ok (startJob j (commitCmd (slotPage j) s))

/-- START. -/
def execStart (slot : Fin 32) (r : Req) (s : State) : Host.Outcome State Fault Refusal :=
  .next (command (slotPage slot.val) 0x02 r (startEffect slot.val r) s)

/-! ### CANCEL and RELEASE (R371, R385) -/

/-- The effect of CANCEL. -/
def cancelEffect (j : Nat) (r : Req) (s : State) : State :=
  let x := slotGet s j
  if r.arg ≠ 0 ∨ x.st = .empty ∨ x.st = .done ∨ x.st = .cancelled then endCmd (slotPage j) Code.badArg s
  else
    let s := if holdsCores x.st then jobFault j 0x09 0xFF 0 (devIndex x) s
      else setJob j .cancelled (slotSet j { x with pendingRestart := false, faultAt := none } s)
    endCmd (slotPage j) Code.ok s

/-- CANCEL. -/
def execCancel (slot : Fin 32) (r : Req) (s : State) : Host.Outcome State Fault Refusal :=
  .next (command (slotPage slot.val) 0x03 r (cancelEffect slot.val r) s)

/-- A slot returns to EMPTY: everything it holds is free (R371, R397). -/
def emptySlot (j : Nat) (s : State) : State :=
  let x := slotGet s j
  let s := retireGranules (heldGranules x) (freeHeld j s)
  let s := slotSet j { slotGet s j with pendingRestart := false } s
  let s := setJob j .empty s
  { s with jb := { s.jb with slots := Assoc.set s.jb.slots j { lastResult := x.lastResult } } }

/-- The effect of RELEASE. -/
def releaseEffect (j : Nat) (r : Req) (s : State) : State :=
  let x := slotGet s j
  if r.arg ≠ 0 ∨ x.st = .starting ∨ x.st = .running then endCmd (slotPage j) Code.badArg s
  else endCmd (slotPage j) Code.ok (if x.st = .empty then s else retryAll (emptySlot j s))

/-- RELEASE. -/
def execRelease (slot : Fin 32) (r : Req) (s : State) : Host.Outcome State Fault Refusal :=
  .next (command (slotPage slot.val) 0x05 r (releaseEffect slot.val r) s)

/-! ### Faults and automatic restart (R289, R372, R375) -/

/-- JOB_FAULT (R372): a cause that a block reports against a slot's job; a memory error of a core is a parity error of
its accumulators (R289). -/
def execJobFault (slot : Fin 32) (cause : Byte) (core : Option (Fin 192)) (detail : Byte) (s : State) :
    Host.Outcome State Fault Refusal :=
  let j := slot.val
  .next (if 1 ≤ cause.toNat ∧ cause.toNat ≤ 8 ∧ holdsCores (slotGet s j).st = true then
      match core with
      | none => jobFault j cause.toNat 0xFF detail.toNat (devIndex (slotGet s j)) s
      | some g =>
        if slotOfCore s g.val = some j then
          let s := if cause.toNat = 2 then radd (corePage .core g.val) Reg.core.ACC_PARITY 1 s else s
          jobFault j cause.toNat g.val detail.toNat (devIndex (slotGet s j)) s
        else s
    else s)

/-- Hub firmware's request of slot `j`'s restart (R375). -/
def firmwareReq (arg : Nat) : Req := { client := .firmware, source := .hubInternal, arg := BitVec.ofNat 32 arg, tag := 0 }

/-- The dies the job last used that are down (R375). -/
def diesDown (s : State) (j : Nat) : Nat := maskOf 12 fun d => (slotGet s j).dies.contains d && !diePowered s d

/-- The dies of a mask whose grant stands (R122, R375). -/
def dieGrantsOk (s : State) (m : Nat) : Bool :=
  grantOk s powerPage && (bitsSet 12 m).all fun d => grantOk s (pageOf .diePower 0 d)

/-- Hub firmware's DIE_UP for the dies of slot `j`'s job that are down, where their grants allow (R375). -/
def raiseDies (j : Nat) (s : State) : State :=
  let m := diesDown s j
  if m ≠ 0 ∧ dieGrantsOk s m = true then command powerPage 0x01 (firmwareReq m) (dieUpEffect (firmwareReq m)) s else s

/-- AUTO_RESTART (R375): 1 ms after the fault, and again at each of the events that may let the job fit. -/
def execAutoRestart (slot : Fin 32) (s : State) : Host.Outcome State Fault Refusal :=
  let j := slot.val
  let x := slotGet s j
  let first := match x.faultAt with
    | some t => passed t 1000000 s
    | none => false
  .next (if x.pendingRestart && decide (x.st = .faulted) && clientUp s .firmware && s.bt.update.isNone && (first || s.jb.retry.contains j) then
      let s := { slotSet j { x with faultAt := none } s with jb := { (slotSet j { x with faultAt := none } s).jb with
        retry := s.jb.retry.filter (· ≠ j) } }
      command (slotPage j) 0x04 (firmwareReq 0) (restartEffect j (firmwareReq 0)) (raiseDies j s)
    else s)

end Sys2Proof.Machine
end

