-- ==== Sys2Proof/Machine/Checks.lean ====
section
/-! DEFINITION. What makes a descriptor an error, and with which code (R301, R306, R309–R316, R321, R326, R327, R353). -/

namespace Sys2Proof.Machine

/-! The codes of R316. -/
namespace Err
def reservedOp : Nat := 0x01
def reservedBits : Nat := 0x02
def arrayShape : Nat := 0x03
def format : Nat := 0x04
def length : Nat := 0x05
def range : Nat := 0x06
def drainFormat : Nat := 0x07
def keep : Nat := 0x08
def loop : Nat := 0x09
def space : Nat := 0x0A
def object : Nat := 0x0B
def kick : Nat := 0x0C
def poison : Nat := 0x0D
end Err

/-- The code of the first test that fails; 0 when none does. -/
def firstErr : List (Bool × Nat) → Nat
  | [] => 0
  | (bad, code) :: xs => if bad then code else firstErr xs

/-- Reserved fields and values (R301, R302, R309, R311, R312, R314, R315). -/
def reservedSet (d : Desc) : Bool :=
  match d.op with
  | 0 => d.init == 3 || (d.drain && decide (6 ≤ d.dfmt))
  | 1 => bitsOf d.w0 24 3 != 0 || decide (29 ≤ d.vop)
         || (if d.vop = 19 ∧ d.ifmt = 1 ∧ d.ofmt = 6 then d.imm || bitsOf d.w2 5 27 != 0
             else !d.imm && bitsOf d.w2 18 14 != 0)
         || (d.imm && bitAt d.tgt 1)
  | 2 => bitAt d.tgt 2
  | 3 => bitsOf d.w0 8 19 != 0 || bitsOf d.w1 16 16 != 0 || bitsOf d.w3 0 18 != 0 || decide (2 ≤ d.tgt)
  | 4 => bitsOf d.w0 9 18 != 0 || bitsOf d.w1 16 16 != 0 || bitsOf d.w3 0 18 != 0 || decide (2 ≤ d.tgt)
  | 5 => bitsOf d.w0 8 24 != 0 || bitsOf d.w1 26 6 != 0 || d.w2 != 0 || d.w3 != 0
  | 6 => bitsOf d.w0 10 22 != 0 || d.w2 != 0 || d.w3 != 0
  | 7 => bitsOf d.w0 8 24 != 0 || d.w1 != 0 || d.w2 != 0 || d.w3 != 0
  | _ => false

/-- Operations that carry stride control. -/
def strided (d : Desc) : Bool := decide (d.op ≤ 4)

/-- The pairings of R272. -/
def pairs (a b : Nat) : Bool :=
  if a ≤ 1 then decide (b ≤ 1)
  else if a = 5 ∨ a = 6 then b == 5 || b == 6
  else a == b

/-- Array `a` holds accumulators of the type that a descriptor needs (R305). -/
def holds (r : CoreRun) (int : Bool) (a : Nat) : Bool := r.held.any fun h => h.array == a && h.int == int

/-- Arrays that the MMA queue will leave holding accumulators, with their type, once what is queued has run. -/
def heldAfter (r : CoreRun) : List (Nat × Bool) :=
  r.mma.foldl (fun hs q =>
    if q.done then hs
    else
      let named := q.d.arrayList
      let rest := hs.filter fun h => !named.contains h.1
      if q.d.drain then rest else rest ++ named.map fun a => (a, mmaInt q.d.fmtA)) (r.held.map fun h => (h.array, h.int))

/-- R306, on stepped addresses. -/
def mmaErr (r : CoreRun) (d : Desc) : Nat :=
  let int := mmaInt d.fmtA
  let named := d.arrayList
  firstErr
    [ (decide (32 < d.arrBase + d.arrays) || decide (d.arrays % d.tileRows ≠ 0), Err.arrayShape)
    , (!pairs d.fmtA d.fmtB, Err.format)
    , ((mmaMx d.fmtA && decide (d.k % 32 ≠ 0)) || (d.fmtA == 7 && decide (d.k % 2 ≠ 0)), Err.length)
    , (d.drain && ((int && decide (1 ≤ d.dfmt ∧ d.dfmt ≤ 4)) || (!int && d.dfmt == 5)), Err.drainFormat)
    , (d.init == 2 && !(named.all fun a => (heldAfter r).contains (a, int)), Err.keep)
    , (leavesCore d.aAddr (d.tileRows * bandSize d.fmtA d.k) || leavesCore d.bAddr (d.tileCols * bandSize d.fmtB d.k)
        || (d.init == 1 && leavesCore d.cAddr (d.arrays * 256))
        || (d.drain && leavesCore d.cAddr (d.arrays * 64 * drainBytes d.dfmt)), Err.range) ]

/-- Float formats of a result: FP32, BF16, FP16, E4M3, E5M2. -/
def floatOut (f : Nat) : Bool := f == 0 || (decide (2 ≤ f) && decide (f ≤ 5))

/-- Formats that CVT takes as float. -/
def floatIn (f : Nat) : Bool := floatOut f || vecMx f

/-- Formats that a VEC operation may pair (R309). -/
def vecFormats (d : Desc) : Bool :=
  if d.vop ≤ 18 then decide (d.ifmt ≤ 8) && floatOut d.ofmt
  else if d.vop = 19 then
    if d.ifmt = 6 then d.ofmt == 0 || d.ofmt == 1
    else if d.ifmt = 1 then d.ofmt == 0 || d.ofmt == 6
    else floatIn d.ifmt && floatOut d.ofmt
  else if d.vop = 20 then decide (d.ifmt ≤ 8) && vecMx d.ofmt
  else if d.vop ≤ 23 then decide (d.ifmt ≤ 8) && floatOut d.ofmt
  else (d.ifmt == 1 || d.ifmt == 6) && d.ofmt == 1

/-- One result for the whole vector. -/
def reduces (vop : Nat) : Bool := decide (21 ≤ vop) && decide (vop ≤ 23)

/-- Elements of the result. -/
def outLen (d : Desc) : Nat := if reduces d.vop then 1 else d.len

/-- R309, R310, on stepped addresses. -/
def vecErr (d : Desc) : Nat :=
  firstErr
    [ (!vecFormats d, Err.format)
    , ((vecMx d.ifmt || vecMx d.ofmt) && decide (d.len % 32 ≠ 0), Err.length)
    , (leavesCore d.src0 (vecBytes d.ifmt d.len)
        || (twoOperands d.vop && !d.imm && leavesCore d.src1 (vecBytes d.ifmt d.len))
        || leavesCore d.dst (vecBytes d.ofmt (outLen d)), Err.range) ]

/-- A DMA range leaves its space, or a destination lies in a region that a job may only read (R311, R353). -/
def dmaRangeBad (job : Option (Nat × Slot × Image)) (space die v n : Nat) (dest : Bool) : Bool :=
  let a := dmaByte space v
  match space, job with
  | 0, _ => decide (coreSize < a + n)
  | 1, some (_, x, im) => (jobDieAt x im die a n).isNone
  | 2, some (_, x, im) => (jobPieces x im (fun r => !dest || writable r) a n).isNone
  | 3, _ => decide (dieSramSize < a + n)
  | 4, _ => decide (131072 * granuleSize < a + n)
  | _, _ => true

/-- R311 and R353, on stepped addresses. -/
def dmaErr (s : State) (g : Nat) (d : Desc) : Nat :=
  let job := jobOf s g
  let n := 16 * d.dmaLen
  let dies := match job with
    | some (_, _, im) => im.dies.length
    | none => 0
  let peerBad := match job with
    | some (_, x, _) => decide (groupSize x ≤ d.peer) || d.peer == devIndex x
    | none => true
  firstErr
    [ (d.dmaLen == 0, Err.length)
    , (decide (3 ≤ d.ssp) || decide (5 ≤ d.dsp), Err.space)
    , (job.isNone && (d.ssp != 0 || d.dsp != 0), Err.space)
    , ((d.ssp == 1 && decide (dies ≤ d.sdie)) || (d.dsp == 1 && decide (dies ≤ d.ddie)), Err.space)
    , (decide (3 ≤ d.dsp) && peerBad, Err.space)
    , (d.ssp == d.dsp && (d.ssp != 1 || d.sdie == d.ddie)
        && overlap (dmaByte d.ssp d.w1) (dmaByte d.dsp d.w2) n, Err.range)
    , (dmaRangeBad job d.ssp d.sdie d.w1 n false || dmaRangeBad job d.dsp d.ddie d.w2 n true, Err.range) ]

/-- OBJ of a WAIT names a local object of the job (R312, R326, R327). -/
def waitErr (s : State) (g : Nat) (d : Desc) : Nat :=
  match jobOf s g with
  | some (_, x, _) => if (localObj x d.obj).isSome then 0 else Err.object
  | none => Err.object

/-- OBJ of a SIGNAL names an object of the job, here or on a peer, and the update is one that its type takes (R321,
R326). -/
def signalErr (s : State) (g : Nat) (d : Desc) : Nat :=
  match jobOf s g with
  | some (_, x, _) =>
    match localObj x d.obj with
    | some n => if signalAllowed (objGet s n).1 d.act d.w2 then 0 else Err.object
    | none => if (remoteObj x d.obj).isSome then 0 else Err.object
  | none => Err.object

/-- R314: nesting, the body's length and its end. -/
def loopErr (s : State) (g : Nat) (r : CoreRun) (pc : Nat) (d : Desc) : Nat :=
  let inside := match r.loops with
    | l :: _ => decide (l.last < pc + d.body)
    | [] => false
  let past := decide (coreSize < 16 * (rget s (seqPage g) Reg.sequencer.STREAM_BASE + pc + d.body + 1))
  if d.body = 0 ∨ 4 ≤ r.loops.length ∨ inside = true ∨ past = true then Err.loop else 0

/-- The error of the descriptor `d` at `pc`, or 0; `e` is `d` with its fields stepped. -/
def descErr (s : State) (g : Nat) (r : CoreRun) (pc : Nat) (d : Desc) : Nat :=
  if 8 ≤ d.op then Err.reservedOp
  else if reservedSet d then Err.reservedBits
  else if strided d && d.tgt != 0 && decide (r.loops.length ≤ d.lvl) then Err.loop
  else
    match stepped r d with
    | none => Err.range
    | some e =>
      match d.op with
      | 0 => mmaErr r e
      | 1 => vecErr e
      | 2 => dmaErr s g e
      | 3 => waitErr s g e
      | 4 => signalErr s g e
      | 5 => loopErr s g r pc e
      | 6 => if bitAt d.w0 9 && (slotOfCore s g).isSome then Err.kick else 0
      | _ => 0

end Sys2Proof.Machine
end

