-- ==== Sys2Proof/Machine/Tensor.lean ====
section
/-! DEFINITION. What an MMA and a VEC descriptor compute from the bytes of their operands (R273–R285, R302–R304,
R309, R310). -/

namespace Sys2Proof.Machine

/-! ### Elements -/

/-- The element codes of a run of bytes, at 4, 8, 16 or 32 bits each (R273). -/
def codesOf (bits : Nat) (bs : List Byte) : List Nat :=
  match bits with
  | 4 => bs.flatMap fun b => [b.toNat % 16, b.toNat / 16]
  | 8 => bs.map (·.toNat)
  | _ => let n := bits / 8; (List.range (bs.length / n)).map fun i => leNat ((bs.drop (n * i)).take n)

/-- The bytes of element codes. -/
def bytesOf (bits : Nat) (cs : List Nat) : List Byte :=
  match bits with
  | 4 => (List.range (cs.length / 2)).map fun i => BitVec.ofNat 8 (cs.getD (2 * i) 0 + 16 * cs.getD (2 * i + 1) 0)
  | _ => cs.flatMap (leBytes (bits / 8))

/-- `n` chunks of 8 of a list. -/
def chunks8 {α : Type} : Nat → List α → List (List α)
  | 0, _ => []
  | n + 1, xs => xs.take 8 :: chunks8 n (xs.drop 8)

/-! ### MMA -/

/-- A band: element codes by k, eight to each, and the scales by block (R303). -/
structure Band where
  cols   : List (List Nat)
  scales : List (List Nat)
deriving DecidableEq, Repr

def bandOf (fmt k : Nat) (bs : List Byte) : Band :=
  { cols := chunks8 k (codesOf (mmaBits fmt) bs)
    scales := if mmaMx fmt then chunks8 (k / 32) (codesOf 8 (bs.drop (bandData fmt k))) else [] }

/-- The datum of a float element (R271). -/
def mmaElem (fmt c : Nat) : Fp :=
  match fmt with
  | 0 => e4m3.decode c
  | 1 => e5m2.decode c
  | 3 => bf16.decode c
  | 4 => fp16.decode c
  | 5 => decodeE2M1 c
  | _ => decodeMXI4 c

/-- The eight float data of a band at each k, scaled by the block that holds k (R275). -/
def floatCols (fmt : Nat) (b : Band) : List (List Fp) :=
  b.cols.zipIdx.map fun x =>
    let sc := b.scales.getD (x.2 / 32) []
    x.1.zipIdx.map fun c =>
      let v := mmaElem fmt c.1
      if mmaMx fmt then scaled (sc.getD c.2 0) v else v

/-- The eight integers of a band at each k. -/
def intCols (fmt : Nat) (b : Band) : List (List Int) :=
  b.cols.map fun cs => cs.map (toInt (mmaBits fmt))

/-- Steps of one k, or of two k in the 4-bit formats (R275, R276). -/
def byStep {α : Type} (fmt : Nat) : List α → List (List α)
  | [] => []
  | x :: xs =>
    if mmaBits fmt = 4 then
      match xs with
      | [] => [[x]]
      | y :: ys => [x, y] :: byStep fmt ys
    else [x] :: byStep fmt xs

/-- One accumulator of a tile over all steps: row `r`, column `c` (R276). -/
def accF (fmt : Nat) (a b : List (List Fp)) (r c init : Nat) : Nat :=
  (byStep fmt (a.zip b)).foldl (fun acc st =>
    stepF acc (st.map fun x => (x.1.getD r (.fin false 0 0)).mul (x.2.getD c (.fin false 0 0)))) init

def accI (fmt : Nat) (a b : List (List Int)) (r c init : Nat) : Nat :=
  (byStep fmt (a.zip b)).foldl (fun acc st => stepI acc (st.map fun x => x.1.getD r 0 * x.2.getD c 0)) init

/-- The 64 accumulators of a tile, row by row, from `init` (R269, R304). -/
def tile (fa fb : Nat) (a b : Band) (init : List Nat) : List Nat :=
  if mmaInt fa then
    let x := intCols fa a
    let y := intCols fb b
    (List.range 64).map fun i => accI fa x y (i / 8) (i % 8) (init.getD i 0)
  else
    let x := floatCols fa a
    let y := floatCols fb b
    (List.range 64).map fun i => accF fa x y (i / 8) (i % 8) (init.getD i 0)

/-- One drained accumulator (R280). -/
def drainCode (dfmt : Nat) (mode : Bool) (shift w : Nat) : Nat :=
  match dfmt with
  | 1 => bf16.encode mode (ofF32 w)
  | 2 => fp16.encode mode (ofF32 w)
  | 3 => e4m3.encode mode (ofF32 w)
  | 4 => e5m2.encode mode (ofF32 w)
  | 5 => i32ToI8 w shift
  | _ => w

/-! ### VEC -/

/-- Bits of an element of a VEC format. -/
def vecBits (fmt : Nat) : Nat :=
  match fmt with
  | 0 | 1 => 32
  | 2 | 3 => 16
  | 4 | 5 | 6 => 8
  | _ => 4

/-- One operand element in FP32 bits (R282); an integer is widened or converted (R309). -/
def loadF (fmt sc c : Nat) : Nat :=
  match fmt with
  | 0 => c
  | 1 => i32ToF32 c
  | 2 => toF32 (bf16.decode c)
  | 3 => toF32 (fp16.decode c)
  | 4 => toF32 (e4m3.decode c)
  | 5 => toF32 (e5m2.decode c)
  | 6 => let i := toInt 8 c; toF32 (.fin (decide (i < 0)) i.natAbs 0)
  | 7 => toF32 (scaled sc (decodeE2M1 c))
  | _ => toF32 (scaled sc (decodeMXI4 c))

/-- A vector operand in FP32 bits (R282, R310). -/
def loadVecF (fmt n : Nat) (bs : List Byte) : List Nat :=
  let cs := (codesOf (vecBits fmt) bs).take n
  if vecMx fmt then
    let sc := codesOf 8 (bs.drop (up16 (n / 2)))
    cs.zipIdx.map fun x => loadF fmt (sc.getD (x.2 / 32) 0) x.1
  else cs.map (loadF fmt 0)

/-- A vector operand in INT32 bits. -/
def loadVecI (fmt n : Nat) (bs : List Byte) : List Nat :=
  ((codesOf (vecBits fmt) bs).take n).map fun c => if fmt = 6 then ofInt 32 (toInt 8 c) else c

/-- A float result in OFMT (R278, R279, R309). -/
def storeF (fmt : Nat) (mode : Bool) (w : Nat) : Nat :=
  match fmt with
  | 2 => bf16.encode mode (ofF32 w)
  | 3 => fp16.encode mode (ofF32 w)
  | 4 => e4m3.encode mode (ofF32 w)
  | 5 => e5m2.encode mode (ofF32 w)
  | _ => toF32 (ofF32 w)

/-- The operations of one operand (R283, R284), in FP32 bits. -/
def fun1 (vop x : Nat) : Nat :=
  let v := ofF32 x
  match vop with
  | 5 => toF32 v.sqrt
  | 6 => toF32 (fpOne.div v)
  | 7 => toF32 v.rsqrt
  | 8 => toF32 v.exp
  | 9 => toF32 v.exp2
  | 10 => toF32 v.log
  | 11 => toF32 v.log2
  | 12 => toF32 v.tanh
  | 13 => toF32 v.sigmoid
  | 14 => toF32 v.erf
  | 17 =>
    let t := mulF x 0x3F3504F3
    let u := toF32 (ofF32 t).erf
    mulF (mulF x (addF u 0x3F800000)) 0x3F000000
  | 18 => mulF x (toF32 v.sigmoid)
  | _ => x

/-- The operations of two operands and the old destination (R283), in FP32 bits. -/
def fun2 (vop x y z : Nat) : Nat :=
  match vop with
  | 0 => addF x y
  | 1 => toF32 (fpSum [ofF32 x, (ofF32 y).neg])
  | 2 => mulF x y
  | 3 => toF32 (fpSum [(ofF32 x).mul (ofF32 y), ofF32 z])
  | 4 => toF32 ((ofF32 x).div (ofF32 y))
  | 15 => toF32 ((ofF32 x).max (ofF32 y))
  | _ => toF32 ((ofF32 x).min (ofF32 y))

/-- The integer operations (R309), in INT32 bits. -/
def funI (vop x y : Nat) : Nat :=
  let a := toInt 32 x
  let b := toInt 32 y
  match vop with
  | 24 => ofInt 32 (a + b)
  | 25 => ofInt 32 (a - b)
  | 26 => ofInt 32 (a * b)
  | 27 => ofInt 32 (max a b)
  | _ => ofInt 32 (min a b)

/-- The reductions (R285), in FP32 bits. -/
def funR (vop : Nat) (xs : List Nat) : Nat :=
  match vop with
  | 21 => toF32 (ofF32 (reduce addF 0 xs))
  | 22 => toF32 (ofF32 (reduce (fun a b => toF32 ((ofF32 a).max (ofF32 b))) 0xFF800000 xs))
  | _ => toF32 (ofF32 (reduce (fun a b => toF32 ((ofF32 a).min (ofF32 b))) 0x7F800000 xs))

/-- Blocks of 32 of a list. -/
def blocks32 : Nat → List Nat → List (List Nat)
  | 0, _ => []
  | n + 1, xs => xs.take 32 :: blocks32 n (xs.drop 32)

/-- QMX of a whole vector: the packed elements, then the scales (R281, R310). -/
def qmxBytes (mxi4 : Bool) (n : Nat) (xs : List Nat) : List Byte :=
  let bl := (blocks32 (n / 32) xs).map fun b => qmx mxi4 (b.map ofF32)
  let el := bytesOf 4 (bl.flatMap (·.2))
  el ++ List.replicate (up16 (n / 2) - n / 2) 0 ++ bytesOf 8 (bl.map (·.1))

/-- CVT of one element from its code (R309). -/
def cvt (d : Desc) (sc c : Nat) : Nat :=
  if d.ifmt = 6 then (if d.ofmt = 1 then ofInt 32 (toInt 8 c) else loadF 6 0 c)
  else if d.ifmt = 1 then (if d.ofmt = 6 then i32ToI8 c (d.w2 % 32) else i32ToF32 c)
  else storeF d.ofmt d.vecMode (loadF d.ifmt sc c)

/-- The second operand: the immediate for every element, or a vector (R309). -/
def vecSrc1 (d : Desc) (load : List Byte → List Nat) (b1 : List Byte) : List Nat :=
  if d.imm then List.replicate d.len d.w2 else load b1

/-- The bytes that a VEC writes at DST, from the bytes at SRC0, SRC1 and DST. -/
def vecResult (d : Desc) (b0 b1 old : List Byte) : List Byte :=
  if d.vop = 19 then
    let cs := (codesOf (vecBits d.ifmt) b0).take d.len
    let sc := codesOf 8 (b0.drop (up16 (d.len / 2)))
    bytesOf (vecBits d.ofmt) (cs.zipIdx.map fun x => cvt d (if vecMx d.ifmt then sc.getD (x.2 / 32) 0 else 0) x.1)
  else if d.vop = 20 then qmxBytes (d.ofmt == 8) d.len (loadVecF d.ifmt d.len b0)
  else if 24 ≤ d.vop then
    let xs := loadVecI d.ifmt d.len b0
    let ys := vecSrc1 d (loadVecI d.ifmt d.len) b1
    bytesOf 32 ((xs.zip ys).map fun x => funI d.vop x.1 x.2)
  else
    let xs := loadVecF d.ifmt d.len b0
    let rs :=
      if reduces d.vop then [funR d.vop xs]
      else if twoOperands d.vop then
        let ys := vecSrc1 d (loadVecF d.ifmt d.len) b1
        let zs := if d.vop = 3 then loadVecF d.ofmt d.len old else List.replicate d.len 0
        ((xs.zip ys).zip zs).map fun x => fun2 d.vop x.1.1 x.1.2 x.2
      else xs.map (fun1 d.vop)
    bytesOf (vecBits d.ofmt) (rs.map (storeF d.ofmt d.vecMode))

/-- Class-4 and class-5 events of one element (R283, R284, R310). -/
def vecEvents (vop : Nat) : Nat × Nat :=
  if 5 ≤ vop ∧ vop ≤ 14 then (0, 1)
  else if vop = 17 then (4, 1)
  else if vop = 18 then (1, 1)
  else (1, 0)

end Sys2Proof.Machine
end

