-- ==== Sys2Proof/Machine/Stream.lean ====
section
/-! DEFINITION. Chapter 11: the sequencer. It fetches and decodes descriptors, issues them to the units, and runs the
control operations (R294–R301, R312–R316, R321–R333). -/

namespace Sys2Proof.Machine

/-! ### Fetch and the program counter -/

def seqPc (s : State) (g : Nat) : Nat := rget s (seqPage g) Reg.sequencer.PC

/-- The byte of descriptor `pc` of core `g`'s stream (R294). -/
def descByte (s : State) (g pc : Nat) : Nat := 16 * (rget s (seqPage g) Reg.sequencer.STREAM_BASE + pc)

/-- The descriptor at `pc`, and whether one of its words is poisoned (R288, R294). -/
def fetchDesc (s : State) (g pc : Nat) : Desc × Bool :=
  let x := coreRead s g (descByte s g pc) 16
  let w := leWords x.1 4
  ({ w0 := w.getD 0 0, w1 := w.getD 1 0, w2 := w.getD 2 0, w3 := w.getD 3 0 }, !x.2.isEmpty)

/-- Loops after the descriptor before `pc`: the next pc and the loops that stay active (R314). -/
def loopAdvance (pc : Nat) : List LoopLvl → Nat × List LoopLvl
  | [] => (pc, [])
  | l :: ls =>
    if pc = l.last + 1 then
      if l.i + 1 < l.n then (l.start, { l with i := l.i + 1 } :: ls) else loopAdvance pc ls
    else (pc, l :: ls)

/-- The sequencer passes the descriptor at the pc (R314). -/
def seqAdvance (g : Nat) (s : State) : State :=
  let r := coreRun s g
  let x := loopAdvance (seqPc s g + 1) r.loops
  setRun g { r with loops := x.2 } (rset (seqPage g) Reg.sequencer.PC x.1 s)

/-- A descriptor error: STATE, ERR_CODE, ERR_PC, the DESC_ERR source, and the fault of the job (R40, R301). -/
def seqError (g pc code : Nat) (s : State) : State :=
  let p := seqPage g
  let s := rset p Reg.sequencer.ERR_PC pc (rset p Reg.sequencer.ERR_CODE code (setSeq g 5 s))
  faultCore g 1 code (irqPulse p 10 s)

/-- The sequencer of core `g` decodes: it runs, on a powered die, in a quadrant whose clocks run (R201), and its core
page takes new work (R60). -/
def seqDecodes (s : State) (g : Nat) : Bool :=
  seqState s g == 1 && diePowered s (g / 16) && !inRetention s g && !(hget s (corePage .core g)).quiesce

/-- The stepped descriptor at the pc, or the code of its error. -/
def decodeAt (s : State) (g : Nat) : Except Nat Desc :=
  let pc := seqPc s g
  if coreSize < descByte s g pc + 16 then .error Err.range
  else
    let f := fetchDesc s g pc
    if f.2 then .error Err.poison
    else
      let r := coreRun s g
      match descErr s g r pc f.1 with
      | 0 =>
        match stepped r f.1 with
        | some d => .ok d
        | none => .error Err.range
      | c => .error c

/-- Every unit that DEP names has completed what was issued to it (R296). -/
def depMet (r : CoreRun) (d : Desc) : Bool :=
  (!bitAt d.dep 0 || r.mma.isEmpty) && (!bitAt d.dep 1 || r.vec.isEmpty) && (!bitAt d.dep 2 || r.dma0.isEmpty)
    && (!bitAt d.dep 3 || r.dma1.isEmpty)

/-- The counts of a fetch (R288). -/
def fetchCounts (g : Nat) (s : State) : State := coreReadCounts g (descByte s g (seqPc s g)) 16 s

/-- An operation enters its unit's queue, where there is room: MMA and VEC 8, DMA 4 for each engine. -/
def enqueueOp (d : Desc) (pc : Nat) (r : CoreRun) : Option CoreRun :=
  let q : QOp := { pc := pc, d := d }
  match d.op with
  | 0 => if r.mma.length < 8 then some { r with mma := r.mma ++ [q] } else none
  | 1 => if r.vec.length < 8 then some { r with vec := r.vec ++ [q] } else none
  | 2 =>
    if d.eng = 0 then (if r.dma0.length < 4 then some { r with dma0 := r.dma0 ++ [q] } else none)
    else if r.dma1.length < 4 then some { r with dma1 := r.dma1 ++ [q] } else none
  | _ => none

/-- An MMA or DMA for arrays or engines whose page takes no new work (R60). -/
def unitQuiet (s : State) (g : Nat) (d : Desc) : Bool :=
  (d.op == 0 && (hget s (pageOf .arrayGroup (g % 16 / 4) (g / 16))).quiesce) || (d.op == 2 && (hget s (corePage .dma g)).quiesce)

/-- What DESCRIPTOR_ISSUE does on core `g`: a descriptor error at the pc, or an MMA, VEC or DMA into its queue. -/
def issueAt (g : Nat) (s : State) : State :=
  if seqDecodes s g then
    match decodeAt s g with
    | .error c => seqError g (seqPc s g) c (fetchCounts g s)
    | .ok d =>
      if depMet (coreRun s g) d && !unitQuiet s g d then
        match enqueueOp d (seqPc s g) (coreRun s g) with
        | some r => seqAdvance g (setRun g r (fetchCounts g s))
        | none => s
      else s
  else s

/-- DESCRIPTOR_ISSUE (R295, R296, R298, R300, R301, R306, R309, R311, R315). -/
def execDescriptorIssue (core : Fin 192) (s : State) : Host.Outcome State Fault Refusal := .next (issueAt core.val s)

/-- The queue of a unit. -/
def unitQueue (r : CoreRun) : SeqUnit → List QOp
  | .mma => r.mma
  | .vec => r.vec
  | .dma0 => r.dma0
  | .dma1 => r.dma1

def setUnitQueue (r : CoreRun) (u : SeqUnit) (q : List QOp) : CoreRun :=
  match u with
  | .mma => { r with mma := q }
  | .vec => { r with vec := q }
  | .dma0 => { r with dma0 := q }
  | .dma1 => { r with dma1 := q }

/-- DESCRIPTOR_COMPLETE (R297, R316): the oldest descriptor of a unit, executed and acknowledged, leaves its queue. -/
def execDescriptorComplete (core : Fin 192) (u : SeqUnit) (s : State) : Host.Outcome State Fault Refusal :=
  .next (let g := core.val
    match unitQueue (coreRun s g) u with
    | q :: qs => if q.done && q.tag.isNone then retire g (setRun g (setUnitQueue (coreRun s g) u qs) s) else s
    | [] => s)

/-! ### Control operations -/

/-- A control operation `op` at the pc of core `g`, valid and with its DEP met. -/
def controlAt (s : State) (g op : Nat) : Option Desc :=
  if seqDecodes s g then
    match decodeAt s g with
    | .ok d => if d.op = op && depMet (coreRun s g) d then some d else none
    | .error _ => none
  else none

/-- WAIT (R312, R322–R324, R330): after every earlier SIGNAL of the core. It passes, or the core waits at its bank. -/
def waitAt (g : Nat) (d : Desc) (s : State) : State :=
  match jobOf s g with
  | none => s
  | some (_, x, _) =>
    match localObj x d.obj with
    | none => s
    | some n =>
      if (coreRun s g).sigs.isEmpty then
        let s := seqAdvance g (rset (seqPage g) Reg.sequencer.WAIT_OBJ d.obj (fetchCounts g s))
        if waitHolds (objGet s n) d.w2 then retire g s
        else setSeq g 2 { s with sy := { s.sy with waiters := s.sy.waiters ++ [{ core := g, obj := n, value := d.w2 }] } }
      else s

/-- WAIT. -/
def execWait (core : Fin 192) (s : State) : Host.Outcome State Fault Refusal :=
  .next (match controlAt s core.val 3 with
    | some d => waitAt core.val d s
    | none => s)

/-- A SIGNAL frame of core `g` leaves for device `p` (R327, R405, R411). -/
def sendSignal (g j p : Nat) (x : Sig) (tag : Nat) (s : State) : State :=
  match corePort s j p g with
  | none => s
  | some n =>
    let s := countLegs (coreTag s g) (writeLegs (g / 16) (neriusDie n) 1) s
    sendTo j p n { groupHdr s j p .signal with
      tag := BitVec.ofNat 16 tag, obj := BitVec.ofNat 16 x.obj, act := x.set, value := BitVec.ofNat 32 x.value } [] s

/-- The outstanding SIGNALs of core `g` are performed in order: local ones at once, a remote one when its SACK has
returned (R330, R333). -/
def pumpSigs : Nat → Nat → State → State
  | 0, _, s => s
  | f + 1, g, s =>
    let r := coreRun s g
    match r.sigs with
    | [] => s
    | x :: xs =>
      match x.dev with
      | none =>
        let s := if objDie x.obj ≤ 11 then countLegs (coreTag s g) (writeLegs (g / 16) (objDie x.obj) 1) s else s
        pumpSigs f g (retire g (objSignal x.obj x.set x.value (setRun g { r with sigs := xs } s)))
      | some p =>
        if x.tag.isSome then s
        else
          match slotOfCore s g with
          | none => s
          | some j =>
            let t := s.ner.nextTag % 65536
            let s := setRun g { r with sigs := { x with tag := some t } :: xs } { s with ner := { s.ner with nextTag := (t + 1) % 65536 } }
            sendSignal g j p x t s

/-- A SIGNAL whose port takes no new work (R60). -/
def sigHeld (s : State) (g j : Nat) (v : Sig) : Bool :=
  match v.dev with
  | some p => portQuiet s j p g
  | none => false

/-- A SIGNAL issues where fewer than 8 of the core's are outstanding (R312, R330). -/
def signalAt (g : Nat) (d : Desc) (s : State) : State :=
  match jobOf s g with
  | none => s
  | some (j, x, _) =>
    if (coreRun s g).sigs.length < 8 then
      let sig : Option Sig := match localObj x d.obj with
        | some n => some { dev := none, obj := n, set := d.act, value := d.w2 }
        | none => (remoteObj x d.obj).map fun r => { dev := some r.1, obj := r.2, set := d.act, value := d.w2 }
      match sig with
      | none => s
      | some v =>
        if sigHeld s g j v then s
        else
          let s := countCore g 14 1 (seqAdvance g (fetchCounts g s))
          let r := coreRun s g
          pumpSigs 9 g (setRun g { r with sigs := r.sigs ++ [v] } s)
    else s

/-- SIGNAL, ACT = 0 (R321). -/
def execSignalAdd (core : Fin 192) (s : State) : Host.Outcome State Fault Refusal :=
  .next (match controlAt s core.val 4 with
    | some d => if d.act then s else signalAt core.val d s
    | none => s)

/-- SIGNAL, ACT = 1 (R321). -/
def execSignalSet (core : Fin 192) (s : State) : Host.Outcome State Fault Refusal :=
  .next (match controlAt s core.val 4 with
    | some d => if d.act then signalAt core.val d s else s
    | none => s)

/-- LOOP (R314). -/
def execLoop (core : Fin 192) (s : State) : Host.Outcome State Fault Refusal :=
  .next (let g := core.val
    match controlAt s g 5 with
    | some d =>
      let pc := seqPc s g
      let s := fetchCounts g s
      let r := coreRun s g
      let s := setRun g { r with loops := { start := pc + 1, last := pc + d.body, i := 0, n := d.cnt + 1 } :: r.loops } s
      retire g (rset (seqPage g) Reg.sequencer.PC (pc + 1) s)
    | none => s)

/-- MARK (R313). -/
def execMark (core : Fin 192) (s : State) : Host.Outcome State Fault Refusal :=
  .next (let g := core.val
    match controlAt s g 6 with
    | some d =>
      let s := rset (seqPage g) Reg.sequencer.MARK_VAL d.w1 (retire g (seqAdvance g (fetchCounts g s)))
      let s := if bitAt d.w0 8 then irqPulse (seqPage g) 8 s else s
      match slotOfCore s g with
      | some j =>
        let s := slotSet j { slotGet s j with lastMark := d.w1 } s
        if bitAt d.w0 8 then irqPulse (slotPage j) 10 s else s
      | none => if bitAt d.w0 9 then siteKick g d.w1 s else s
    | none => s)

/-- Every unit has completed and no SIGNAL is outstanding. -/
def unitsIdle (r : CoreRun) : Bool :=
  r.mma.isEmpty && r.vec.isEmpty && r.dma0.isEmpty && r.dma1.isEmpty && r.sigs.isEmpty

/-- END (R313). -/
def execEndOp (core : Fin 192) (s : State) : Host.Outcome State Fault Refusal :=
  .next (let g := core.val
    match controlAt s g 7 with
    | some _ =>
      if unitsIdle (coreRun s g) then
        let s := retire g (seqAdvance g (fetchCounts g s))
        let s := irqPulse (seqPage g) 9 (setSeq g 4 { s with co := { s.co with run := s.co.run.filter (·.1 ≠ g) } })
        if (slotOfCore s g).isSome then reportEnd g s else siteEnd g s
      else s
    | none => s)

end Sys2Proof.Machine
end

