-- ==== Sys2Proof/Machine/Units.lean ====
section
/-! DEFINITION. Chapters 10 and 11: what the MAC arrays, the vector unit and the DMA engines do with the oldest
descriptor in their queues (R268–R288, R302–R311). -/

namespace Sys2Proof.Machine

/-- The oldest queued operation of a unit that has not run. -/
def nextOp (r : CoreRun) (u : SeqUnit) : Option QOp := (unitQueue r u).find? fun q => !q.done

/-- The operation at place `i` of its queue has run; `tag` is the transfer whose WACK it still needs. -/
def markDoneAt (g : Nat) (u : SeqUnit) (i : Nat) (tag : Option Nat) (s : State) : State :=
  let r := coreRun s g
  setRun g (setUnitQueue r u ((unitQueue r u).zipIdx.map fun x => if x.2 = i then { x.1 with done := true, tag := tag } else x.1)) s

/-- The oldest operation that had not run has. -/
def markDone (g : Nat) (u : SeqUnit) (tag : Option Nat) (s : State) : State :=
  markDoneAt g u ((unitQueue (coreRun s g) u).findIdx fun x => !x.done) tag s

/-- The duty, in sixteenths of an epoch, that holds a draw of `e` mA-in at the grant of page `p` (R202). -/
def grantDuty (s : State) (p : Page) (e : Nat) : Nat :=
  if e ≤ (hget s p).grant then 16 else 16 * (hget s p).grant / e

/-- The duty of core `g`'s VEC and DMA issue: its modelled draw is its cost at the present setting and code (R202, R291). -/
def coreDuty (s : State) (g : Nat) : Nat :=
  grantDuty s (corePage .core g) (atV48 s (coreCost (nNow s g) (codeOf s (g / 16) (g % 16 / 4))))

/-- The duty of core `g`'s engines at the grant of their own page (R202). -/
def dmaDuty (s : State) (g : Nat) : Nat := grantDuty s (corePage .dma g) (atV48 s (hget s (corePage .dma g)).allotReq)

/-- The Weir holds a VEC or DMA unit of core `g`: its quadrant is in retention, or the gate is shut in this Weir cycle: by the tier-3
duty (R200, R201), by a grant of the core below its cost (R291), or for a DMA engine by its page's grant (R202). DESIGN CHOICE (log
entry 112): a gate at a duty of n sixteenths is open in the first n Weir cycles of each epoch. -/
def unitHeld (s : State) (g : Nat) (dma : Bool) : Bool :=
  inRetention s g || decide ((if siteReserved s g then 16 else s.we.duty) ≤ weirCycle s) || decide (coreDuty s g ≤ weirCycle s)
    || (dma && decide (dmaDuty s g ≤ weirCycle s))

/-- Core SRAM that a unit reads: the bytes, and whether a word is poisoned. -/
def unitRead (s : State) (g u n : Nat) : List Byte × Bool :=
  let x := coreRead s g (16 * u) n
  (x.1, !x.2.isEmpty)

/-! ### MMA -/

/-- Issue cycles of one array (R269, R307). -/
def issueCycles (fmt k : Nat) : Nat := if mmaBits fmt = 16 then 2 * k else if mmaBits fmt = 4 then k / 2 else k

/-- The accumulators that tile `t` starts from (R274, R305). -/
def tileInit (s : State) (g : Nat) (d : Desc) (t : Nat) : List Nat :=
  match d.init with
  | 1 => codesOf 32 (unitRead s g (d.cAddr + 16 * t) 256).1
  | 2 =>
    match (coreRun s g).held.find? fun h => h.array == d.arrBase + t with
    | some h => h.words
    | none => List.replicate 64 0
  | _ => List.replicate 64 0

/-- The words of every tile of an MMA, tile i·TN + j (R304). -/
def mmaTiles (s : State) (g : Nat) (d : Desc) : List (List Nat) :=
  let sa := bandSize d.fmtA d.k
  let sb := bandSize d.fmtB d.k
  (List.range d.arrays).map fun t =>
    let a := (coreRead s g (16 * d.aAddr + t / d.tileCols * sa) sa).1
    let b := (coreRead s g (16 * d.bAddr + t % d.tileCols * sb) sb).1
    tile d.fmtA d.fmtB (bandOf d.fmtA d.k a) (bandOf d.fmtB d.k b) (tileInit s g d t)

/-- What an MMA reads, as (16 B unit, bytes). -/
def mmaReads (d : Desc) : List (Nat × Nat) :=
  [(d.aAddr, d.tileRows * bandSize d.fmtA d.k), (d.bAddr, d.tileCols * bandSize d.fmtB d.k)]
    ++ (if d.init = 1 then [(d.cAddr, 256 * d.arrays)] else [])

/-- The counts of what a unit reads, and whether a word is poisoned (R288). -/
def unitReads (g : Nat) (rs : List (Nat × Nat)) (s : State) : State :=
  rs.foldl (fun s x => coreReadCounts g (16 * x.1) x.2 s) s

def unitPoisoned (s : State) (g : Nat) (rs : List (Nat × Nat)) : Bool := rs.any fun x => (unitRead s g x.1 x.2).2

/-- The events of an MMA (R268, R307). -/
def mmaEvents (g : Nat) (d : Desc) (s : State) : State :=
  countCore g 3 (d.arrays * ((d.init == 1).toNat + d.drain.toNat))
    (countCore g (mmaClass d.fmtA) (d.arrays * issueCycles d.fmtA d.k) s)

/-- An MMA runs: its tiles are drained to C or held in its arrays (R304, R305). -/
def mmaRun (g : Nat) (d : Desc) (s : State) : State :=
  let ts := mmaTiles s g d
  let s := mmaEvents g d s
  let r := coreRun s g
  let rest := r.held.filter fun h => !(decide (d.arrBase ≤ h.array ∧ h.array < d.arrBase + d.arrays))
  if d.drain then
    let s := setRun g { r with held := rest } s
    coreWrite g (16 * d.cAddr) (ts.flatMap fun t => bytesOf (8 * drainBytes d.dfmt) (t.map (drainCode d.dfmt d.mmaMode d.shift))) [] s
  else
    setRun g { r with held := rest ++ ts.zipIdx.map fun x => { array := d.arrBase + x.2, int := mmaInt d.fmtA, words := x.1 } } s

/-- Every array of an MMA holds a credit of the present epoch in its format: load, issue and drain cycles need one (R192, R202,
R307). -/
def arraysCredited (s : State) (g : Nat) (d : Desc) : Bool :=
  d.arrayList.all fun a => s.we.credits.any fun c =>
    c.core == g && c.array == a && c.fmt == mmaClass d.fmtA
      && decide (c.first ≤ s.ck.dt / 64 ∧ s.ck.dt / 64 ≤ c.last)

/-- The first of the queued MMAs `qs` that can run, by its place from `i` on: its arrays hold credits, and none is named by an older
one that has not run, whose arrays are `busy` (R298). -/
def mmaReady (s : State) (g : Nat) : List QOp → Nat → List Nat → Option (Nat × QOp)
  | [], _, _ => none
  | q :: qs, i, busy =>
    if q.done then mmaReady s g qs (i + 1) busy
    else if !arraysCredited s g q.d || q.d.arrayList.any busy.contains then mmaReady s g qs (i + 1) (busy ++ q.d.arrayList)
    else some (i, q)

/-- MMA: the first MMA in the queue whose arrays are free and hold credits runs whole (R192, R298), where the core has a grant (R202) and
the clocks run (R201); a poisoned operand faults the job (R288). -/
def execMma (core : Fin 192) (s : State) : Host.Outcome State Fault Refusal :=
  .next (let g := core.val
    match mmaReady s g (coreRun s g).mma 0 [] with
    | some (i, q) =>
      if inRetention s g || coreStalled s g then s
      else
        let bad := unitPoisoned s g (mmaReads q.d)
        let s := unitReads g (mmaReads q.d) s
        if bad then faultCore g 2 0 s else markDoneAt g .mma i none (mmaRun g q.d s)
    | none => s)

/-! ### VEC -/

/-- What a VEC reads. -/
def vecReads (d : Desc) : List (Nat × Nat) :=
  [(d.src0, vecBytes d.ifmt d.len)] ++ (if twoOperands d.vop && !d.imm then [(d.src1, vecBytes d.ifmt d.len)] else [])
    ++ (if d.vop = 3 then [(d.dst, vecBytes d.ofmt d.len)] else [])

/-- A VEC runs. -/
def vecRun (g : Nat) (d : Desc) (s : State) : State :=
  let b0 := (unitRead s g d.src0 (vecBytes d.ifmt d.len)).1
  let b1 := if twoOperands d.vop && !d.imm then (unitRead s g d.src1 (vecBytes d.ifmt d.len)).1 else []
  let old := if d.vop = 3 then (unitRead s g d.dst (vecBytes d.ofmt d.len)).1 else []
  let ev := vecEvents d.vop
  let s := countCore g 5 (ev.2 * d.len) (countCore g 4 (ev.1 * d.len) s)
  coreWrite g (16 * d.dst) (vecResult d b0 b1 old) [] s

/-- The vector unit of core `g` runs its oldest descriptor, if that is operation `vop` and the core holds a grant
(R202) and the Weir does not hold its units. -/
def vecUnit (vop g : Nat) (s : State) : State :=
  match nextOp (coreRun s g) .vec with
  | some q =>
    if q.d.vop = vop && !coreStalled s g && !unitHeld s g false then
      let bad := unitPoisoned s g (vecReads q.d)
      let s := unitReads g (vecReads q.d) s
      if bad then faultCore g 2 0 s else markDone g .vec none (vecRun g q.d s)
    else s
  | none => s

/-- ADD (R283, R309). -/
def execVadd (core : Fin 192) (s : State) : Host.Outcome State Fault Refusal := .next (vecUnit 0 core.val s)
/-- SUB. -/
def execVsub (core : Fin 192) (s : State) : Host.Outcome State Fault Refusal := .next (vecUnit 1 core.val s)
/-- MUL. -/
def execVmul (core : Fin 192) (s : State) : Host.Outcome State Fault Refusal := .next (vecUnit 2 core.val s)
/-- FMA: one rounding; the addend is the old DST value. -/
def execVfma (core : Fin 192) (s : State) : Host.Outcome State Fault Refusal := .next (vecUnit 3 core.val s)
/-- DIV. -/
def execVdiv (core : Fin 192) (s : State) : Host.Outcome State Fault Refusal := .next (vecUnit 4 core.val s)
/-- SQRT. -/
def execVsqrt (core : Fin 192) (s : State) : Host.Outcome State Fault Refusal := .next (vecUnit 5 core.val s)
/-- RCP. -/
def execVrcp (core : Fin 192) (s : State) : Host.Outcome State Fault Refusal := .next (vecUnit 6 core.val s)
/-- RSQRT. -/
def execVrsqrt (core : Fin 192) (s : State) : Host.Outcome State Fault Refusal := .next (vecUnit 7 core.val s)
/-- EXP. -/
def execVexp (core : Fin 192) (s : State) : Host.Outcome State Fault Refusal := .next (vecUnit 8 core.val s)
/-- EXP2. -/
def execVexp2 (core : Fin 192) (s : State) : Host.Outcome State Fault Refusal := .next (vecUnit 9 core.val s)
/-- LOG. -/
def execVlog (core : Fin 192) (s : State) : Host.Outcome State Fault Refusal := .next (vecUnit 10 core.val s)
/-- LOG2. -/
def execVlog2 (core : Fin 192) (s : State) : Host.Outcome State Fault Refusal := .next (vecUnit 11 core.val s)
/-- TANH. -/
def execVtanh (core : Fin 192) (s : State) : Host.Outcome State Fault Refusal := .next (vecUnit 12 core.val s)
/-- SIGMOID. -/
def execVsigmoid (core : Fin 192) (s : State) : Host.Outcome State Fault Refusal := .next (vecUnit 13 core.val s)
/-- ERF. -/
def execVerf (core : Fin 192) (s : State) : Host.Outcome State Fault Refusal := .next (vecUnit 14 core.val s)
/-- MAX. -/
def execVmax (core : Fin 192) (s : State) : Host.Outcome State Fault Refusal := .next (vecUnit 15 core.val s)
/-- MIN. -/
def execVmin (core : Fin 192) (s : State) : Host.Outcome State Fault Refusal := .next (vecUnit 16 core.val s)
/-- GELU (R284). -/
def execVgelu (core : Fin 192) (s : State) : Host.Outcome State Fault Refusal := .next (vecUnit 17 core.val s)
/-- SILU (R284). -/
def execVsilu (core : Fin 192) (s : State) : Host.Outcome State Fault Refusal := .next (vecUnit 18 core.val s)
/-- CVT (R278–R280, R309). -/
def execVcvt (core : Fin 192) (s : State) : Host.Outcome State Fault Refusal := .next (vecUnit 19 core.val s)
/-- QMX (R281). -/
def execVqmx (core : Fin 192) (s : State) : Host.Outcome State Fault Refusal := .next (vecUnit 20 core.val s)
/-- RSUM (R285). -/
def execVrsum (core : Fin 192) (s : State) : Host.Outcome State Fault Refusal := .next (vecUnit 21 core.val s)
/-- RMAX (R285). -/
def execVrmax (core : Fin 192) (s : State) : Host.Outcome State Fault Refusal := .next (vecUnit 22 core.val s)
/-- RMIN (R285). -/
def execVrmin (core : Fin 192) (s : State) : Host.Outcome State Fault Refusal := .next (vecUnit 23 core.val s)
/-- IADD. -/
def execViadd (core : Fin 192) (s : State) : Host.Outcome State Fault Refusal := .next (vecUnit 24 core.val s)
/-- ISUB. -/
def execVisub (core : Fin 192) (s : State) : Host.Outcome State Fault Refusal := .next (vecUnit 25 core.val s)
/-- IMUL. -/
def execVimul (core : Fin 192) (s : State) : Host.Outcome State Fault Refusal := .next (vecUnit 26 core.val s)
/-- IMAX. -/
def execVimax (core : Fin 192) (s : State) : Host.Outcome State Fault Refusal := .next (vecUnit 27 core.val s)
/-- IMIN. -/
def execVimin (core : Fin 192) (s : State) : Host.Outcome State Fault Refusal := .next (vecUnit 28 core.val s)

/-! ### DMA -/

/-- What a DMA reads: the bytes, the poisoned 8-byte blocks by offset from its start, and whether stacked memory gave
poison (R288, R395). -/
def dmaSource (s : State) (g : Nat) (d : Desc) : List Byte × List Nat × Bool :=
  let n := 16 * d.dmaLen
  let a := dmaByte d.ssp d.w1
  match d.ssp, jobOf s g with
  | 0, _ => let x := coreRead s g a n; (x.1, x.2.map (· - a / 8), false)
  | 1, some (_, x, im) =>
    match jobDieAt x im d.sdie a n with
    | some (p, o) => let y := dieRead s p o n; (y.1, y.2.map (· - o / 8), false)
    | none => ([], [], false)
  | 2, some (_, x, im) =>
    match jobPieces x im (fun _ => true) a n with
    | some ps =>
      let ys := ps.map fun c => stackRead s c.1 c.2
      (ys.flatMap (·.1), [], ys.any fun y => !y.2.isEmpty)
    | none => ([], [], false)
  | _, _ => ([], [], false)

/-- The counts of what a DMA reads: errors (R288, R395) and events (R188, R311). -/
def dmaReadCounts (g : Nat) (d : Desc) (s : State) : State :=
  let n := 16 * d.dmaLen
  let a := dmaByte d.ssp d.w1
  let r := coreReq s g
  match d.ssp, jobOf s g with
  | 0, _ => countCoreMem r false g a n (coreReadCounts g a n s)
  | 1, some (_, x, im) =>
    match jobDieAt x im d.sdie a n with
    | some (p, o) => countDie r false p o n (dieReadCounts p o n s)
    | none => s
  | 2, some (_, x, im) =>
    match jobPieces x im (fun _ => true) a n with
    | some ps => ps.foldl (fun s c => countStack (fun _ => r) false c.1 c.2 (stackReadCounts c.1 c.2 s)) s
    | none => s
  | _, _ => s

/-- Stacked bytes written piece by piece; `poison` are poisoned 8-byte blocks of the data (R393, R395). -/
def writePieces : List (Nat × Nat) → Nat → List Byte → List Nat → State → State
  | [], _, _, _, s => s
  | (a, m) :: ps, off, bs, poison, s =>
    let sectors := (poison.filter fun b => decide (off ≤ 8 * b ∧ 8 * b < off + m)).map fun b => (a + (8 * b - off)) / 32
    writePieces ps (off + m) (bs.drop m) poison (stackWrite a (bs.take m) sectors.eraseDups s)

/-- The events of stacked writes, piece by piece. -/
def countPieces (r : Nat → Requester) (ps : List (Nat × Nat)) (s : State) : State := ps.foldl (fun s c => countStack r true c.1 c.2 s) s

/-- The data of a DMA at its destination on this device, with the events it counts there (R188, R311). -/
def dmaLocal (g : Nat) (d : Desc) (bs : List Byte) (poison : List Nat) (s : State) : State :=
  let n := bs.length
  let a := dmaByte d.dsp d.w2
  let r := coreReq s g
  match d.dsp, jobOf s g with
  | 0, _ => countCoreMem r true g a n (coreWrite g a bs (poison.map (· + a / 8)) s)
  | 1, some (_, x, im) =>
    match jobDieAt x im d.ddie a n with
    | some (p, o) => countDie r true p o n (dieWrite p o bs (poison.map (· + o / 8)) s)
    | none => s
  | 2, some (_, x, im) =>
    match jobPieces x im writable a n with
    | some ps => countPieces (fun _ => r) ps (writePieces ps 0 bs poison s)
    | none => s
  | _, _ => s

/-- WRITE frames of at most 8,192 bytes, cut at 2 MiB edges of the destination, LAST on the final one (R412). -/
def peerFrames (a : Nat) (bs : List Byte) : List (Nat × List Byte × Bool) :=
  let cs := (granuleCuts a bs.length).flatMap fun c =>
    (List.range ((c.2 + 8191) / 8192)).map fun i => (c.1 + 8192 * i, min 8192 (c.2 - 8192 * i))
  cs.zipIdx.map fun x => (x.1.1, (bs.drop (x.1.1 - a)).take x.1.2, x.2 + 1 == cs.length)

/-- The frames of a peer transfer leave under `tag`, after the way to their port's die. -/
def dmaPeer (g : Nat) (d : Desc) (bs : List Byte) (tag : Nat) (s : State) : State :=
  match slotOfCore s g with
  | none => s
  | some j =>
    match corePort s j d.peer g with
    | none => s
    | some port =>
      let s := countLegs (coreTag s g) (writeLegs (g / 16) (neriusDie port) bs.length) s
      (peerFrames (dmaByte d.dsp d.w2) bs).foldl (fun s f =>
        sendTo j d.peer port { groupHdr s j d.peer .write with
          space := if d.dsp = 4 then 1 else 0, die := BitVec.ofNat 4 (if d.dsp = 3 then d.ddie else 0), last := f.2.2
          tag := BitVec.ofNat 16 tag, address := BitVec.ofNat 64 f.1 } f.2.1 s) s

/-- A DMA runs: the data moves, poison of SRAM with it; stack poison faults the job, as does poison toward a peer
(R288, R311, R395, R412). -/
def dmaRun (g : Nat) (u : SeqUnit) (d : Desc) (s : State) : State :=
  let x := dmaSource s g d
  let s := dmaReadCounts g d s
  if x.2.2 || (decide (3 ≤ d.dsp) && !x.2.1.isEmpty) then faultCore g 2 0 s
  else
    let n := 16 * d.dmaLen
    let s := rwrap (corePage .dma g) Reg.dma.BYTES n (countCore g 12 ((n + 63) / 64) s)
    if 3 ≤ d.dsp then
      let t := s.ner.nextTag % 65536
      let s := markDone g u (some t) { s with ner := { s.ner with nextTag := (t + 1) % 65536 } }
      dmaPeer g d x.1 t s
    else markDone g u none (dmaLocal g d x.1 x.2.1 s)

/-- A peer transfer whose port takes no new work (R60). -/
def peerHeld (s : State) (g : Nat) (d : Desc) : Bool :=
  decide (3 ≤ d.dsp) && (match slotOfCore s g with
    | some j => portQuiet s j d.peer g
    | none => false)

/-- DMA: engine `eng` runs its oldest descriptor, unless its page's grant is zero (R202), the Weir holds the engine, or the port of a
peer transfer is quiesced. -/
def execDma (core : Fin 192) (eng : Fin 2) (s : State) : Host.Outcome State Fault Refusal :=
  .next (let g := core.val
    let u : SeqUnit := if eng.val = 0 then .dma0 else .dma1
    match nextOp (coreRun s g) u with
    | some q =>
      if (hget s (corePage .dma g)).grant = 0 ∨ unitHeld s g true = true ∨ peerHeld s g q.d = true then s else dmaRun g u q.d s
    | none => s)

end Sys2Proof.Machine
end

