-- ==== Sys2Proof/Machine/Nerius.lean ====
section
/-! DEFINITION. Chapter 14: the scrub, the host region, and what frames, timers and training do on a Nerius port
(R391, R396, R403–R416). -/

namespace Sys2Proof.Machine

/-! ### Stacked memory (R391, R396) -/

/-- PATROL_SCRUB (R396, R399): the controller of `die` reads and corrects the sector at `pma`. -/
def execPatrolScrub (die : Fin 12) (pma : Nat) (s : State) : Host.Outcome State Fault Refusal :=
  .next (let d := die.val
    if transitOn s && decide (pma < allGranules * granuleSize) && ctrlDie pma == d && !draining s (stackPage d)
        && !offline s (stackPage d) then
      let b := pma / 32
      let s := countScrub d 1 s
      let s := if s.hbm.bad.contains b then markGranule (pma / granuleSize) (countUe (32 * b) s) else s
      let s := if s.hbm.soft.contains b then
          countCe (32 * b) { s with hbm := { s.hbm with soft := s.hbm.soft.filter (· ≠ b) } }
        else s
      let n := Assoc.getD s.hbm.scrub d 0 + 1
      let all := stackGranules * granuleSize / 64
      let n := if all < n then 1 else n
      rset (stackPage d) Reg.stackCtrl.SCRUB_PCT (n * 10000 / all)
        { s with hbm := { s.hbm with scrub := Assoc.set s.hbm.scrub d n } }
    else s)

/-- A write to HOST_GRANULES that has reached its page (R391, R397). -/
def hostGranulesTake (n : Nat) (s : State) : State :=
  let p := stackPage 0
  let old := hostBase s
  let new := allGranules - n
  if 18432 < n || (s.jb.slots.any fun x => (heldGranules x.2).any fun g => new ≤ g) then pgErr p Code.badArg s
  else
    let s := rset p Reg.stackCtrl.HOST_GRANULES n s
    if old < new then retireGranules ((s.hbm.marks.map (·.1)).filter fun g => old ≤ g && decide (g < new)) s else s

/-- HOST_GRANULES_WRITE (R391, R399): on die 0's page. -/
def execHostGranulesWrite (c : Client) (v : Word) (s : State) : Host.Outcome State Fault Refusal :=
  .next (inOrder c (stackPage 0) (.write 0x058 v.toNat) (blockWrite c (stackPage 0) 0x058 (hostGranulesTake (v.toNat % 2 ^ 15))) s)

/-! ### Discards at the port (R403, R404) -/

def neriusCount (n : Nat) (f : Fld) (s : State) : State := radd (neriusPage n) f 1 s

/-- The counter of the discard that takes a frame, if one does. -/
def portDiscard (s : State) (n : Nat) (f : NerFrame) : Option Fld :=
  if f.length < 64 then some Reg.nerius.RUNTS
  else if 9600 < f.length then some Reg.nerius.JABBER
  else if !f.fcsOk then some Reg.nerius.FCS_ERR
  else if f.dst.toNat ≠ portMac s n then some Reg.nerius.MAC_MISS
  else if 2 ≤ f.tags ∨ f.etype ≠ 0x88B5 then some Reg.nerius.NOT_NERIUS
  else none

def frameOversize (f : NerFrame) : Bool := decide (9216 < f.length)

/-! ### Replay and link errors (R409, R410) -/

/-- The port's page names a job's peers: the slots whose peer table names port `n`. -/
def namesPort (s : State) (n j : Nat) : Bool :=
  (peersOf (slotGet s j)).any fun p => peerValid s j p && (peerPorts s j p).contains n

/-- The live jobs that name port `n` are faulted with cause 7 (R410). -/
def faultPort (n : Nat) (s : State) (cause : Nat := 7) : State :=
  (List.range 32).foldl (fun s j =>
    if slotLive s j && namesPort s n j then jobFault j cause 0xFF 0 (devIndex (slotGet s j)) s else s) s

/-- A link error of port `n` (R410): ERROR, its sessions closed, its jobs faulted. -/
def linkError (n : Nat) (s : State) : State :=
  let s := portLeaves n 3 (neriusCount n Reg.nerius.LINK_ERRORS s)
  let s := raise 0x2001 (neriusDie n) n 0 0 (irqPulse (neriusPage n) 10 s)
  faultPort n s

/-- A session replays from its first unacknowledged frame; the eighth replay of one frame is a link error (R409, R410). -/
def replay (n mac : Nat) (s : State) : State :=
  match sessGet s n mac with
  | none => s
  | some x =>
    if x.unacked.isEmpty then s
    else
      let us := x.unacked.map fun u => { u with sent := s.ck.dt, replays := u.replays + 1 }
      let s := radd (neriusPage n) Reg.nerius.REPLAYS us.length (sessSet { x with unacked := us } s)
      let s := us.foldl (fun s u => send (.nerius n u.frame) s) s
      if us.any fun u => 8 ≤ u.replays then linkError n s else s

/-! ### Sequence, acknowledgement and credits (R407–R409) -/

/-- Sequence number `a` stands before or at `b`. -/
def seqLe (a b : Nat) : Bool := decide ((b + 2 ^ 32 - a) % 2 ^ 32 < 2 ^ 31)

/-- What a frame acknowledges and returns. -/
def takeAck (x : Session) (h : NerHdr) : Session :=
  { x with
    unacked := x.unacked.filter fun u => !seqLe u.frame.hdr.seq.toNat h.ackSeq.toNat
    credit := addList (addList (addList x.credit 0 h.creditReq.toNat) 1 h.creditRsp.toNat) 2 h.creditCtl.toNat }

/-- The session that a frame belongs to is open; HELLO opens one for a peer that a group slot names (R407). -/
def sessFor (n : Nat) (f : NerFrame) (s : State) : State :=
  let mac := f.src.toNat
  let named := (List.range 32).any fun j => (slotGet s j).st != .empty && (peersOf (slotGet s j)).any fun p =>
    peerValid s j p && (peerPorts s j p).contains n && peerMac s j p == mac
  if f.hdr.op = .hello ∧ named = true ∧ (s.ner.sessions.filter fun x => x.port == n).length < 16 then sessOpen n mac s else s

/-- The frame is the next of its session: it is taken in, and the session with it. A gap gives one NAK, an older frame
nothing (R409). -/
def sessTake (n : Nat) (f : NerFrame) (s : State) : State × Bool :=
  let mac := f.src.toNat
  match sessGet s n mac with
  | none => (s, false)
  | some x =>
    if f.hdr.seq.toNat = x.rx then
      let x := takeAck x f.hdr
      let x := { x with rx := (x.rx + 1) % 2 ^ 32, nakAt := none, owed := addList x.owed (opClass f.hdr.op) (frameCost f)
                        oweFrom := some (x.oweFrom.getD s.ck.dt), hello := x.hello || decide (f.hdr.op = .hello) }
      (nerPump 64 n mac (sessSet x s), true)
    else if seqLe f.hdr.seq.toNat x.rx ∨ x.nakAt = some x.rx then (s, false)
    else (nerSend n mac (nerFrame s n mac (nerHdr .nak) []) (sessSet { x with nakAt := some x.rx } s), false)

/-! ### Which slot a frame is for (R413) -/

/-- GROUP_TAG, DST_DEV and the peer table's entry for SRC_DEV fit slot `j`. -/
def slotFits (s : State) (n : Nat) (f : NerFrame) (j : Nat) : Bool :=
  let x := slotGet s j
  let p := f.hdr.srcDev.toNat
  x.image.isSome && groupTag s j == f.hdr.groupTag.toNat && f.hdr.groupTag != 0 && f.hdr.dstDev.toNat == devIndex x
    && (peersOf x).contains p && peerValid s j p && (peerPorts s j p).contains n && peerMac s j p == f.src.toNat

/-- The live slot of a frame. -/
def liveSlot (s : State) (n : Nat) (f : NerFrame) : Option Nat :=
  (List.range 32).find? fun j => slotLive s j && slotFits s n f j

/-- The slot of a control frame: a live one before another. -/
def anySlot (s : State) (n : Nat) (f : NerFrame) : Option Nat :=
  match liveSlot s n f with
  | some j => some j
  | none => (List.range 32).find? fun j => slotFits s n f j

/-- The frame's run is the slot's. -/
def sameRun (s : State) (f : NerFrame) (j : Nat) : Bool := f.hdr.run.toNat == (slotGet s j).run

/-- A live slot of the same run; a stale frame is counted (R413). -/
def runSlot (n : Nat) (f : NerFrame) (s : State) : Option Nat × State :=
  match liveSlot s n f with
  | none => (none, s)
  | some j => if sameRun s f j then (some j, s) else (none, neriusCount n Reg.nerius.STALE s)

/-! ### What each operation does (R406, R412–R414) -/

/-- The answer to a request goes back on its session with its TAG. -/
def answer (n j : Nat) (f : NerFrame) (op : NerOp) (s : State) : State :=
  sendTo j f.hdr.srcDev.toNat n { groupHdr s j f.hdr.srcDev.toNat op with tag := f.hdr.tag } [] s

/-- A peer WRITE that arrived at port `n` to job `j`'s memory, its events under the slot's tag (R214); none where its range leaves what
a peer may write (R413). -/
def peerWrite (n j : Nat) (f : NerFrame) (s : State) : Option State :=
  let x := slotGet s j
  let r := frameReq n j
  let a := f.hdr.address.toNat
  match x.image with
  | none => none
  | some im =>
    if f.hdr.space = 0 then
      (jobDieAt x im f.hdr.die.toNat a f.payload.length).map fun p =>
        countDie r true p.1 p.2 f.payload.length (dieWrite p.1 p.2 f.payload [] s)
    else if f.hdr.space = 1 then
      (jobPieces x im writable a f.payload.length).map fun ps => countPieces (fun _ => r) ps (writePieces ps 0 f.payload [] s)
    else none

/-- WRITE (R412, R413). -/
def opWrite (n : Nat) (f : NerFrame) (s : State) : State :=
  match runSlot n f s with
  | (none, s) => s
  | (some j, s) =>
    match peerWrite n j f s with
    | none => jobFault j 7 0xFF 0 (devIndex (slotGet s j)) s
    | some s => if f.hdr.last then answer n j f .wack s else s

/-- SIGNAL (R327, R412). -/
def opSignal (n : Nat) (f : NerFrame) (s : State) : State :=
  match liveSlot s n f with
  | none => s
  | some j =>
    if sameRun s f j then
      let s := match localObj (slotGet s j) f.hdr.obj.toNat with
        | some o => objSignal o f.hdr.act f.hdr.value.toNat (countSync (frameReq n j) (objDie o) s)
        | none => s
      answer n j f .sack s
    else neriusCount n Reg.nerius.STALE (slotSet j { slotGet s j with stale := satN 32 ((slotGet s j).stale + 1) } s)

/-- The descriptors of a DMA queue whose transfer `tag` is acknowledged. -/
def ackQueue (tag : Nat) (q : List QOp) : List QOp := q.map fun o => if o.tag = some tag then { o with tag := none } else o

/-- WACK (R412). -/
def opWack (n : Nat) (f : NerFrame) (s : State) : State :=
  match runSlot n f s with
  | (none, s) => s
  | (some j, s) =>
    (slotGet s j).cores.foldl (fun s g =>
      let r := coreRun s g
      setRun g { r with dma0 := ackQueue f.hdr.tag.toNat r.dma0, dma1 := ackQueue f.hdr.tag.toNat r.dma1 } s) s

/-- SACK (R330, R412): the SIGNAL is performed, and the core's next ones follow. -/
def opSack (n : Nat) (f : NerFrame) (s : State) : State :=
  match runSlot n f s with
  | (none, s) => s
  | (some j, s) =>
    (slotGet s j).cores.foldl (fun s g =>
      let r := coreRun s g
      match r.sigs with
      | x :: xs =>
        if x.tag = some f.hdr.tag.toNat ∧ x.dev = some f.hdr.srcDev.toNat then
          pumpSigs 9 g (retire g (setRun g { r with sigs := xs } s))
        else s
      | [] => s) s

/-- ANNOUNCE (R380, R414). -/
def opAnnounce (n : Nat) (f : NerFrame) (s : State) : State :=
  match anySlot s n f with
  | none => s
  | some j =>
    let x := slotGet s j
    let same := f.payload.take 56 == announcePayload x
    let note := fun (s : State) => slotSet j { x with
      announced := Assoc.set x.announced f.hdr.srcDev.toNat f.hdr.run.toNat } s
    if holdsCores x.st then
      if same && sameRun s f j then runIfReady j (note s) else jobFault j 7 0xFF 0 (devIndex x) s
    else if same then note s
    else s

/-- FAULT (R381). -/
def opFault (n : Nat) (f : NerFrame) (s : State) : State :=
  match anySlot s n f with
  | none => s
  | some j =>
    if sameRun s f j then jobFault j 8 0xFF (leNat (sliceB f.payload 0 1)) f.hdr.srcDev.toNat s
    else neriusCount n Reg.nerius.STALE s

/-- RESTART (R382): from the leader, to a slot that can be restarted; hub firmware raises the dies that its job needs (R375). -/
def opRestart (n : Nat) (f : NerFrame) (s : State) : State :=
  match anySlot s n f with
  | none => s
  | some j =>
    let st := (slotGet s j).st
    if f.hdr.srcDev ≠ 0 then s
    else if st = .faulted ∨ st = .done ∨ st = .cancelled then
      admQueue { slot := j, load := false, peer := some f.hdr.run.toNat }
        (if clientUp s .firmware = true ∧ s.bt.update.isNone = true then raiseDies j s else s)
    else sendResult j 0 Code.badArg s

/-- The leader has an OK from device `p`; with the last one its group announces STARTING (R382). -/
def groupAccepted (j p : Nat) (s : State) : State :=
  let x := slotGet s j
  match x.waitGroup with
  | none => s
  | some w =>
    let left := w.devs.filter (· ≠ p)
    if !left.isEmpty then slotSet j { x with waitGroup := some { w with devs := left } } s
    else
      let s := countAuto j (isAuto s j) s
      let s := slotSet j { slotGet s j with waitGroup := none } s
      runIfReady j (sendPeers j .announce (announcePayload (slotGet s j)) s)

/-- RESTART_RESULT (R382, R414, log entry 21). -/
def opResult (n : Nat) (f : NerFrame) (s : State) : State :=
  match anySlot s n f with
  | none => s
  | some j =>
    let x := slotGet s j
    let p := f.hdr.srcDev.toNat
    let code := beNat (sliceB f.payload 0 2)
    match x.waitGroup with
    | some w =>
      if !w.devs.contains p then s
      else if code = Code.ok then groupAccepted j p s
      else groupRefused j code s
    | none => if p = 0 ∧ code ≠ Code.ok ∧ x.st = .starting then groupBack j code s else s

/-- What a frame in order does. -/
def opEffect (n : Nat) (f : NerFrame) (s : State) : State :=
  match f.hdr.op with
  | .write => opWrite n f s
  | .signal => opSignal n f s
  | .wack => opWack n f s
  | .sack => opSack n f s
  | .hello => s
  | .credit => s
  | .nak => replay n f.src.toNat s
  | .announce => opAnnounce n f s
  | .fault => opFault n f s
  | .restart => opRestart n f s
  | .restartResult => opResult n f s

/-- An oversize frame in order: its payload is gone, its job faulted (R404). -/
def oversizeEffect (n : Nat) (f : NerFrame) (s : State) : State :=
  let s := raise 0x2001 (neriusDie n) n f.hdr.groupTag.toNat f.length s
  match (List.range 32).find? fun j => slotLive s j && groupTag s j == f.hdr.groupTag.toNat with
  | some j => jobFault j 7 0xFF 0 (devIndex (slotGet s j)) s
  | none => s

/-- A frame at port `n`, from the tests of R403 and R404 to its effect. -/
def neriusTake (n : Nat) (f : NerFrame) (s : State) : State :=
  if !linkIsUp s n then s
  else
    match portDiscard s n f with
    | some c => neriusCount n c s
    | none =>
      let s := if frameOversize f then neriusCount n Reg.nerius.OVERSIZE s else s
      let r := sessTake n f (sessFor n f s)
      let s := if !r.2 then r.1 else if frameOversize f then oversizeEffect n f r.1 else opEffect n f r.1
      closeSessions s

/-- A frame of operation `op`. -/
def neriusOp (op : NerOp) (n : Nat) (f : NerFrame) (s : State) : State := if f.hdr.op = op then neriusTake n f s else s

/-- NERIUS_FRAME_DISCARD (R403, R404): a frame that the port discards, or whose payload it discards. -/
def execNeriusFrameDiscard (port : Fin 4) (f : NerFrame) (s : State) : Host.Outcome State Fault Refusal :=
  .next (if (portDiscard s port.val f).isSome || frameOversize f then neriusTake port.val f s else s)

/-- NERIUS_WRITE (R412, R413). -/
def execNeriusWrite (port : Fin 4) (f : NerFrame) (s : State) : Host.Outcome State Fault Refusal :=
  .next (neriusOp .write port.val f s)
/-- NERIUS_SIGNAL (R327, R412). -/
def execNeriusSignal (port : Fin 4) (f : NerFrame) (s : State) : Host.Outcome State Fault Refusal :=
  .next (neriusOp .signal port.val f s)
/-- WACK (R412). -/
def execWack (port : Fin 4) (f : NerFrame) (s : State) : Host.Outcome State Fault Refusal :=
  .next (neriusOp .wack port.val f s)
/-- SACK (R412). -/
def execSack (port : Fin 4) (f : NerFrame) (s : State) : Host.Outcome State Fault Refusal :=
  .next (neriusOp .sack port.val f s)
/-- HELLO (R407). -/
def execHello (port : Fin 4) (f : NerFrame) (s : State) : Host.Outcome State Fault Refusal :=
  .next (neriusOp .hello port.val f s)
/-- NERIUS_CREDIT (R408). -/
def execNeriusCredit (port : Fin 4) (f : NerFrame) (s : State) : Host.Outcome State Fault Refusal :=
  .next (neriusOp .credit port.val f s)
/-- NAK (R409). -/
def execNak (port : Fin 4) (f : NerFrame) (s : State) : Host.Outcome State Fault Refusal :=
  .next (neriusOp .nak port.val f s)
/-- ANNOUNCE (R380). -/
def execAnnounce (port : Fin 4) (f : NerFrame) (s : State) : Host.Outcome State Fault Refusal :=
  .next (neriusOp .announce port.val f s)
/-- GROUP_FAULT_FRAME (R381). -/
def execGroupFaultFrame (port : Fin 4) (f : NerFrame) (s : State) : Host.Outcome State Fault Refusal :=
  .next (neriusOp .fault port.val f s)
/-- NERIUS_RESTART (R382). -/
def execNeriusRestart (port : Fin 4) (f : NerFrame) (s : State) : Host.Outcome State Fault Refusal :=
  .next (neriusOp .restart port.val f s)
/-- RESTART_RESULT (R414). -/
def execRestartResult (port : Fin 4) (f : NerFrame) (s : State) : Host.Outcome State Fault Refusal :=
  .next (neriusOp .restartResult port.val f s)

/-! ### Timers (R408, R409, R414) -/

/-- RESTART_RESULT_TIMEOUT (R414): 10 ms without every peer's result. -/
def execRestartResultTimeout (slot : Fin 32) (s : State) : Host.Outcome State Fault Refusal :=
  .next (match (slotGet s slot.val).waitGroup with
    | some w => if passed w.since 10000000 s then groupRefused slot.val Code.timeout s else s
    | none => s)

/-- ACK_TIMEOUT (R409): the oldest frame of a session has stayed unacknowledged for 100 µs. -/
def execAckTimeout (port : Fin 4) (mac : BitVec 48) (s : State) : Host.Outcome State Fault Refusal :=
  .next (match sessGet s port.val mac.toNat with
    | some x =>
      match x.unacked with
      | u :: _ => if linkIsUp s port.val && passed u.sent 100000 s then replay port.val mac.toNat s else s
      | [] => s
    | none => s)

/-- CREDIT_SEND_TIMER (R409): unacknowledged frames or unreturned credits, and no other frame to send, for 1 µs. -/
def execCreditSendTimer (port : Fin 4) (mac : BitVec 48) (s : State) : Host.Outcome State Fault Refusal :=
  .next (match sessGet s port.val mac.toNat with
    | some x =>
      let since := match x.oweFrom, x.unacked.reverse with
        | some t, _ => some t
        | none, u :: _ => some u.sent
        | none, [] => none
      match since with
      | some t =>
        if linkIsUp s port.val && x.queue.isEmpty && passed t 1000 s then
          nerSend port.val mac.toNat (nerFrame s port.val mac.toNat (nerHdr .credit) []) s
        else s
      | none => s
    | none => s)

/-! ### Training (R410, R416) -/

/-- LINK_TRAINING_LOST (R410). -/
def execLinkTrainingLost (port : Fin 4) (s : State) : Host.Outcome State Fault Refusal :=
  .next (if linkIsUp s port.val then linkError port.val s else s)

/-- LINK_UP (R402, R416). -/
def execLinkUp (port : Fin 4) (s : State) : Host.Outcome State Fault Refusal :=
  .next (let n := port.val
    let p := neriusPage n
    if rget s p Reg.nerius.LSTATE = 1 ∧ enActive s p = true then
      irqPulse p 8 (rset p Reg.nerius.LSTATE 2 { s with ner := { s.ner with since := s.ner.since.filter (·.1 ≠ n) } })
    else s)

/-- TRAIN_ATTEMPT_FAIL (R416): 500 ms without lock. -/
def execTrainAttemptFail (port : Fin 4) (s : State) : Host.Outcome State Fault Refusal :=
  .next (let n := port.val
    let p := neriusPage n
    match Assoc.get s.ner.since n with
    | some t =>
      if rget s p Reg.nerius.LSTATE = 1 ∧ passed t 500000000 s = true then
        let k := Assoc.getD s.ner.fails n 0 + 1
        let s := rset p Reg.nerius.LSTATE 0 (neriusCount n Reg.nerius.TRAIN_FAILS s)
        let s := { s with ner := { s.ner with since := Assoc.set s.ner.since n s.ck.dt, fails := Assoc.set s.ner.fails n (k % 16) } }
        if k = 16 then raise 0x2002 (neriusDie n) n (rget s p Reg.nerius.TRAIN_FAILS) 0 s else s
      else s
    | none => s)

/-- TRAIN_RETRY (R410, R416): a port that is enabled trains, 1 s after a failed attempt. -/
def execTrainRetry (port : Fin 4) (s : State) : Host.Outcome State Fault Refusal :=
  .next (let n := port.val
    let l := rget s (neriusPage n) Reg.nerius.LSTATE
    let due := match Assoc.get s.ner.since n with
      | some t => passed t 1000000000 s
      | none => true
    if (l = 0 ∨ l = 3) ∧ due = true ∧ enActive s (neriusPage n) = true then trainStart n s else s)

end Sys2Proof.Machine
end

