-- ==== Sys2Proof/Machine/Gateway.lean ====
section
/-! DEFINITION. Chapter 16: reception at the ports, the route commands and the configuration archive (R449–R484). -/

namespace Sys2Proof.Machine

/-- A frame has arrived: RX_FRAMES. -/
def rxCount (p : Nat) (s : State) : State := radd (portPage p) Reg.port.RX_FRAMES 1 s

/-! ### CAN (R453, R454, R458) -/

def canReg (s : State) (q : Nat) (f : Fld) : Nat := rget s (portPage q) f

/-- A CAN controller takes part in its bus. -/
def canOnBus (s : State) (q : Nat) : Bool := portActive s q && canReg s q Reg.canPort.BUS_OFF == 0

/-- A frame that ISO 11898-1 allows: a length that a DLC gives, BRS only in FD, a base identifier of 11 bits. -/
def canWellFormed (f : CanFrame) : Bool :=
  dlcLen f.fdf f.payload.length == some f.payload.length && (f.fdf || !f.brs) && (f.ide || decide (f.ident.toNat < 2 ^ 11))

/-- K0 of a CAN frame. -/
def canK0 (f : CanFrame) : Nat := f.ident.toNat + f.ide.toNat * 2 ^ 29 + f.fdf.toNat * 2 ^ 30 + f.brs.toNat * 2 ^ 31

/-- CAN_FRAME_RX (R453, R454, R457): a frame received without error. -/
def execCanFrameRx (port : Fin 4) (f : CanFrame) (s : State) : Host.Outcome State Fault Refusal :=
  .next (let q := port.val
    if canOnBus s q && portTakes s q && canWellFormed f && (!f.fdf || canReg s q Reg.canPort.FD_EN == 1) then
      gwFrame { k0 := canK0 f, kind := f.fdf.toNat, port := q, payload := f.payload, time := s.ck.dt } (rxCount q s)
    else s)

/-- CAN_BUS_OFF_RECOVERY (R453): the controller returns to the bus by itself, its error counters at zero. -/
def execCanBusOffRecovery (port : Fin 4) (s : State) : Host.Outcome State Fault Refusal :=
  .next (let p := portPage port.val
    if portActive s port.val && rbit s p Reg.canPort.BUS_OFF then
      canLoad port.val (rset p Reg.canPort.REC 0 (rset p Reg.canPort.TEC 0 (rset p Reg.canPort.BUS_OFF 0 s)))
    else s)

/-- What a transmission that ends with an error does to the transmit error counter (ISO 11898-1): 8 more, bus off beyond
255; an error-passive node without an acknowledgement stays where it is. -/
def canTxError (q : Nat) (ack : Bool) (s : State) : State :=
  let p := portPage q
  let t := rget s p Reg.canPort.TEC
  if ack && decide (128 ≤ t) then s
  else if t + 8 ≤ 255 then rset p Reg.canPort.TEC (t + 8) s
  else radd p Reg.canPort.BUS_OFF_COUNT 1 (rset p Reg.canPort.BUS_OFF 1 s)

/-- A transmission without error: one less. -/
def canTxGood (q : Nat) (s : State) : State :=
  rset (portPage q) Reg.canPort.TEC (rget s (portPage q) Reg.canPort.TEC - 1) s

/-! ### Ethernet (R453–R455, R459, R472) -/

def ethMac (s : State) : Nat := rget s ethPage Reg.ethPort.MAC 0 + rget s ethPage Reg.ethPort.MAC 1 % 2 ^ 16 * 2 ^ 32
def ipAddr (s : State) : Nat := rget s ethPage Reg.ethPort.IP_ADDR
def mgmtUdp (s : State) : Nat := rget s ethPage Reg.ethPort.MGMT_UDP

/-- The multicast addresses of PTP over Ethernet and over UDP/IPv4 (IEEE 1588-2019). -/
def ptpMacs : List Nat := [0x011B19000000, 0x0180C200000E, 0x01005E000181, 0x01005E00006B]

/-- The address filter of R453. -/
def ethAccepts (s : State) (dst : Nat) : Bool :=
  dst == ethMac s || dst == 2 ^ 48 - 1 || ptpMacs.contains dst
    || (decide (dst / 2 ^ 40 % 2 = 1) && rbit s ethPage Reg.ethPort.MCAST_ALL)

/-- The drop of R454 that takes a frame, in the order of its tests. -/
def ethDrop (f : EthFrame) : Option Nat :=
  if f.length < 64 then some GwDrop.runt
  else if (if f.tags.isEmpty then 1518 else 1522) < f.length then some GwDrop.oversize
  else if !f.fcsOk then some GwDrop.crc
  else if 2 ≤ f.tags.length then some GwDrop.badTag
  else if f.etype = 0x8808 then some GwDrop.notAccepted
  else none

/-- The one's-complement sum of 16-bit words. -/
def sum16 : List Byte → Nat
  | a :: b :: bs => 256 * a.toNat + b.toNat + sum16 bs
  | [a] => 256 * a.toNat
  | [] => 0
def fold16 (n : Nat) : Nat := let m := n % 65536 + n / 65536; m % 65536 + m / 65536

/-- What an IPv4 or ARP frame is to the management address. -/
inductive Intake where
  | none
  | bad
  | arp
  | echo
  | udp (port : Nat) (data : List Byte)
deriving DecidableEq, Repr

/-- R472's view of an IPv4 packet. -/
def ipIntake (s : State) (b : List Byte) : Intake :=
  let n := fun i k => beNat (sliceB b i k)
  let total := n 2 2
  let proto := n 9 1
  let offset := n 6 2 % 2 ^ 13
  let more := bitAt (n 6 2) 13
  let body := (b.take total).drop 20
  if n 0 1 ≠ 0x45 ∨ n 16 4 ≠ ipAddr s then .none
  else if ¬ (proto = 1 ∨ (proto = 17 ∧ mgmtUdp s ≠ 0)) then .none
  else if offset ≠ 0 then .bad
  else if proto = 1 ∧ beNat (sliceB body 0 1) ≠ 8 then .none
  else if proto = 17 ∧ beNat (sliceB body 2 2) ≠ mgmtUdp s then .none
  else if more ∨ fold16 (sum16 (b.take 20)) ≠ 0xFFFF ∨ b.length < total ∨ total < 28 then .bad
  else if proto = 1 then .echo
  else
    let len := beNat (sliceB body 4 2)
    let sum := beNat (sliceB body 6 2)
    let pseudo := sum16 (sliceB b 12 8) + 17 + len + sum16 (body.take len)
    if len < 8 ∨ body.length < len ∨ (sum ≠ 0 ∧ fold16 pseudo ≠ 0xFFFF) then .bad
    else .udp (beNat (sliceB body 0 2)) ((body.take len).drop 8)

/-- What a frame is to the management address (R472). -/
def mgmtIntake (s : State) (etype : Nat) (b : List Byte) : Intake :=
  if ipAddr s = 0 then .none
  else if etype = 0x0806 then
    if b.take 8 == [0, 1, 8, 0, 6, 4, 0, 1] && beNat (sliceB b 24 4) == ipAddr s then .arp else .none
  else if etype = 0x0800 then ipIntake s b
  else .none

/-- A PTP message on the port's transport (R455); an IPv4 header with options is supported nowhere (R4, R472). -/
def isPtp (s : State) (etype : Nat) (b : List Byte) : Bool :=
  etype == 0x88F7 ||
    (rbit s timePage Reg.time.TRANSPORT && etype == 0x0800 && beNat (sliceB b 0 1) == 0x45 && beNat (sliceB b 9 1) == 17
      && (let d := beNat (sliceB b 22 2); d == 319 || d == 320))

/-- An accepted frame behind the intakes: encapsulated (R459) or as it is. -/
def ethFrame (f : EthFrame) (s : State) : State :=
  let b := f.payload
  let g : GwFrame :=
    { k0 := f.etype.toNat + (match f.tags with
        | t :: _ => t.toNat % 2 ^ 12 * 2 ^ 16 + 2 ^ 28 + t.toNat / 2 ^ 13 * 2 ^ 29
        | [] => 0)
      kind := 2, port := 4, payload := b, time := s.ck.dt, mac := f.src.toNat }
  if f.etype = 0x88B6 then
    let n := fun i k => beNat (sliceB b i k)
    if b.length < 16 ∨ n 0 1 ≠ 1 ∨ b.length - 16 < n 12 2 then gwDrop 4 GwDrop.notAccepted s
    else gwFrame { g with k0 := n 4 4, kind := n 1 1 % 16, payload := (b.drop 16).take (n 12 2) } s
  else gwFrame g s

/-- A frame for the service cores passes the fixed limiter of R472; `words` is empty on its copy. -/
def mgmtTake (f : EthFrame) (s : State) : State :=
  match bucketTake 129 1000 8 1 s with
  | none => gwDrop 4 GwDrop.limit s
  | some s => egressCopy 9 7 0 [] { k0 := f.etype.toNat, kind := 2, port := 4, payload := f.payload, time := s.ck.dt, mac := f.src.toNat } s

/-- ETH_FRAME_RX (R453–R455, R459, R472). A PTP message goes to the TIME port, where PTP_MESSAGE stands for it. -/
def execEthFrameRx (f : EthFrame) (s : State) : Host.Outcome State Fault Refusal :=
  .next (if !portTakes s 4 then s
    else
      match ethDrop f with
      | some k => gwDrop 4 k (rxCount 4 s)
      | none =>
        if !ethAccepts s f.dst.toNat then s
        else
          let s := rxCount 4 s
          if isPtp s f.etype.toNat f.payload then s
          else
            match mgmtIntake s f.etype.toNat f.payload with
            | .none => ethFrame f s
            | .bad => gwDrop 4 GwDrop.notAccepted s
            | _ => mgmtTake f s)

/-! ### UARTs and PMBus (R453, R454) -/

/-- MODBUS_ADU_RX: an ADU that silence has ended. -/
def execModbusAduRx (uart : Fin 2) (bytes : List Byte) (s : State) : Host.Outcome State Fault Refusal :=
  .next (let q := 5 + uart.val
    let n := bytes.length
    if portTakes s q && rget s (portPage q) Reg.uartPort.MODE == 0 && decide (0 < n) then
      let s := rxCount q s
      if n ≤ 3 then gwDrop q GwDrop.aduShort s
      else if 257 ≤ n then gwDrop q GwDrop.aduLong s
      else if crcModbus (bytes.take (n - 2)) ≠ leNat (bytes.drop (n - 2)) then gwDrop q GwDrop.crc s
      else gwFrame { k0 := leNat (bytes.take 2), kind := 3, port := q, payload := bytes.take (n - 2), time := s.ck.dt } s
    else s)

/-- RAW_UART_RX: a frame that SILENCE bit times have ended. -/
def execRawUartRx (uart : Fin 2) (bytes : List Byte) (s : State) : Host.Outcome State Fault Refusal :=
  .next (let q := 5 + uart.val
    if portTakes s q && rget s (portPage q) Reg.uartPort.MODE == 1 && decide (0 < bytes.length) then
      let s := rxCount q s
      if 256 < bytes.length then gwDrop q GwDrop.aduLong s
      else gwFrame { k0 := leNat (bytes.take 1), kind := 4, port := q, payload := bytes, time := s.ck.dt } s
    else s)

/-- The result of a PMBus transaction at port `q`. -/
def pmbTake (q k0 : Nat) (pec : Bool) (r : PmbResult) (s : State) : State :=
  let s := rxCount q s
  if !r.acked then gwDrop q GwDrop.notAccepted s
  else if pec && !r.pecOk then gwDrop q GwDrop.crc s
  else gwFrame { k0 := k0, kind := 5, port := q, payload := r.data, time := s.ck.dt } s

/-- A poll entry's interval is over; a zero interval never comes due. -/
def pollDue (s : State) (q e : Nat) : Bool :=
  let w := rget s (portPage q) Reg.pmbPort.POLL e
  bitAt w 7 && bitsOf w 21 11 != 0 &&
    (match Assoc.get s.gw.polls (q, e) with
     | some t => passed t (1000000 * bitsOf w 21 11) s
     | none => true)

/-- PMBUS_POLL: the entry names the address, the command and the protocol of the transaction, of which R484 supports three (R4). -/
def execPmbusPoll (bus : Fin 2) (entry : Fin 32) (r : PmbResult) (s : State) : Host.Outcome State Fault Refusal :=
  .next (let q := 7 + bus.val
    let w := rget s (portPage q) Reg.pmbPort.POLL entry.val
    if portTakes s q && pollDue s q entry.val && decide (bitsOf w 16 4 ≤ 2) && decide (r.data.length ≤ 255) then
      pmbTake q (w % 2 ^ 7 + bitsOf w 8 8 * 2 ^ 8 + bitsOf w 16 4 * 2 ^ 16) (bitAt w 20) r
        { s with gw := { s.gw with polls := Assoc.set s.gw.polls (q, entry.val) s.ck.dt } }
    else s)

/-- PMBUS_ALERT_READ: the alert response of a device that pulls PMBx_ALERT_N low. -/
def execPmbusAlertRead (bus : Fin 2) (r : PmbResult) (s : State) : Host.Outcome State Fault Refusal :=
  .next (let q := 7 + bus.val
    if portTakes s q && decide (r.data.length ≤ 255) then
      pmbTake q (r.addr.toNat + r.command.toNat * 2 ^ 8 + r.proto.toNat * 2 ^ 16) true r s
    else s)

/-! ### Commands (R464, R478, R481) -/

def routeStage (s : State) : List Nat := (List.range 8).map fun i => rget s gwPage Reg.gateway.RT_W i

/-- ROUTE_SET refuses the entry (R464). -/
def routeBad (ws : List Nat) : Bool :=
  let w := fun i => ws.getD i 0
  let egress := bitsOf (w 0) 16 16
  let can := decide (egress % 16 ≠ 0)
  let out := bitAt (w 1) 1
  let max := bitsOf (w 3) 0 11
  bitAt (w 0) 7 || bitAt (w 0) 15 || bitsOf (w 1) 4 4 != 0 || bitAt (w 1) 15 || bitAt (w 1) 23 || bitAt (w 3) 11 || bitAt (w 3) 15
    || bitsOf (w 3) 29 3 != 0 || bitsOf (w 4) 10 6 != 0 || bitsOf (w 4) 26 6 != 0 || w 5 != 0 || w 6 != 0
    || decide (1500 < max) || decide (egress / 2 ^ 13 ≠ 0)
    || (out && can && decide (64 < max + 7))
    || (out && can && bitAt (w 1) 3 && !bitAt (w 2) 30 && decide (8 < max + 7))
    || (bitAt (w 1) 2 && !can)

/-- ROUTE_SET. -/
def routeSetEffect (r : Req) (s : State) : State :=
  let ws := routeStage s
  if 2 ^ 12 ≤ r.arg.toNat ∨ routeBad ws = true then endCmd gwPage Code.badArg s
  else endCmd gwPage Code.ok (routeSet r.arg.toNat (ws.take 7 ++ [0]) s)

def execRouteSet (r : Req) (s : State) : Host.Outcome State Fault Refusal :=
  .next (command gwPage 0x01 r (routeSetEffect r) s)

/-- ROUTE_GET. -/
def routeGetEffect (r : Req) (s : State) : State :=
  if 2 ^ 12 ≤ r.arg.toNat then endCmd gwPage Code.badArg s
  else endCmd gwPage Code.ok (putWords gwPage Reg.gateway.RT_W (routeGet s r.arg.toNat) s)

def execRouteGet (r : Req) (s : State) : Host.Outcome State Fault Refusal :=
  .next (command gwPage 0x02 r (routeGetEffect r) s)

/-- ROOT_SET. -/
def rootSetEffect (r : Req) (s : State) : State :=
  let a := r.arg.toNat
  if 2 ^ 19 ≤ a ∨ 12 < a % 16 then endCmd gwPage Code.badArg s
  else endCmd gwPage Code.ok (rset gwPage Reg.gateway.ROOT (bitsOf a 4 15) s (a % 16))

def execRootSet (r : Req) (s : State) : Host.Outcome State Fault Refusal :=
  .next (command gwPage 0x03 r (rootSetEffect r) s)

/-- GW_SAVE: the record goes to the slot of the older generation, erased first, and is the commit record. -/
def gwSaveEffect (r : Req) (s : State) : State :=
  if r.arg ≠ 0 ∨ rbit s spiPage Reg.spiNor.SFDP_OK = false then endCmd gwPage Code.badArg s
  else
    let new := gwNewest s
    let slot := match new with
      | some x => 1 - x.1
      | none => 0
    let gen := (match new with
      | some x => x.2 + 1
      | none => 1) % 2 ^ 32
    let a := rget s gwPage Reg.gateway.ARCHIVE + slot * 2 ^ 19
    let s := flashWrite a (gwRecord gen (wordsBytes (gwConfig s))) (flashErase a (2 ^ 19) s)
    endCmd gwPage Code.ok (rset gwPage Reg.gateway.CFG_GEN gen (commitCmd gwPage s))

def execGwSave (r : Req) (s : State) : Host.Outcome State Fault Refusal :=
  .next (command gwPage 0x04 r (gwSaveEffect r) s)

end Sys2Proof.Machine
end

