-- ==== Sys2Proof/Machine/SiteBus.lean ====
section
/-! DEFINITION. Chapter 17: global time, references, masters, slots, power-state frames and wake (R485–R513). -/

namespace Sys2Proof.Machine

def sbReg (s : State) (f : Fld) (i : Nat := 0) : Nat := rget s sbPage f i

/-! ### The service and its state (R485, R486) -/

def sbActive (s : State) : Bool := enActive s sbPage && portActive s (sbPort s)

namespace Sb
def unsync : Nat := 1
def syncing : Nat := 2
def synced : Nat := 3
def muted : Nat := 4
end Sb

/-- STATE (R514). -/
def sbState (s : State) : Nat := if enActive s sbPage then s.sb.st else 0
def sbSynced (s : State) : Bool := sbActive s && sbState s == Sb.synced
def sbMaster (s : State) : Bool := rbit s sbPage Reg.siteBus.MASTER

/-- A new STATE, with STATE_CHANGE. -/
def setSb (v : Nat) (s : State) : State :=
  if s.sb.st = v then s else irqPulse sbPage 8 { s with sb := { s.sb with st := v } }

/-- MASTER set or cleared; MASTER_CHANGES counts each rise. -/
def setMaster (on : Bool) (s : State) : State :=
  if sbMaster s = on then s
  else
    let s := rflag sbPage Reg.siteBus.MASTER on s
    irqPulse sbPage 12 (if on then radd sbPage Reg.siteBus.MASTER_CHANGES 1 s else s)

/-- EN becomes 1: UNSYNC, without time; a potential master listens (R498). -/
def sbOn (s : State) : State :=
  let cap := rbit s sbPage Reg.siteBus.MASTER_CAP
  let s := { s with sb := { fv := s.sb.fv, hold := s.sb.hold, acks := s.sb.acks, replies := s.sb.replies
                            listen := if cap then some s.ck.dt else none } }
  irqPulse sbPage 8 (rset sbPage Reg.siteBus.MASTER 0 s)

/-! ### Global time and the cycle (R488–R490) -/

def gtAt (s : State) (x : Nat) : Rat :=
  s.sb.anchorGt + ((x : Rat) - s.sb.anchorDt) * (1 + (s.sb.rate : Rat) / (65536 * 1000000))
/-- gt(now). -/
def gtNow (s : State) : Rat := gtAt s s.ck.dt

def slotNs (s : State) : Nat := 1000 * sbReg s Reg.siteBus.SLOT_LEN
def slotCount (s : State) : Nat := sbReg s Reg.siteBus.SLOTS_M1 + 1
def cycleNs (s : State) : Nat := slotCount s * slotNs s
def guardNs (s : State) : Nat := 1000 * sbReg s Reg.siteBus.GUARD

/-- The device time of a GT (R490). -/
def dtOf (s : State) (g : Rat) : Rat := s.sb.anchorDt + (g - s.sb.anchorGt) / (1 + (s.sb.rate : Rat) / (65536 * 1000000))

/-- The slots since GT 0. A slot opens at the last tick of device time at or before its GT (R15). -/
def slotIndex (s : State) : Int := if slotNs s = 0 then 0 else (gtAt s (s.ck.dt + 1) / slotNs s).ceil - 1
/-- The cycle of now, and its slot. -/
def cycleNow (s : State) : Int := slotIndex s / slotCount s
def slotNow (s : State) : Nat := (slotIndex s % slotCount s).toNat

/-- The type of a slot: 0 IDLE, 1 REF, 2 OWN, 3 ARB. -/
def slotType (s : State) (k : Nat) : Nat :=
  let w := if k < 128 then sbReg s Reg.siteBus.SLOT_TYPE (k / 16) else sbReg s Reg.siteBus.SLOT_TYPE_HI (k / 16 - 8)
  w / 4 ^ (k % 16) % 4

/-- The layout that EN = 1 asks for. -/
def layoutOk (s : State) : Bool :=
  slotType s 0 == 1 && ((List.range (slotCount s)).drop 1).all (fun k => slotType s k != 1)
    && decide (2 * guardNs s < slotNs s)

/-! ### Frame durations and windows (R500, R501) -/

/-- A bit time in ns from a prescaler and the segments of a bit, each less 1. -/
def bitNs (brp seg1 seg2 : Nat) : Rat := (brp + 1 : Nat) * (1 + (seg1 + 1) + (seg2 + 1) : Nat) * 25 / 2
def tNom (s : State) (q : Nat) : Rat :=
  bitNs (canReg s q Reg.canPort.NOM_BRP) (canReg s q Reg.canPort.NOM_TSEG1) (canReg s q Reg.canPort.NOM_TSEG2)
def tData (s : State) (q : Nat) : Rat :=
  bitNs (canReg s q Reg.canPort.DATA_BRP) (canReg s q Reg.canPort.DATA_TSEG1) (canReg s q Reg.canPort.DATA_TSEG2)

/-- D of a frame on port `q`, ns. -/
def frameNs (s : State) (q : Nat) (f : CanFrame) : Rat :=
  let n := f.payload.length
  if f.fdf then
    let a : Nat := if f.ide then 36 else 17
    let c : Nat := if n ≤ 16 then 28 else 33
    tNom s q * (5 / 4 * a + 13) + (if f.brs then tData s q else tNom s q) * (5 / 4 * (5 + 8 * n : Nat) + c)
  else
    let a : Nat := if f.ide then 39 else 19
    tNom s q * (5 / 4 * (a + 8 * n + 15 : Nat) + 13)

/-- Now and now + D lie in the window of the present slot, whose close is rounded down to a tick of device time (R15, R500). -/
def windowFits (s : State) (d : Rat) : Bool :=
  let close : Rat := ((slotIndex s + 1) * (slotNs s : Int) - (guardNs s : Int) : Int)
  decide (gtNow s + d ≤ gtAt s (dtOf s close).floor.toNat)

/-- The frame may start on SB_PORT as one of the open slots' frames (R500). -/
def arbOpen (s : State) (f : CanFrame) : Bool :=
  sbSynced s && slotType s (slotNow s) == 3 && windowFits s (frameNs s (sbPort s) f)

/-- A frame may start on CAN port `q` now: at any time on an event-triggered port, in an open slot on SB_PORT. -/
def canMayStart (s : State) (q : Nat) (f : CanFrame) : Bool :=
  canOnBus s q && canReg s q Reg.canPort.LISTEN_ONLY == 0 && (!(enActive s sbPage && q == sbPort s) || arbOpen s f)

/-- A frame of the service leaves on port `q`. -/
def canOut (q : Nat) (f : CanFrame) (s : State) : State := canTxGood q (send (.can q f) s)

/-! ### Power-state frames (R506, R507) -/

/-- The CAP port takes a frame or rejects it. -/
def psTake (k0 : Nat) (auth : Bool) (keyIn : Nat) (payload : List Byte) (stamp : Nat) (s : State) : State :=
  let n := fun i k => beNat (sliceB payload i k)
  let id := sbReg s Reg.siteBus.PS_ID
  let cap := n 4 4
  if id ≤ k0 % 2 ^ 30 ∧ k0 % 2 ^ 30 ≤ id + 7 ∧ auth = true ∧ keyIn = sbReg s Reg.siteBus.SB_KEY ∧ 12 ≤ payload.length
      ∧ n 0 1 = 1 ∧ cap ≤ 40000 ∧ bitAt (n 8 4) (sbReg s Reg.siteBus.MODULE_NO) = true then
    let s := radd sbPage Reg.siteBus.PS_ACCEPTED 1 s
    if bitAt (n 1 1) 0 then
      withCaps (rset weirPage Reg.weir.SITE_CAP_VALID 0) { s with sb := { s.sb with hold := none } }
    else
      let hold := if n 2 2 = 0 then none else some (stamp + 1000000 * n 2 2)
      withCaps (fun s => rset weirPage Reg.weir.SITE_CAP_VALID 1 (rset weirPage Reg.weir.SITE_CAP cap s))
        { s with sb := { s.sb with hold := hold } }
  else radd sbPage Reg.siteBus.PS_REJECTED 1 s

/-- POWER_STATE_RX: a frame behind its route, its tag removed. -/
def execPowerStateRx (f : CanFrame) (authOk : Bool) (keyIn : Fin 128) (s : State) : Host.Outcome State Fault Refusal :=
  .next (if gwActive s then psTake (canK0 f) authOk keyIn.val f.payload s.ck.dt s else s)

/-- PS_HOLD_EXPIRE (R507): the hold window closes without a newer frame. -/
def execPsHoldExpire (s : State) : Host.Outcome State Fault Refusal :=
  .next (match s.sb.hold with
    | some t =>
      if hubRuns s && decide (t ≤ s.ck.dt) then
        withCaps (fun s => rset weirPage Reg.weir.SITE_CAP_VALID 1
          (rset weirPage Reg.weir.SITE_CAP (sbReg s Reg.siteBus.PS_FALLBACK) s)) { s with sb := { s.sb with hold := none } }
      else s
    | none => s)

/-- The device's own power-state frames reach its CAP port by loopback: a copy that AUTH_OUT has signed with KEY_OUT. -/
def psLoopback (x : GwCopy) (f : CanFrame) (s : State) : State :=
  let w1 := x.words.getD 1 0
  let id := sbReg s Reg.siteBus.PS_ID
  if bitAt w1 1 && !f.ide && decide (id ≤ f.ident.toNat ∧ f.ident.toNat ≤ id + 7) then
    psTake (canK0 f) true (bitsOf w1 16 7) (f.payload.take (f.payload.length - 7)) s.ck.dt s
  else s

/-! ### Receiving references (R492–R496) -/

/-- RATE in 2^-16 ppm from a ratio's excess over 1, within ±500 ppm. -/
def rateOf (x : Rat) : Int := clampRate (roundAway (x * 65536 * 1000000))

/-- The state rules of R494 after a correction of `e` ns. -/
def correctionState (e : Int) (s : State) : State :=
  let g : Int := guardNs s
  let quiet := fun (x : Int) => decide (4 * (x.natAbs : Int) < g)
  let twice := quiet e && s.sb.lastE.any quiet
  let s := { s with sb := { s.sb with lastE := some e } }
  let v := s.sb.st
  if v = Sb.unsync then setSb Sb.syncing s
  else if v = Sb.syncing ∨ v = Sb.muted then (if twice then setSb Sb.synced s else s)
  else if v = Sb.synced ∧ g < 2 * (e.natAbs : Int) then
    let s := irqPulse sbPage 9 (radd sbPage Reg.siteBus.MUTES 1 (setSb Sb.muted s))
    raise 0x7102 12 0 (sbReg s Reg.siteBus.LAST_CORR) (ofInt 32 (cycleNow s)) s
  else s

/-- R493 on a reference of cycle `c` that names `m` for the one before. -/
def correct (c : Nat) (m : Nat) (s : State) : State × Option Nat :=
  match s.sb.stamp with
  | some (d, c') =>
    if (c' + 1) % 2 ^ 32 = c then
      let e : Int := (m : Int) - (gtAt s d).floor
      let rate := match s.sb.last with
        | some (d', m') => if d' < d then rateOf (((m : Rat) - m') / ((d : Rat) - d') - 1) else s.sb.rate
        | none => s.sb.rate
      let s := { s with sb := { s.sb with rate := rate, anchorGt := m, anchorDt := d, last := some (d, m) } }
      let s := rset sbPage Reg.siteBus.LAST_CORR (ofInt 32 (max (-2147483648) (min 2147483647 e))) s
      (correctionState e s, some d)
    else (s, none)
  | none => (s, none)

/-- One wall-clock message under SRC_SEL = 3 (R496): TAI `wall` at device time `d`. -/
def wallMessage (wall : Int) (utc d : Nat) (s : State) : State := servoOffset ((wallAt s d).floor - wall) utc s

/-- A valid reference of rank `r`, stamped at `now`. -/
def referenceTake (r : Nat) (p : List Byte) (now : Nat) (s : State) : State :=
  let n := fun i k => beNat (sliceB p i k)
  let s := rset sbPage Reg.siteBus.MASTER_RANK r (radd sbPage Reg.siteBus.REF_RX 1 s)
  let s := { s with sb := { s.sb with listen := none, missed := 0, prev := some now } }
  let s := if sbMaster s && decide (r < sbReg s Reg.siteBus.RANK) then setMaster false s else s
  let s :=
    if sbMaster s then s
    else
      let x := correct (n 6 4) (n 10 8) s
      let s := { x.1 with sb := { x.1.sb with stamp := some (now, n 6 4) } }
      match x.2 with
      | some d => if srcSel s = 3 ∧ n 1 1 % 2 = 1 then wallMessage (n 18 6 * 1000000000 + n 24 4) (n 28 2) d s else s
      | none => s
  { s with sb := { s.sb with seen := some (((gtNow s + cycleNs s / 2) / cycleNs s).floor) } }

/-- A frame at the service, stamped at `now`: a reference is checked under R492. -/
def referenceAt (f : CanFrame) (now : Nat) (s : State) : State :=
  let id := sbReg s Reg.siteBus.REF_ID
  let n := fun i k => beNat (sliceB f.payload i k)
  let r := n 0 1 % 16
  if f.ide ∨ ¬ (f.fdf = true) ∨ f.payload.length ≠ 48 ∨ f.ident.toNat ≠ id + r ∨ 8 ≤ r ∨ n 0 1 / 16 ≠ 1 then s
  else if n 2 1 + 1 ≠ slotCount s ∨ n 4 2 ≠ sbReg s Reg.siteBus.SLOT_LEN then raise 0x7101 12 r (n 2 1 + n 4 2 * 2 ^ 16) 0 s
  else
    match canVerify (sbReg s Reg.siteBus.SB_KEY) (sbReg s Reg.siteBus.FV_BASE + 1 + r) f s with
    | some (p, s) => referenceTake r p now s
    | none => s

/-- REFERENCE_RX (R492, R493). -/
def execReferenceRx (f : CanFrame) (s : State) : Host.Outcome State Fault Refusal :=
  .next (if sbActive s then referenceAt f s.ck.dt s else s)

/-- REF_MISSED (R495): slot 0 of this cycle has closed. -/
def execRefMissed (s : State) : Host.Outcome State Fault Refusal :=
  .next (let c := cycleNow s
    if sbActive s && slotNow s != 0 && s.sb.closed != some c then
      let s := { s with sb := { s.sb with closed := some c } }
      if s.sb.seen = some c then s
      else
        let s := radd sbPage Reg.siteBus.REF_MISSED 1 { s with sb := { s.sb with missed := s.sb.missed + 1 } }
        if 3 ≤ s.sb.missed ∧ sbMaster s = false then
          setSb Sb.unsync { s with sb := { s.sb with stamp := none, last := none, lastE := none } }
        else s
    else s)

/-- MASTER_LISTEN_EXPIRE (R498): two cycle lengths without a valid reference. -/
def execMasterListenExpire (s : State) : Host.Outcome State Fault Refusal :=
  .next (match s.sb.listen with
    | some t =>
      if sbActive s && passed t (2 * cycleNs s) s then
        setMaster true { s with sb := { s.sb with listen := none, anchorGt := s.ck.dt, anchorDt := s.ck.dt, rate := 0 } }
      else s
    | none => s)

/-! ### Sending references and own slots (R491, R497, R500, R502) -/

/-- A failed one-shot transmission of slot `k`: kinds 0 bit, 1 acknowledgement, 2 arbitration, 3 stuff or form, 4 window. -/
def slotFail (k kind : Nat) (s : State) : State :=
  let s := radd sbPage Reg.siteBus.TX_FAIL 1 s
  let s := rset sbPage Reg.siteBus.OWN_FAIL (putBit (sbReg s Reg.siteBus.OWN_FAIL (k / 32)) (k % 32) true) s (k / 32)
  let s := rset sbPage Reg.siteBus.LAST_FAIL_KIND kind (rset sbPage Reg.siteBus.LAST_FAIL_SLOT k s)
  irqPulse sbPage 10 (raise 0x7103 12 k kind (ofInt 32 (cycleNow s)) s)

/-- How an attempt ends on the bus: its kind of failure, if it fails. -/
def txKind : TxEnd → Option Nat
  | .sent => none
  | .bitError => some 0
  | .ackError => some 1
  | .lostArbitration => some 2
  | .stuffOrForm => some 3

/-- What the end of an attempt does to the controller's error counter. -/
def txCounters (q : Nat) (e : TxEnd) (s : State) : State :=
  match e with
  | .sent => canTxGood q s
  | .lostArbitration => s
  | .ackError => canTxError q true s
  | _ => canTxError q false s

/-- The 30 bytes of fields of the reference of cycle `c`, with padding to 41 (R491). -/
def referenceData (s : State) (c : Int) : List Byte × State :=
  let x := match s.sb.prev with
    | some d => ((gtAt s d).floor, (wallAt s d).floor, s)
    | none => ((Config.freeNat s.fresh : Int), (Config.freeNat (s.fresh + 1) : Int), { s with fresh := s.fresh + 2 })
  let wall := x.2.1
  (beBytes 1 (16 + sbReg s Reg.siteBus.RANK) ++ beBytes 1 (wallValid s && srcSel s != 3).toNat
    ++ beBytes 1 (sbReg s Reg.siteBus.SLOTS_M1) ++ [0] ++ beBytes 2 (sbReg s Reg.siteBus.SLOT_LEN) ++ beBytes 4 (ofInt 32 c)
    ++ beBytes 8 (ofInt 64 x.1) ++ beBytes 6 (ofInt 48 (wall / 1000000000)) ++ beBytes 4 (ofInt 32 (wall % 1000000000))
    ++ beBytes 2 (rget s timePage Reg.time.UTC_OFFSET) ++ List.replicate 11 0, x.2.2)

/-- A base FD frame with BRS. -/
def fdFrame (id : Nat) (p : List Byte) : CanFrame := { ident := BitVec.ofNat 29 id, ide := false, fdf := true, brs := true, payload := p }

/-- The reference of cycle `c` is sent, or its attempt fails with `e`. -/
def referenceSend (c : Int) (e : TxEnd) (s : State) : State :=
  let x := referenceData s c
  match canSign (sbReg s Reg.siteBus.SB_KEY) (sbReg s Reg.siteBus.FV_BASE)
      (fdFrame (sbReg s Reg.siteBus.REF_ID + sbReg s Reg.siteBus.RANK) x.1) x.2 with
  | none => s
  | some (f, s) =>
    let q := sbPort s
    match txKind e with
    | none =>
      let s := send (.can q f) (txCounters q e s)
      setMaster true { s with sb := { s.sb with prev := some s.ck.dt, seen := some c, missed := 0, listen := none } }
    | some k =>
      let s := slotFail 0 k (txCounters q e s)
      if e = .lostArbitration then setMaster false s else s

/-- REFERENCE_TX (R497): a potential master that is SYNCED or master, once in each cycle; the attempt whose window has
closed fails. -/
def execReferenceTx (e : TxEnd) (s : State) : Host.Outcome State Fault Refusal :=
  .next (let c := cycleNow s
    if sbActive s && rbit s sbPage Reg.siteBus.MASTER_CAP && (sbState s == Sb.synced || sbMaster s) && s.sb.txCycle != some c
        && canOnBus s (sbPort s) && canReg s (sbPort s) Reg.canPort.LISTEN_ONLY == 0 then
      let s := { s with sb := { s.sb with txCycle := some c } }
      if slotNow s = 0 ∧ windowFits s (frameNs s (sbPort s) (fdFrame 0 (List.replicate 48 0))) = true then referenceSend c e s
      else slotFail 0 4 s
    else s)

/-- A copy has been sent: TX_FRAMES, FORWARDED, and its cells are free. -/
def copySent (x : GwCopy) (s : State) : State :=
  let s := radd gwPage Reg.gateway.FORWARDED 1 (removeCopy x s)
  if x.egress ≤ 8 then radd (portPage x.egress) Reg.port.TX_FRAMES 1 s else s

/-- The queued copy of an OWN slot. -/
def ownCopy (s : State) (k : Nat) : Option GwCopy := s.gw.copies.find? fun x => x.egress == sbPort s && x.slot == some k

/-- OWN_SLOT_TX (R500, R502): the one frame of an OWN slot in this cycle. -/
def execOwnSlotTx (slot : Byte) (e : TxEnd) (s : State) : Host.Outcome State Fault Refusal :=
  .next (let k := slot.toNat
    let c := cycleNow s
    let q := sbPort s
    match ownCopy s k with
    | none => s
    | some x =>
      if sbSynced s && slotType s k == 2 && decide (k < slotCount s ∧ k ≤ slotNow s) && !(s.sb.own.contains (k, c))
          && canOnBus s q && canReg s q Reg.canPort.LISTEN_ONLY == 0 then
        let s := { s with sb := { s.sb with own := (s.sb.own.filter (·.1 ≠ k)) ++ [(k, c)] } }
        let f := x.can.getD (canOf 0 [])
        if slotNow s = k ∧ windowFits s (frameNs s q f) = true then
          match txKind e with
          | none => psLoopback x f (copySent x (send (.can q f) (txCounters q e s)))
          | some kind =>
            let s := slotFail k kind (removeCopy x (txCounters q e s))
            if e = .lostArbitration then radd sbPage Reg.siteBus.INTRUSIONS 1 s else s
        else slotFail k 4 (removeCopy x s)
      else s)

/-! ### Selective wake (R510–R513) -/

/-- WAKE_VERIFY (R511): the kept frame after TRICKLE; a failure takes the device back to DRY without a journal entry. -/
def execWakeVerify (s : State) : Host.Outcome State Fault Refusal :=
  .next (match s.ck.kept with
    | some (port, f) =>
      if hubRuns s && s.bt.running then
        let sender := beNat (sliceB f.payload 1 1)
        let s := { s with ck := { s.ck with kept := none } }
        match (if sender < 32 then canVerify (sbReg s Reg.siteBus.SB_KEY) (sbReg s Reg.siteBus.FV_BASE + 16 + sender) f s else none) with
        | some (_, s) =>
          rset sbPage Reg.siteBus.WAKE_SENDER sender { s with sb := { s.sb with acks := s.sb.acks ++ [(port, 1)] } }
        | none => wantDry .command (raise 0x7104 12 0 sender 0 s)
      else s
    | none => s)

/-- WAKE_FRAME_RX (R512): a valid wake frame that addresses the awake device. -/
def execWakeFrameRx (port : Fin 4) (f : CanFrame) (s : State) : Host.Outcome State Fault Refusal :=
  .next (let sender := beNat (sliceB f.payload 1 1)
    if canOnBus s port.val && wakePattern s port.val f && decide (sender < 32) then
      match canVerify (sbReg s Reg.siteBus.SB_KEY) (sbReg s Reg.siteBus.FV_BASE + 16 + sender) f s with
      | some (_, s) => { s with sb := { s.sb with acks := s.sb.acks ++ [(port.val, 0)] } }
      | none => s
    else s)

/-- WAKE_ACK_TX (R512): the oldest acknowledgement, in the first ARB slot on SB_PORT, at once elsewhere. -/
def execWakeAckTx (s : State) : Host.Outcome State Fault Refusal :=
  .next (match s.sb.acks with
    | (q, cause) :: more =>
      let f := fdFrame (sbReg s Reg.siteBus.WAKE_ID + 1) ([1] ++ beBytes 1 (sbReg s Reg.siteBus.MODULE_NO) ++ beBytes 1 cause)
      if canMayStart s q { f with payload := List.replicate 12 0 } then
        let s := { s with sb := { s.sb with acks := more } }
        match canSign (sbReg s Reg.siteBus.SB_KEY) (sbReg s Reg.siteBus.FV_BASE + 10) f s with
        | some (f, s) => canOut q f s
        | none => s
      else s
    | [] => s)

/-- The WAKE_SEND that executes. -/
def wakeRunning (s : State) : Bool :=
  match (hget s sbPage).cmd with
  | some r => r.final.isNone
  | none => false

/-- The end of WAKE_SEND. -/
def wakeDone (code : Nat) (s : State) : State :=
  irqPulse sbPage 11 (endCmd sbPage code { s with sb := { s.sb with wake := none } })

/-- A wake frame to the modules of a mask (R506). -/
def wakeFrame (s : State) (mask : Nat) : CanFrame :=
  { fdFrame (sbReg s Reg.siteBus.WAKE_ID) ([1] ++ beBytes 1 (sbReg s Reg.siteBus.MODULE_NO) ++ beBytes 4 mask) with brs := false }

/-- WAKE_PORT is SB_PORT in time-triggered operation. -/
def wakeOnBus (s : State) : Bool := enActive s sbPage && sbReg s Reg.siteBus.WAKE_PORT == sbPort s

/-- The next sending opportunity of a WAKE_SEND: an ARB slot that has carried none yet, or 5 ms. -/
def wakeOpportunity (s : State) (w : WakeRun) : Bool :=
  if wakeOnBus s then
    arbOpen s { wakeFrame s 0 with payload := List.replicate 16 0 } && w.slot != some (slotIndex s)
  else w.sent == 0 || passed w.last 5000000 s

/-- At an opportunity the next frame goes out, or the command ends with TIMEOUT after WAKE_TRIES frames. -/
def wakeTry (s : State) : State :=
  match s.sb.wake with
  | none => s
  | some w =>
    if !wakeRunning s then { s with sb := { s.sb with wake := none } }
    else if !wakeOpportunity s w then s
    else if sbReg s Reg.siteBus.WAKE_TRIES ≤ w.sent then wakeDone Code.timeout s
    else
      let q := sbReg s Reg.siteBus.WAKE_PORT
      let s := { s with sb := { s.sb with wake := some { w with sent := w.sent + 1, last := s.ck.dt, slot := some (slotIndex s) } } }
      if !canMayStart s q { wakeFrame s 0 with payload := List.replicate 16 0 } then s
      else
        match canSign (sbReg s Reg.siteBus.SB_KEY) (sbReg s Reg.siteBus.FV_BASE + 9) (wakeFrame s w.mask) s with
        | some (f, s) => canOut q f s
        | none => s

/-- The effect of WAKE_SEND. -/
def wakeSendEffect (r : Req) (s : State) : State :=
  if r.arg = 0 then endCmd sbPage Code.badArg s
  else wakeTry (rset sbPage Reg.siteBus.ACK_MASK 0 { s with sb := { s.sb with wake := some { mask := r.arg.toNat } } })

/-- WAKE_SEND (R513). -/
def execWakeSend (r : Req) (s : State) : Host.Outcome State Fault Refusal := .next (command sbPage 0x01 r (wakeSendEffect r) s)

/-- WAKE_SEND_REPEAT (R513). -/
def execWakeSendRepeat (s : State) : Host.Outcome State Fault Refusal := .next (wakeTry s)

/-- WAKE_ACK_RX (R513): with the last module's acknowledgement the command ends OK. -/
def execWakeAckRx (f : CanFrame) (s : State) : Host.Outcome State Fault Refusal :=
  .next (let m := beNat (sliceB f.payload 1 1)
    if gwActive s && decide (f.ident.toNat = sbReg s Reg.siteBus.WAKE_ID + 1) && !f.ide && f.fdf && decide (f.payload.length = 12)
        && decide (f.payload.head? = some 1) && decide (m < 32) then
      match canVerify (sbReg s Reg.siteBus.SB_KEY) (sbReg s Reg.siteBus.FV_BASE + 48 + m) f s with
      | some (_, s) =>
        let s := rset sbPage Reg.siteBus.ACK_MASK (putBit (sbReg s Reg.siteBus.ACK_MASK) m true) s
        match s.sb.wake with
        | some w =>
          if (bitsSet 32 w.mask).all (bitAt (sbReg s Reg.siteBus.ACK_MASK)) && wakeRunning s then wakeDone Code.ok s else s
        | none => s
      | none => s
    else s)

end Sys2Proof.Machine
end

