-- ==== Sys2Proof/Machine/SiteChannel.lean ====
section
/-! DEFINITION. Chapter 19: the commands of the site channel and of the Castle table (R539–R569). -/

namespace Sys2Proof.Machine

/-! ### Capture and pre-process -/

/-- The pipeline runs: SHADOW or LIVE, the page is ACTIVE, and the capture path holds a grant (R37, R202, R541). -/
def pipeRuns (s : State) : Bool := decide (2 ≤ siteState s) && enActive s sitePage && decide ((hget s sitePage).grant ≠ 0)

/-- CSI_FRAME_START (R547): a frame, stamped at its frame start. In LOADING and OFF frames are not looked at, and a quiesced page takes
none (R60). -/
def execCsiFrameStart (f : CamFrame) (s : State) : Host.Outcome State Fault Refusal :=
  .next (if pipeRuns s && takesWork s sitePage then camFrame f s else s)

/-- The frame whose test lines are due takes them: `lines` are those that pre-process gets. -/
def injectLines (f : PipeFrame) (lines : List (List Nat)) (s : State) : State :=
  let f' := { f with inject := true, bad := decide (lines ≠ testLines s f.num) }
  stageDone 0 f' (putFrame f' s)

/-- TEST_PATTERN_INJECT (R548). -/
def execTestPatternInject (lines : List (List Nat)) (s : State) : Host.Outcome State Fault Refusal :=
  .next (match s.sc.pipe.find? (fun f => !f.inject) with
    | some f => injectLines f lines s
    | none => s)

/-- FRAME_TIMEOUT (R547). -/
def execFrameTimeout (s : State) : Host.Outcome State Fault Refusal :=
  .next (if pipeRuns s then frameTimeout s else s)

/-- PREPROCESS_WRITE (R550). -/
def execPreprocessWrite (s : State) : Host.Outcome State Fault Refusal :=
  .next (if pipeRuns s then
      let s := ageSources s
      match preNext s.sc.pipe with
      | some f => preprocess f s
      | none => s
    else s)

/-! ### Telemetry -/

/-- TELEMETRY_RX (R552): a frame at the SITE_CHANNEL port, stamped now. -/
def execTelemetryRx (port : Fin 13) (k0 : Word) (payload : List Byte) (s : State) : Host.Outcome State Fault Refusal :=
  .next (if hubRuns s then telemetry port.val k0.toNat payload s.ck.dt s else s)

/-- SOURCE_AGE_EXPIRE (R552). -/
def execSourceAgeExpire (i : Fin 32) (s : State) : Host.Outcome State Fault Refusal :=
  .next (if scEnabled s && sourceAged s i.val then srcFail i.val 4 s else s)

/-! ### Windows, compare, publish -/

/-- STAGE_WINDOW_CLOSE (R554). -/
def execStageWindowClose (st : Fin 6) (s : State) : Host.Outcome State Fault Refusal :=
  .next (if pipeRuns s then stageClose st.val s else s)

/-- COMPARE (R559): the oldest frame for which both cores have reached END. -/
def execCompare (s : State) : Host.Outcome State Fault Refusal :=
  .next (match s.sc.pipe.find? (fun f => f.endA && f.endB && f.action.isNone) with
    | some f => compareFrame f s
    | none => s)

/-- The result in force has reached AGE_LIMIT in LIVE (R557). -/
def resultAged (s : State) : Bool :=
  siteState s == 3 && (match s.sc.inForce with
    | some t => passed t (1000000 * siteReg s Reg.siteChannel.AGE_LIMIT) s
    | none => false)

/-- The age window of the result in force that has closed castles with AGE (R557). -/
def ageResult (s : State) : State := if resultAged s then castleEnter Cause.age s else s

/-- PUBLISH (R560, R566): the oldest frame whose actions agree. One that comes at or after the close of an age window finds the window's
castling made (R14). -/
def execPublish (s : State) : Host.Outcome State Fault Refusal :=
  .next (let s := ageResult (if scEnabled s then ageSources s else s)
    match s.sc.pipe.find? (fun f => f.action.isSome) with
    | some f => publishFrame f (f.action.getD []) s
    | none => s)

/-- RESULT_AGE_EXPIRE (R557): in LIVE only. -/
def execResultAgeExpire (s : State) : Host.Outcome State Fault Refusal :=
  .next (ageResult s)

/-! ### The Castle table -/

/-- The discrete inputs of R561. -/
def discreteIn (s : State) (i : Nat) : Int :=
  let b : Bool := match i with
    | 0 => s.io.epoLatched
    | 1 => rbit s weirPage Reg.weir.SHED_ACTIVE
    | 2 => rbit s heatPage Reg.heat.TRIPPED
    | 3 => rbit s weirPage Reg.weir.THERM_CAP_VALID
    | 4 => rbit s powerPage Reg.powerState.BROWNOUT
    | 5 => decide (s.pw.mode = .flow)
    | 6 => tampered s
    | 7 => decide (siteState s = 3)
    | _ => false
  if b then 1 else 0

/-- The comparison of R561. -/
def ruleCompare (op : Nat) (x lo hi : Int) : Bool :=
  match op with
  | 0 => decide (x < lo)
  | 1 => decide (lo ≤ x)
  | 2 => decide (x = lo)
  | 3 => decide (x ≠ lo)
  | 4 => decide (lo ≤ x ∧ x ≤ hi)
  | 5 => decide (x < lo ∨ hi < x)
  | _ => false

/-- The condition of rule r (R561). -/
def ruleCondition (s : State) (r : Nat) : Bool :=
  let w := ruleWord s r 0
  let i := bitsOf w 0 6
  let cmp := fun x : Int => ruleCompare (bitsOf w 8 3) x (toInt 32 (ruleWord s r 1)) (toInt 32 (ruleWord s r 2))
  match bitsOf w 6 2 with
  | 0 => if sigOk s i then cmp (sigValue s i) else bitAt w 12
  | 1 => cmp (if sigOk s i then 1 else 0)
  | 2 => cmp (discreteIn s i)
  | _ => true

/-- One evaluation of rule r: its active state and the evaluations for which its condition has differed from it (R562). -/
def ruleStep (s : State) (r : Nat) : Bool × Nat :=
  let x := Assoc.getD s.sc.rules r (false, 0)
  if ruleCondition s r = x.1 then (x.1, 0)
  else if bitsOf (ruleWord s r 0) 16 8 ≤ x.2 then (!x.1, 0)
  else (x.1, x.2 + 1)

/-- Every rule evaluated: a rule that is not VALID is inactive. -/
def evalRules (s : State) : List (Nat × (Bool × Nat)) :=
  ((List.range 64).filter fun r => bitAt (ruleWord s r 0) 11).map fun r => (r, ruleStep s r)

/-- CASTLE_EVALUATE (R562): once in each millisecond in the protection domain. -/
def execCastleEvaluate (s : State) : Host.Outcome State Fault Refusal :=
  .next (if protRuns s && duePeriod 1000000 s.sc.lastEval s then
      let s := if scEnabled s then ageSources s else s
      withCaps applyTable { s with sc := { s.sc with rules := evalRules s, lastEval := some s.ck.dt } }
    else s)

/-- A power-state payload of the table is due (R563). -/
def psDue (s : State) : Bool :=
  match s.sc.lastPs with
  | some t => passed t (1000000 * rget s castlePage Reg.castle.PS_PERIOD) s
  | none => true

/-- CASTLE_PS_INJECT (R563). -/
def execCastlePsInject (s : State) : Host.Outcome State Fault Refusal :=
  .next (if protRuns s && castled s && decide (rget s castlePage Reg.castle.PS_PERIOD ≠ 0) && psDue s then injectTablePs s else s)

/-! ### Loading and the commands -/

/-- SC_RELOAD that executes ends with AUTH_FAIL when the load finds no valid record (R545). -/
def reloadFails (s : State) : State :=
  match (hget s sitePage).cmd with
  | some r => if r.opcode = 3 ∧ r.final = none then endCmd sitePage Code.authFail s else s
  | none => s

/-- SITE_LOAD (R544). -/
def execSiteLoad (s : State) : Host.Outcome State Fault Refusal :=
  .next (if siteState s = 1 && (siteRecord s).isNone && siteDiesUp s && siteGrants s then reloadFails (siteLoad s) else siteLoad s)

/-- CASTLE (R565, R568). -/
def execCastle (r : Req) (s : State) : Host.Outcome State Fault Refusal :=
  .next (command sitePage 0x01 r (fun s => endCmd sitePage Code.ok (castleEnter Cause.command s)) s)

/-- The effect of UNCASTLE (R566, R568). -/
def uncastleEffect (s : State) : State :=
  if castled s ∧ siteState s = 2 then endCmd sitePage Code.ok { s with sc := { s.sc with armed := true } }
  else endCmd sitePage Code.badArg s

/-- UNCASTLE (R568). -/
def execUncastle (r : Req) (s : State) : Host.Outcome State Fault Refusal :=
  .next (command sitePage 0x02 r uncastleEffect s)

/-- The effect of SC_RELOAD (R545): it ends in SHADOW, once SITE_LOAD has loaded both cores. -/
def scReloadEffect (s : State) : State :=
  let s := castleEnter Cause.command s
  match siteRecord s with
  | some a => siteUnload true true (applyPairs a s)
  | none => endCmd sitePage Code.authFail s

/-- SC_RELOAD (R545, R568). -/
def execScReload (r : Req) (s : State) : Host.Outcome State Fault Refusal :=
  .next (command sitePage 0x03 r scReloadEffect s)

end Sys2Proof.Machine
end

