-- ==== Sys2Proof/Machine/Reads.lean ====
section
/-! DEFINITION. What a read of a register shows: headers, stored fields, and the fields that show other state (R42–R73). -/

namespace Sys2Proof.Machine

/-! ### Fields that show other state -/

/-- µJ as a whole number of 64 bits, in two's complement. -/
def microJ (e : Rat) : Nat := ofInt 64 e.floor

/-- Bytes of numbers, as a number: entry 0 lowest. -/
def packBytes (xs : List Nat) : Nat := leNat (xs.map (BitVec.ofNat 8))

/-- Four entries of a map that reads 0xFF where it has none. -/
def mapWord (xs : List Nat) (w : Nat) : Nat := packBytes ((List.range 4).map fun b => xs.getD (4 * w + b) 0xFF)

/-- Clocks (R150). -/
def readTime (s : State) (f : Fld) : Nat :=
  if f = Reg.time.DT then s.ck.dt
  else if f = Reg.time.WALL_NS then (wallNs s % 1000000000).toNat
  else if f = Reg.time.WALL_SEC_LO then ofInt 32 (wallNs s / 1000000000)
  else ofInt 48 (wallNs s / 1000000000) / 2 ^ 32

/-- The Weir page (R210). -/
def readWeir (s : State) (f : Fld) : Nat :=
  if f = Reg.weir.CAP_EFF then effCap s
  else if f = Reg.weir.CAP_SRC then capSrc s
  else if f = Reg.weir.GAIN then (s.we.gain * 16384).floor.toNat
  else if f = Reg.weir.OFFSET then ofInt 32 s.we.offset.floor
  else if f = Reg.weir.GRANT_SUM then grantSum s
  else if f = Reg.weir.FLOOR_SUM then floorSum s
  else auxGrant s

/-- Energy pages (R234, R236). -/
def readEnergy (s : State) (f : Fld) (i : Nat) : Nat :=
  if f = Reg.energy.CUR_INDEX then s.en.opened.index
  else if f = Reg.energy.OLDEST_INDEX then oldestIndex s
  else if f = Reg.energy.ACC then microJ (s.en.acc.getD i 0)
  else microJ (s.en.slotAcc.getD i 0)

def readTenant (s : State) (t : Nat) (f : Fld) : Nat :=
  if f = Reg.tenantEnergy.TOTAL then microJ (s.en.acc.getD t 0)
  else if f = Reg.tenantEnergy.CUR_INDEX then s.en.opened.index
  else microJ (s.en.opened.totals.getD t 0)

/-- The die frequency page (R263). -/
def readFreq (s : State) (d : Nat) (f : Fld) (c : Nat) : Nat :=
  if f = Reg.dieFreq.REGIME then regime s (16 * d + c)
  else if f = Reg.dieFreq.K_NOW then codeOf s d c
  else if f = Reg.dieFreq.DROOP_CYC then droopCycles s (16 * d + c)
  else if f = Reg.dieFreq.MEAS_DUE then (measDue s d (c / 4)).toNat
  else if f = Reg.dieFreq.MEAS_OVERDUE then (measOver s d (c / 4)).toNat
  else if f = Reg.dieFreq.CERT then packBytes ((List.range 8).map fun p => cert s (16 * d + c) p % 64)
  else packBytes ((List.range 8).map fun p => fusedVf (16 * d + c) p % 64)

/-- The heat page (R264). -/
def readHeat (s : State) (f : Fld) : Nat :=
  if f = Reg.heat.THROTTLING then rget s weirPage Reg.weir.THERM_CAP_VALID
  else if f = Reg.heat.DR_NEXT then s.fq.nextDr
  else
    match s.fq.derates with
    | r :: _ => r.num
    | [] => s.fq.nextDr

/-- COST of a core at its present n and k (R291). -/
def costNow (s : State) (g : Nat) : Nat := coreCost (nNow s g) (codeOf s (g / 16) (g % 16 / 4))

/-- The core page (R290). -/
def readCorePage (s : State) (g : Nat) (f : Fld) : Nat :=
  if f = Reg.core.SITE_RESERVED then (siteReserved s g).toNat
  else if f = Reg.core.RETAINED then (inRetention s g).toNat
  else costNow s g

/-- The sequencer page (R316). -/
def readSeq (s : State) (g : Nat) (f : Fld) (i : Nat) : Nat :=
  let r := coreRun s g
  if f = Reg.sequencer.STATE then seqState s g
  else if f = Reg.sequencer.LOOP_DEPTH then r.loops.length
  else if f = Reg.sequencer.LOOP_I then (match r.loops[i]? with
    | some l => l.i
    | none => 0)
  else maskOf 32 fun a => r.held.any fun h => h.array == a

/-- The admission page (R383). -/
def readAdmission (s : State) (f : Fld) : Nat :=
  if f = Reg.admission.FREE_CORES then (pick 192 (eligibleAny s)).length
  else if f = Reg.admission.FREE_GRANULES then freeGranules s
  else committed s

/-- A job-slot page (R384). -/
def readSlot (s : State) (j : Nat) (f : Fld) (i : Nat) : Nat :=
  let x := slotGet s j
  let v := Assoc.get s.views j
  if f = Reg.jobSlot.STATE then jobCode x.st
  else if f = Reg.jobSlot.RESTART_PENDING then x.pendingRestart.toNat
  else if f = Reg.jobSlot.TENANT then v.elim 0 (·.1)
  else if f = Reg.jobSlot.VIEW then v.elim 0 (·.2)
  else if f = Reg.jobSlot.BOUND then v.isSome.toNat
  else if f = Reg.jobSlot.JOB_ID then x.image.elim 0 (·.jobId)
  else if f = Reg.jobSlot.RUN then x.run
  else if f = Reg.jobSlot.FAULT_CAUSE then x.cause
  else if f = Reg.jobSlot.FAULT_CORE then x.fcore
  else if f = Reg.jobSlot.FAULT_DETAIL then x.fdetail
  else if f = Reg.jobSlot.FAULT_DEV then x.fdev
  else if f = Reg.jobSlot.LAST_RESULT then x.lastResult
  else if f = Reg.jobSlot.AUTO_COUNT then x.autoCount
  else if f = Reg.jobSlot.CORES then x.cores.length
  else if f = Reg.jobSlot.CORES_DONE then x.ended.length
  else if f = Reg.jobSlot.LAST_MARK then x.lastMark
  else if f = Reg.jobSlot.GRANULES then (heldGranules x).length
  else if f = Reg.jobSlot.THROTTLE then x.throttle
  else if f = Reg.jobSlot.CANAL_INT then x.canalInt
  else if f = Reg.jobSlot.STALE_SIGNALS then x.stale
  else if f = Reg.jobSlot.DIE_MAP then mapWord x.dies i
  else mapWord x.cores i

/-- The site-bus page (R514). -/
def readSiteBus (s : State) (f : Fld) : Nat :=
  if f = Reg.siteBus.STATE then sbState s
  else if f = Reg.siteBus.CYCLE then ofInt 32 (cycleNow s)
  else if f = Reg.siteBus.RATE then ofInt 32 s.sb.rate
  else if f = Reg.siteBus.GT then ofInt 64 (gtNow s).floor
  else fvGet s (rget s sbPage Reg.siteBus.FV_SEL)

/-- EPO_STAT and TAMP_STAT: a pair with a discrepancy fault is treated as asserted (R531, R538). -/
def pairStat (x : PairIn) (latched : Bool) : Nat :=
  x.a.toNat + x.b.toNat * 2 + (x.accepted || x.fault).toNat * 4 + x.timing.isSome.toNat * 8 + x.fault.toNat * 16 + latched.toNat * 32
    + x.ready.toNat * 64

def readDual (s : State) (f : Fld) : Nat :=
  if f = Reg.dualIn.EPO_STAT then pairStat s.io.epo s.io.epoLatched
  else if f = Reg.dualIn.TAMP_STAT then pairStat s.io.tamp false
  else alertSrc s

/-- The key store page (R601). -/
def readKeys (s : State) (f : Fld) : Nat :=
  if f = Reg.keyStore.SEALED then (keySealed s).toNat
  else if f = Reg.keyStore.DEV_MODE then (devMode s).toNat
  else if f = Reg.keyStore.EPOCH then epochCount s
  else (pick 128 fun n => decide ((ksGet s n).st = .valid)).length

/-- STATE of a key slot as its page shows it (R603). -/
def keyCode : KeyState → Nat
  | .empty => 0
  | .valid => 1
  | .zeroized => 2
  | .fault => 3

/-- A key slot page (R578, R603). -/
def readKeySlot (s : State) (n : Nat) (f : Fld) : Nat :=
  let k := ksGet s n
  if f = Reg.keySlot.ATTR then k.attr
  else if f = Reg.keySlot.GEN then k.gen
  else if f = Reg.keySlot.KSTATE then keyCode k.st
  else if f = Reg.keySlot.CELL then k.cell
  else if f = Reg.keySlot.KCV then (if k.st = .valid then leNat ((keyCheck k).take 3) else 0)
  else k.uses

/-- Words 8–45 of the fuse bank (R570, R604). -/
def fuseWord (s : State) (w : Nat) : Nat :=
  let f := s.fuse
  if w < 16 then idWord 12 (w - 8)
  else if w = 16 then f.denyPf0 + f.denySb * 2 ^ 16
  else if w = 17 then f.debugLock + f.tamperResp * 2 + f.mandatory * 8 + f.commission * 16
  else if w < 30 then bitsOf f.fwKeyHash (32 * (w - 18)) 32
  else if w < 34 then bitsOf f.svnFloor (32 * (w - 30)) 32
  else if w < 38 then bitsOf f.epoch (32 * (w - 34)) 32
  else bitsOf f.integrator (32 * (w - 38)) 32

/-- The event-log page (R623). -/
def readEvents (s : State) (f : Fld) : Nat :=
  if f = Reg.eventLog.FF_COUNT then s.ev.ff.length
  else if f = Reg.eventLog.RL_NEXT then s.ev.nextSeq
  else if f = Reg.eventLog.RL_LOW then (match s.ev.ring with
    | r :: rs => rs.foldl (fun m x => min m x.stamp) r.stamp
    | [] => s.ev.nextSeq)
  else if f = Reg.eventLog.OP_SECONDS then s.ev.opSec
  else s.jr.cycles

/-- NOTIFY_PEND of a page: a window shows the bits of the objects in its slots (R343). -/
def notifyWord (s : State) (p : Page) (w : Nat) : Nat :=
  if p.die < 16 then rget s p Reg.objectPage.NOTIFY_PEND w
  else maskOf 32 fun b => (pageObj s p (32 * w + b)).any (notifyBit s)

/-- A field that shows other state. -/
def derivedValue (s : State) (p : Page) (f : Fld) (i : Nat) : Nat :=
  match p.blk with
  | .directory => s.dir.length
  | .journal => if f = Reg.journal.NEXT_SEQ then s.jr.nextSeq else jOldest s
  | .powerState => powerStateCode s
  | .time => readTime s f
  | .weir => readWeir s f
  | .dieModel => if f = Reg.dieModel.COEF then Config.coef p.die (2 * i) % 2 ^ 16 + Config.coef p.die (2 * i + 1) % 2 ^ 16 * 2 ^ 16
      else (coefValid p.die).toNat
  | .energy => readEnergy s f i
  | .tenantEnergy => readTenant s p.inst f
  | .dieFreq => readFreq s p.die f i
  | .heat => readHeat s f
  | .core => readCorePage s (16 * p.die + p.inst) f
  | .sequencer => readSeq s (16 * p.die + p.inst) f i
  | .syncBank => (bankWaiters s p).length
  | .objectPage => (fun o => if f = Reg.objectPage.COUNT then o.2 else o.1) ((pageObj s p i).elim (0, 0) (objGet s))
  | .admission => readAdmission s f
  | .jobSlot => readSlot s p.inst f i
  | .stackCtrl => (s.hbm.marks.filter (·.2)).length
  | .nerius => (s.ner.sessions.filter (·.port == p.inst)).length
  | .gateway => if f = Reg.gateway.BUF_FREE then bufFree s
      else (fun v => if i % 2 = 0 then v % 2 ^ 32 else v / 2 ^ 32) (treeNode s (rget s gwPage Reg.gateway.TREE_BASE + i / 2))
  | .siteBus => readSiteBus s f
  | .aux => min (2 ^ 20 - 1) (inrushNs s i / 1000)
  | .dualIn => readDual s f
  | .castle => if f = Reg.castle.IN_CONTROL then (castled s).toNat else maskOf 64 fun r => (activeRules s).contains r
  | .keyStore => readKeys s f
  | .keySlot => readKeySlot s (16 * p.inst + i) f
  | .fuse => fuseWord s (8 + i)
  | .eventLog => readEvents s f
  | _ => 0

/-- The value of a field for a client. -/
def fieldValue (s : State) (c : Client) (p : Page) (f : Fld) (i : Nat) : Nat :=
  if f.derived then derivedValue s p f i % 2 ^ f.w
  else if f = Reg.objectPage.NOTIFY_PEND ∧ p.blk = .objectPage then notifyWord s p i
  else if f.perClient then rgetC s c p f i
  else rget s p f i

/-! ### Directories (R48–R55) -/

/-- A word of a PF0 directory entry page. -/
def dirWord (s : State) (pg off : Nat) : Nat :=
  if off < 0x040 then 0
  else
    let k := (off - 0x040) / 8
    match if k < 504 then s.dir[504 * (pg - 1) + k]? else none with
    | some e => if off % 8 = 0 then e.word0 else e.word1
    | none => 0

/-- The page that VF t's directory entry `k` names: views 0–7, then the energy page; none for an unbound view. -/
def vfViewed (s : State) (t k : Nat) : Option Page :=
  if k = 8 then some (pageOf .tenantEnergy t 12)
  else (s.views.find? fun v => v.2 == (t, k)).map fun v => slotPage v.1

/-- A word of VF t's directory page from 0x040 on (R55). -/
def vfDirWord (s : State) (t off : Nat) : Nat :=
  if off = 0x040 then 9
  else if off < 0x080 ∨ 0x080 + 72 ≤ off then 0
  else
    let k := (off - 0x080) / 8
    let q := vfViewed s t k
    if off % 8 = 0 then q.elim 0 pageId
    else
      (match q with
        | some p => (s.dir.find? fun e => decide (e.page = p)).elim 0 (·.num)
        | none => 0)
        + (if k = 8 then 4 else 5) * 2 ^ 10 + 2 ^ 14 + (k + 1) * 2 ^ 16 + 2 ^ 24

/-! ### Headers (R58–R73) -/

/-- Work that a block has outstanding: a command that executes, a stream that runs, frames that wait, a transfer. -/
def outstanding (s : State) (p : Page) : Bool :=
  (hget s p).cmd.isSome
    || (match p.blk with
        | .core | .dma => let v := seqState s (16 * p.die + p.inst); v == 1 || v == 2 || v == 3
        | .arrayGroup => (List.range 4).any fun i => !(coreRun s (16 * p.die + 4 * p.inst + i)).mma.isEmpty
        | .canPort | .ethPort | .uartPort | .pmbPort => s.gw.copies.any (·.egress == p.inst)
        | .gateway => !s.gw.copies.isEmpty
        | .nerius => s.ner.sessions.any fun x => x.port == p.inst && !(x.unacked.isEmpty && x.queue.isEmpty)
        | .siteChannel => !s.sc.pipe.isEmpty
        | _ => false)

/-- PG_STAT.ACTIVE (R47, R64, R643). A drain of a stack controller or a sync bank is the block's own (R338, R398). -/
def pgActive (s : State) (p : Page) : Bool :=
  if enHasEffect p.blk then enActive s p
  else !offline s p &&
    (match p.blk with
    | .powerState => decide (s.pw.mode = .flow)
    | .diePower => diePowered s p.die
    | .fabricPort => portPowered s p.die p.inst
    | .bridge => decide (rget s bridgePage Reg.bridge.RATE ≠ 0)
    | .stackCtrl | .syncBank => !draining s p
    | _ => true)

/-- PG_STAT (R64). -/
def pgStat (s : State) (p : Page) : Nat :=
  let h := hget s p
  (pgActive s p).toNat + (h.quiesce && !outstanding s p).toNat * 2 + (draining s p).toNat * 4 + h.fault.toNat * 8
    + (grantOk s p).toNat * 16 + (decide (h.lock ≠ 0)).toNat * 32 + (offline s p).toNat * 64 + h.cmd.isSome.toNat * 128

/-- PG_CTRL (R60). -/
def pgCtrl (h : Header) : Nat := h.en.toNat + h.quiesce.toNat * 2 + h.drainReq.toNat * 4 + h.resetReq.toNat * 8

/-- A word of the common header for a client (R58). -/
def headerWord (s : State) (c : Client) (p : Page) (off : Nat) : Nat :=
  let h := hget s p
  let x := cget s p c
  match off with
  | 0x000 => pageId p
  | 0x004 => (Config.pgCaps p).toNat
  | 0x008 => pgCtrl h
  | 0x00C => pgStat s p
  | 0x010 => h.irqRaw
  | 0x014 => h.irqStat
  | 0x018 => h.irqEn
  | 0x01C => h.errCode + h.errCount * 2 ^ 16
  | 0x020 => h.allotReq
  | 0x024 => h.grant
  | 0x028 => if offline s p then 0 else h.draw
  | 0x02C => h.lock
  | 0x030 => x.cmd
  | 0x034 => x.arg
  | 0x038 => x.tag
  | 0x03C => x.result
  | _ => 0

/-! ### Words (R58, R71) -/

/-- The 64-bit field whose low word is at `off`, with its index. -/
def counterAt (b : Block) (off : Nat) : Option FieldAt := (fieldsAt b off).find? fun x => decide (32 < x.fld.w) && !x.fld.live && x.half == 0

/-- A block-specific word: a high word of a counter shows the client's latch, the seconds of the wall clock those latched
with WALL_NS (R71, R150). -/
def blockWord (s : State) (c : Client) (p : Page) (off : Nat) : Nat :=
  if p.blk = .directory ∧ 16 ≤ p.inst then vfDirWord s (p.inst - 16) off
  else if p.blk = .directory ∧ 1 ≤ p.inst then dirWord s p.inst off
  else if p.blk = .time ∧ off = 0x050 then (cget s p c).wall % 2 ^ 32
  else if p.blk = .time ∧ off = 0x054 then (cget s p c).wall / 2 ^ 32
  else if p.blk = .stackCtrl ∧ p.die ≠ 0 ∧ off = 0x058 then 0
  else if (fieldsAt p.blk off).any fun x => x.half == 1 && !x.fld.live then (cget s p c).latch
  else (fieldsAt p.blk off).foldl (fun a x => a + x.part (fieldValue s c p x.fld x.idx)) 0

/-- A word of page `p` as client `c` reads it: zero where the fuses deny the class, block registers zero while the page is
OFFLINE (R47, R573). -/
def readWord (s : State) (c : Client) (p : Page) (off : Nat) : Nat :=
  if fuseDenied s c p.blk || windowIdle s p then 0
  else if off < 0x040 then headerWord s c p off
  else if offline s p then 0
  else blockWord s c p off

end Sys2Proof.Machine
end

