-- ==== Sys2Proof/Machine/Effects.lean ====
section
/-! DEFINITION. The effect of each command by its page and opcode, for a PG_CMD write that waited under R81 or that came as a
register write (R74, R75, R81). -/

namespace Sys2Proof.Machine

/-- The commands of the boot page (R178). -/
def bootEffect (op : Nat) (r : Req) (s : State) : State :=
  match op with
  | 1 => fwUpdateEffect r s
  | 2 => fwConfirmEffect r s
  | 3 => fwRejectEffect r s
  | _ => hubResetEffect r s

/-- The commands of a job-slot page (R385). -/
def slotEffect (j op : Nat) (r : Req) (s : State) : State :=
  match op with
  | 1 => admQueue { slot := j, load := true, peer := none } s
  | 2 => startEffect j r s
  | 3 => cancelEffect j r s
  | 4 => restartEffect j r s
  | _ => releaseEffect j r s

/-- The commands of the gateway page (R483). -/
def gatewayEffect (op : Nat) (r : Req) (s : State) : State :=
  match op with
  | 1 => routeSetEffect r s
  | 2 => routeGetEffect r s
  | 3 => rootSetEffect r s
  | _ => gwSaveEffect r s

/-- The commands of the key store page (R602). -/
def keyEffect (op : Nat) (r : Req) (s : State) : State :=
  match op with
  | 1 => keyGenEffect r s
  | 2 => keyImportEffect r s
  | 3 => keyExportEffect r s
  | 4 => keyDeriveEffect r s
  | 5 => keyAgreeEffect r s
  | 6 => keyDeleteEffect r s
  | 7 => attestEffect r s
  | 8 => challengeEffect r s
  | 9 => zeroizeEffect r s
  | 10 => tamperClearEffect r s
  | _ => getPubEffect r s

/-- The effect of opcode `op` on page `p`, which defines it. `host` and `data` are the host's completions for an XFER. -/
def effectOf (p : Page) (op : Nat) (r : Req) (host : HostCpl) (data : List Byte) (s : State) : State :=
  match p.blk with
  | .powerState => if op = 1 then dieUpEffect r s else if op = 2 then dieDownEffect r s else enterDryEffect r s
  | .time => wallSetEffect r s
  | .boot => bootEffect op r s
  | .spiNor => if op = 1 then flReadEffect r s else if op = 2 then flEraseEffect r s else flProgramEffect r s
  | .weir => setHostCapEffect r s
  | .energy => closeNowEffect r s
  | .dieFreq => if op = 1 then measureEffect p.die r s else derateEffect p.die r s
  | .heat => withCaps (tripClearEffect r) s
  | .admission => bindEffect r s
  | .jobSlot => slotEffect p.inst op r s
  | .bridgeDma => xferEffect p.inst r host data s
  | .gateway => gatewayEffect op r s
  | .siteBus => wakeSendEffect r s
  | .aux => if op = 1 then auxSetEffect r s else auxClearEffect r s
  | .dualIn => if op = 1 then epoResetEffect r s else discClearEffect r s
  | .siteChannel =>
    if op = 1 then endCmd sitePage Code.ok (castleEnter Cause.command s)
    else if op = 2 then uncastleEffect s else scReloadEffect s
  | .keyStore => keyEffect op r s
  | .fuse => fuseProgramEffect r s
  | .eventLog => ffClearEffect r s
  | _ => endCmd p Code.badOpcode s

/-- The end of what still executes behind page `p` when the command's time has come: the new image's report (R167) and the
flash's end of busy (R172). Other commands without a code yet wait for their own events. -/
def settleCmd (p : Page) (s : State) : State :=
  if p = bootPage then
    match s.bt.update with
    | some u => updateDone u s
    | none => s
  else if p = spiPage then
    match s.bt.busy with
    | some f => flashDone f s
    | none => s
  else s

/-- COMMAND_COMPLETE (R88). -/
def execCommandComplete (p : Page) (s : State) : Host.Outcome State Fault Refusal :=
  .next (match (if hubRuns s then (hget s p).cmd else none) with
    | some r =>
      let s := if r.final.isNone then settleCmd p s else s
      match (hget s p).cmd.bind (·.final) with
      | some code => finishCmd p code s
      | none => s
    | none => s)

end Sys2Proof.Machine
end

