-- ==== Sys2Proof/Machine/Control.lean ====
section
/-! DEFINITION. PG_CTRL and the rest of the common header as commands: enable, disable, quiesce, drain, reset, allotments,
interrupts, errors, locks (R47, R58–R68, R293, R643). -/

namespace Sys2Proof.Machine

/-- A client's write to a header word of page `p` (R45–R47, R56, R573). -/
def headerWrite (c : Client) (p : Page) (off : Nat) (f : State → State) (s : State) : State := reaches c p off f s

/-! ### What a block does when EN changes -/

/-- The code that keeps EN at 0 beside R61: a site-bus layout, a tensor or a UART set-up that its chapter refuses (R484, R490,
R549). -/
def enableBad (s : State) (p : Page) : Bool :=
  match p.blk with
  | .siteBus => !layoutOk s
  | .siteChannel => decide (65536 < (tensorSize s).1 * (tensorSize s).2)
  | .uartPort => rget s p Reg.uartPort.MODE == 1 && decide (rget s p Reg.uartPort.SILENCE < 100)
  | _ => false

/-- The block leaves its off state (R416, R485, R517, R539). -/
def blockOn (p : Page) (s : State) : State :=
  match p.blk with
  | .siteBus => sbOn s
  | .siteChannel => withCaps siteOn s
  | .aux => (List.range 8).foldl (fun s n => if demanded s n then chStart n s else s) s
  | .nerius => if enActive s p then trainStart p.inst s else s
  | _ => s

/-- The cores that a core, DMA or array-group page serves. -/
def servedCores (p : Page) : List Nat :=
  match p.blk with
  | .core | .dma => [16 * p.die + p.inst]
  | .arrayGroup => (List.range 4).map fun i => 16 * p.die + 4 * p.inst + i
  | _ => []

/-- The jobs of the cores that the page serves are faulted (R292); a reserved core is no longer loaded. -/
def faultServed (p : Page) (s : State) : State :=
  (servedCores p).foldl (fun s g =>
    let s := faultCore g 3 0 s
    if siteReserved s g && !coreAssigned s g then siteUnload (g == 0) (g == 96) (stopCore g s) else s) s

/-- EN goes to 0 while the block runs (R292, R402, R537, R539). -/
def blockOff (p : Page) (s : State) : State :=
  match p.blk with
  | .core | .dma | .arrayGroup => faultServed p s
  | .siteChannel => withCaps siteOff s
  | .aux => allChannelsOff false s
  | .nerius => faultPort p.inst (portLeaves p.inst 0 s) 3
  | _ => s

/-- The header of a page with a change. -/
def hmod (p : Page) (f : Header → Header) (s : State) : State := hset p (f (hget s p)) s

/-- The block takes its state from EN now: it is in neither drain nor reset. -/
def enRuns (s : State) (p : Page) : Bool := enHasEffect p.blk && !offline s p && !draining s p

/-- The block takes its state from EN and has its ramp room (R187). -/
def enStands (s : State) (p : Page) : Bool := enRuns s p && !s.we.ramp.contains p

/-- EN written 1 (R61): the block leaves its off state, or waits for ramp room (R187). -/
def enableBlock (p : Page) (s : State) : State :=
  if (hget s p).en then s
  else if !grantOk s p then pgErr p Code.noGrant s
  else if enableBad s p then pgErr p Code.badArg s
  else
    let s := hmod p (fun h => { h with en := true }) s
    if enHasEffect p.blk then
      let s := rampEnter p s
      if enStands s p then blockOn p s else s
    else s

/-- EN written 0 (R539, R575). -/
def disableBlock (p : Page) (s : State) : State :=
  if p.blk = .siteChannel ∧ s.fuseOn.mandatory = 1 then pgErr p Code.deniedFuse s
  else if !(hget s p).en then s
  else
    let run := enStands s p
    let s := rampLeave p (hmod p (fun h => { h with en := false }) s)
    if run then blockOff p s else s

/-! ### Drain (R62, R338, R339, R398) -/

/-- The pages that a drain or a reset of `p` takes: both of a stack's controllers (R398). -/
def togetherWith (p : Page) : List Page :=
  match p.blk with
  | .stackCtrl => [stackPage (p.die / 2 * 2), stackPage (p.die / 2 * 2 + 1)]
  | _ => [p]

/-- A drain of the page acts on the page alone (R643). -/
def pageAlone (b : Block) : Bool := !enHasEffect b && decide (b ≠ .syncBank) && decide (b ≠ .stackCtrl)

/-- A slot holds a granule of stack `k`. -/
def usesStack (k : Nat) (x : Slot) : Bool := holdsCores x.st && (heldGranules x).any fun g => g / stackGranules == k

/-- A slot owns an object of bank `b`. -/
def usesBank (b : Page) (x : Slot) : Bool := holdsCores x.st && x.objs.any fun o => inBank b o.2

/-- What enters drain with the page: jobs that use the block are faulted, waiters and copies go, links fall. -/
def drainHook (p : Page) (s : State) : State :=
  match p.blk with
  | .core | .dma | .arrayGroup => faultServed p s
  | .stackCtrl => faultWhere (usesStack (p.die / 2)) 3 s
  | .syncBank => poisonWaiters p (faultWhere (usesBank p) 3 s)
  | .nerius => faultPort p.inst (portLeaves p.inst 0 s) 3
  | .gateway => drainCopies (fun _ => true) s
  | .canPort | .ethPort | .uartPort | .pmbPort => drainCopies (fun x => x.egress == p.inst) s
  | .siteChannel => if castled s then s else castleEnter Cause.command s
  | .dieFreq => (List.range 4).foldl (fun s q => abortMeas (4 * p.die + q) s) s
  | .bridgeDma => { s with br := { s.br with xfers := s.br.xfers.filter (·.1 ≠ p.inst) } }
  | .powerState => { s with pw := { s.pw with upQueue := [] } }
  | .spiNor => (match s.bt.busy with
    | some f => flashDone f s
    | none => s)
  | _ => s

/-! ### Reset (R63, R95, R121, R152, R342, R399, R447, R569, R643) -/

/-- Read-only fields that are the page's own records and not the state of the block behind it: counts and last values
(R643; log entry 18). -/
def pageRecords (b : Block) (f : Fld) : Bool :=
  match b with
  | .time => [Reg.time.PTP_OFFSET, Reg.time.LAST_STEP].contains f
  | .weir => [Reg.weir.THROTTLED, Reg.weir.EXCURSIONS, Reg.weir.SHEDS].contains f
  | .dieModel => f == Reg.dieModel.CNT
  | .sequencer => f == Reg.sequencer.RETIRED
  | .admission => [Reg.admission.LAST_EVALS, Reg.admission.REFUSALS].contains f
  | .bridgeDma => f == Reg.bridgeDma.BYTES_DONE
  | .dualIn => [Reg.dualIn.EPO_TIME, Reg.dualIn.TAMP_TIME, Reg.dualIn.EPO_DFAULTS, Reg.dualIn.TAMP_DFAULTS].contains f
  | .tamper => [Reg.tamper.TAMPERS, Reg.tamper.BIST_FAILS].contains f
  | .eventLog => [Reg.eventLog.LOST, Reg.eventLog.OVERWRITES].contains f
  | _ => false

/-- The fields of the page that a reset through RESET_REQ keeps. -/
def resetKeeps (p : Page) (f : Fld) : Bool :=
  match p.blk with
  | .syncBank => f == Reg.syncBank.EPOCH
  | .stackCtrl => f == Reg.stackCtrl.HOST_GRANULES
  | .dieFreq => [Reg.dieFreq.N_NOW, Reg.dieFreq.REGIME, Reg.dieFreq.K_NOW, Reg.dieFreq.OP_HOURS, Reg.dieFreq.LAST_MEAS,
                 Reg.dieFreq.TEMP].contains f
  | .keyStore => [Reg.keyStore.TAMPERED, Reg.keyStore.ENTROPY_FAIL, Reg.keyStore.LOADED].contains f
  | .wake | .castle => true
  | .bridge => [Reg.bridge.RATE, Reg.bridge.WIDTH].contains f
  | b => !enHasEffect b && f.acc == .ro && !f.perClient && !pageRecords b f

/-- What stands beside the registers of a page and returns with them; the gateway's NODE window shows the tree (R483). -/
def resetHook (p : Page) (s : State) : State :=
  match p.blk with
  | .powerState => rset powerPage Reg.powerState.V48_MIN (v48 s) s
  | .objectPage => irqLevel p 8 false s
  | .aux => { s with io := { s.io with aux := [] } }
  | .gateway => { s with gw := { s.gw with nodes := [], buckets := s.gw.buckets.filter (128 ≤ ·.1) } }
  | _ => s

/-- The registers of the page back at their reset values. A changed cap, rate or vector route takes effect. -/
def resetRegs (p : Page) (s : State) : State :=
  let f := fun s => resetHook p (rclear p (resetKeeps p) s)
  match p.blk with
  | .time => f (reanchor s)
  | .weir | .castle => withCaps f s
  | .bridge => irqSettle s (f s)
  | _ => f s

/-- The site channel ends, unless it is off. -/
def siteQuit (s : State) : State := if siteState s = 0 then s else withCaps siteOff s

/-- The block is off: EN = 0, no request, a new epoch, the outputs of the block at rest (R62, R63, R342). -/
def offState (p : Page) (s : State) : State :=
  let s := rampLeave p (irqLevel p 4 false (hmod p (fun h => { h with phase := .run, en := false, quiesce := false, drainReq := false,
                                                                      resetReq := false, epoch := nextEpoch h.epoch }) s))
  match p.blk with
  | .syncBank => bankEnd p s
  | .siteChannel => (fun s => if s.fuseOn.mandatory = 1 then withCaps siteOn s else s) (siteQuit s)
  | .aux => allChannelsOff false s
  | _ => s

/-- The reset of a page starts: its drain has completed (R63). -/
def startReset (p : Page) (s : State) : State :=
  let s := match p.blk with
    | .siteChannel => siteQuit s
    | .aux => allChannelsOff false s
    | _ => s
  let s := hmod p (fun h => { h with phase := .inReset, since := s.ck.dt, en := false, quiesce := false, drainReq := false, irqStat := 0,
                                     irqRaw := putBit (putBit h.irqRaw 3 false) 4 false, errCode := 0, errCount := 0, fault := false,
                                     lock := if lockOwnerIsBlock p.blk then 0 else h.lock }) s
  sitePowerCheck (withCaps (requestAllot p 0) (rampLeave p (resetRegs p s)))

/-- The drain of a page completes (R62). -/
def completeDrain (p : Page) (s : State) : State :=
  let h := hget s p
  if h.phase ≠ .draining then s
  else if h.resetReq then startReset p s
  else if h.drainReq then irqLevel p 4 true (hmod p (fun h => { h with phase := .drained }) s)
  else offState p (irqPulse p 4 s)

/-- A page enters drain (R62, R77): the executing command ends with ABORTED. -/
def startDrain (p : Page) (s : State) : State :=
  if (hget s p).phase ≠ .run then s
  else
    let s := drainHook p (abortCmd p (rampLeave p (hmod p (fun h => { h with phase := .draining, since := s.ck.dt }) s)))
    if pageAlone p.blk then completeDrain p s else s

/-- DRAIN_REQ written 1. In reset the shadow keeps the request until the block comes out of reset (R47). -/
def drainBlock (p : Page) (s : State) : State :=
  (togetherWith p).foldl (fun s q => startDrain q (hmod q (fun h => { h with drainReq := true }) s)) s

/-- DRAIN_REQ written 0 (R62). -/
def clearDrain (p : Page) (s : State) : State :=
  (togetherWith p).foldl (fun s q =>
    if !(hget s q).drainReq then s
    else if (hget s q).phase = .drained then offState q s
    else hmod q (fun h => { h with drainReq := false }) s) s

/-- RESET_REQ written 1 (R63). -/
def resetBlock (p : Page) (s : State) : State :=
  (togetherWith p).foldl (fun s q =>
    let h := hget s q
    let s := hmod q (fun h => { h with resetReq := true }) s
    if h.phase = .drained then startReset q s
    else if h.phase = .run then startDrain q s
    else s) s

/-- QUIESCE_REQ written. -/
def quiesceBlock (p : Page) (on : Bool) (s : State) : State := hmod p (fun h => { h with quiesce := on }) s

/-- A write to PG_CTRL as a whole (R60, R61): of several request bits the highest acts and the lower bits stay as they were;
a write of one bit alone writes the others 0. A reset ends in the off state, so it takes nothing else. -/
def ctrlWrite (p : Page) (v : Nat) (s : State) : State :=
  if bitAt v 3 then resetBlock p s
  else if bitAt v 2 then
    let s := drainBlock p s
    if v % 4 = 0 then disableBlock p (quiesceBlock p false s) else s
  else
    let s := clearDrain p s
    if bitAt v 1 then
      let s := quiesceBlock p true s
      if bitAt v 0 then s else disableBlock p s
    else
      let s := quiesceBlock p false s
      if bitAt v 0 then enableBlock p s else disableBlock p s

/-- A row of PG_CTRL: one request bit and no other (R60–R63). -/
def ctrlTake (p : Page) (a : CtrlReq) (s : State) : State :=
  match a with
  | .enable => enableBlock p s
  | .disable => disableBlock p s
  | .quiesce on => quiesceBlock p on s
  | .drain => drainBlock p s
  | .drainClear => clearDrain p s
  | .reset => resetBlock p s

/-! ### Access to PG_CTRL and PG_ALLOT_REQ (R56, R293) -/

/-- The hub owns the page while the site channel is enabled (R293). -/
def hubOwns (s : State) (p : Page) : Bool := scEnabled s && sitePages.any fun x => decide (x.1 = p)

/-- A write to PG_CTRL or PG_ALLOT_REQ that a VF's view of a PF0 page does not take (a VF's own directory page and its windows
are no views), and that PF0 may not make on the hub's pages. -/
def ownedWrite (c : Client) (p : Page) (off : Nat) (f : State → State) (s : State) : State :=
  headerWrite c p off (fun s =>
    if c.isVf && isView p.blk then s
    else if c = .pf0 ∧ hubOwns s p = true then pgErr p Code.locked s
    else f s) s

/-- BLOCK_ENABLE (R61). -/
def execBlockEnable (c : Client) (p : Page) (s : State) : Host.Outcome State Fault Refusal :=
  .next (inOrder c p (.ctrl .enable) (ownedWrite c p 0x008 (ctrlTake p .enable)) s)

/-- BLOCK_DISABLE (R60). -/
def execBlockDisable (c : Client) (p : Page) (s : State) : Host.Outcome State Fault Refusal :=
  .next (inOrder c p (.ctrl .disable) (ownedWrite c p 0x008 (ctrlTake p .disable)) s)

/-- QUIESCE_REQ (R60). -/
def execQuiesceReq (c : Client) (p : Page) (on : Bool) (s : State) : Host.Outcome State Fault Refusal :=
  .next (inOrder c p (.ctrl (.quiesce on)) (ownedWrite c p 0x008 (ctrlTake p (.quiesce on))) s)

/-- DRAIN_REQ (R62). -/
def execDrainReq (c : Client) (p : Page) (s : State) : Host.Outcome State Fault Refusal :=
  .next (inOrder c p (.ctrl .drain) (ownedWrite c p 0x008 (ctrlTake p .drain)) s)

/-- DRAIN_CLEAR (R62). -/
def execDrainClear (c : Client) (p : Page) (s : State) : Host.Outcome State Fault Refusal :=
  .next (inOrder c p (.ctrl .drainClear) (ownedWrite c p 0x008 (ctrlTake p .drainClear)) s)

/-- DRAIN_COMPLETE (R62, R338). -/
def execDrainComplete (p : Page) (s : State) : Host.Outcome State Fault Refusal :=
  .next ((togetherWith p).foldl (fun s q => completeDrain q s) s)

/-- RESET_REQ (R63). -/
def execResetReq (c : Client) (p : Page) (s : State) : Host.Outcome State Fault Refusal :=
  .next (inOrder c p (.ctrl .reset) (ownedWrite c p 0x008 (ctrlTake p .reset)) s)

/-- A reset ends (R63): the off state with EN = 0, and the requests that the shadow took meanwhile apply (R47). The hub asks
again for the pages it holds for the site channel (R541). -/
def endReset (p : Page) (s : State) : State :=
  if (hget s p).phase ≠ .inReset then s
  else
    let h := hget s p
    let s := hmod p (fun x => { x with quiesce := h.quiesce, drainReq := h.drainReq }) (offState p s)
    let s := if h.drainReq then startDrain p s else s
    match (if scEnabled s then sitePages.find? fun x => decide (x.1 = p) else none) with
    | some x => withCaps (requestAllot p x.2) s
    | none => s

/-- RESET_END (R63). -/
def execResetEnd (p : Page) (s : State) : Host.Outcome State Fault Refusal :=
  .next ((togetherWith p).foldl (fun s q => endReset q s) s)

/-! ### The rest of the header -/

/-- A write to PG_ALLOT_REQ (R65, R184). -/
def allotWrite (p : Page) (v : Nat) (s : State) : State := sitePowerCheck (withCaps (requestAllot p v) s)

/-- ALLOT_REQUEST. -/
def execAllotRequest (c : Client) (p : Page) (v : Word) (s : State) : Host.Outcome State Fault Refusal :=
  .next (inOrder c p (.write 0x020 v.toNat) (ownedWrite c p 0x020 (allotWrite p v.toNat)) s)

/-- ALLOT_GRANT (R184): a waiting request is examined at a correction step. -/
def execAllotGrant (p : Page) (s : State) : Host.Outcome State Fault Refusal :=
  .next (if protRuns s && decide (s.we.lastStep = some s.ck.dt) then withCaps (grantWaiting p) s else s)

/-- RAMP_ROOM_ENABLE (R187): a block, quadrant or die that waits leaves its off state once the limiter has room. -/
def execRampRoomEnable (p : Page) (s : State) : Host.Outcome State Fault Refusal :=
  .next (if s.we.ramp.contains p && rampRoom s (atV48 s (hget s p).allotReq) then
      let s := rampLeave p (takeRoom (atV48 s (hget s p).allotReq) s)
      if (hget s p).en && enStands s p then blockOn p s else s
    else s)

/-- A W1C write to PG_IRQ_STAT (R66). -/
def irqStatWrite (p : Page) (v : Nat) (s : State) : State :=
  hupd p (fun h => { h with irqStat := h.irqStat &&& (v ^^^ 0xFFFFFFFF) }) s

def execIrqStatClear (c : Client) (p : Page) (v : Word) (s : State) : Host.Outcome State Fault Refusal :=
  .next (inOrder c p (.write 0x014 v.toNat) (headerWrite c p 0x014 (irqStatWrite p v.toNat)) s)

/-- A W1C write to PG_ERR (R67). -/
def errWrite (p : Page) (v : Nat) (s : State) : State :=
  let u := v ^^^ 0xFFFFFFFF
  hmod p (fun h => { h with errCode := h.errCode &&& u, errCount := h.errCount &&& (u / 2 ^ 16) }) s

def execPgErrClear (c : Client) (p : Page) (v : Word) (s : State) : Host.Outcome State Fault Refusal :=
  .next (inOrder c p (.write 0x01C v.toNat) (headerWrite c p 0x01C (errWrite p v.toNat)) s)

/-- The lock bits that the page defines (R68, R568). -/
def lockMask (b : Block) : Nat :=
  if b = .siteChannel then 3 else if (regsOf b).any fun f => f.lock.isSome then 1 else 0

/-- A W1S write to PG_LOCK (R47, R68). -/
def lockWrite (p : Page) (v : Nat) (s : State) : State :=
  if offline s p then pgErr p Code.offline s
  else hmod p (fun h => { h with lock := h.lock ||| (v &&& lockMask p.blk) }) s

/-- A client's write to PG_LOCK; a view's is read-only (R56). -/
def lockTake (c : Client) (p : Page) (v : Nat) (s : State) : State :=
  headerWrite c p 0x02C (fun s => if c.isVf && isView p.blk then s else lockWrite p v s) s

/-- LOCK_SET. -/
def execLockSet (c : Client) (p : Page) (v : Word) (s : State) : Host.Outcome State Fault Refusal :=
  .next (inOrder c p (.write 0x02C v.toNat) (lockTake c p v.toNat) s)

/-- PG_IRQ_EN written: its reserved bits stay zero (R16, R66). -/
def irqEnWrite (p : Page) (v : Nat) (s : State) : State := hupd p (fun h => { h with irqEn := v &&& irqMask p.blk }) s

/-- PG_CMD_ARG and PG_CMD_TAG of the client's context (R73). -/
def argWrite (c : Client) (p : Page) (v : Nat) (s : State) : State := cset p c { cget s p c with arg := v } s
def tagWrite (c : Client) (p : Page) (v : Nat) (s : State) : State := cset p c { cget s p c with tag := v } s

end Sys2Proof.Machine
end

