-- ==== Sys2Proof/Machine/Registers.lean ====
section
/-! DEFINITION. Register writes by address: what each block-specific word takes, broadcast writes, the latch of a 64-bit read,
and the fetch of a journal entry (R42–R47, R54–R57, R68–R72, R94). -/

namespace Sys2Proof.Machine

/-! ### Addresses -/

/-- What an address names. -/
inductive Place where
  | unlisted (head : Page)
  | page (p : Page)
deriving DecidableEq, Repr

/-- The page that an address of client `c` names: control space for PF0, firmware and the site bus, BAR0 for a VF (R42, R46, R54). -/
def placeOf (s : State) (c : Client) (a : Nat) : Place :=
  match c with
  | .vf i =>
    let t := i.val + 1
    let k := a / 4096
    if k = 0 then .page (vfHead t)
    else if k = 9 then .page (pageOf .tenantEnergy t 12)
    else if 16 ≤ k ∧ k < 256 then .page (winPage t ((k - 16) / 30) ((k - 16) % 30))
    else
      match (if k ≤ 8 then s.views.find? fun v => v.2 == (t, k - 1) else none) with
      | some v => .page (slotPage v.1)
      | none => .unlisted (vfHead t)
  | _ =>
    match s.dir.find? fun e => e.page.die == a / 2 ^ 22 && e.num == a / 2 ^ 12 % 1024 with
    | some e => .page e.page
    | none => .unlisted headPage

/-! ### The journal's read buffer (R84, R94) -/

/-- The eight words of an entry. -/
def entryWords (e : JEntry) : List Nat :=
  [e.seq % 2 ^ 32, e.time % 2 ^ 32, e.time / 2 ^ 32 % 2 ^ 32, e.addr % 2 ^ 24 + e.seq / 2 ^ 32 % 2 ^ 8 * 2 ^ 24,
   e.result % 2 ^ 16 + e.func * 2 ^ 16 + e.src * 2 ^ 21
     + (match e.kind with
        | .command => 0
        | .completion => 1
        | .mark => 2
        | .void => 3) * 2 ^ 23 + e.seq / 2 ^ 40 % 2 ^ 7 * 2 ^ 25,
   e.value % 2 ^ 32, e.arg % 2 ^ 32, e.tag % 2 ^ 32]

/-- What a fetch of number `q` gives: RD_STAT and the words. -/
def journalRead (s : State) (q : Nat) : Nat × List Nat :=
  let none_ := List.replicate 8 0
  if s.jr.nextSeq ≤ q then (2, none_)
  else if q < jOldest s ∨ q = 0 then (1, none_)
  else if s.jr.writing = some q then (2, none_)
  else
    match jEntry s q with
    | some e => if e.kind = .void then (3, none_) else (0, entryWords e)
    | none => (3, none_)

/-- The fetch that a write to RD_SEQ_HI starts. -/
def journalFetch (c : Client) (hi : Nat) (s : State) : State :=
  let s := rsetC c journalPage Reg.journal.RD_SEQ_HI hi s
  let x := journalRead s (rgetC s c journalPage Reg.journal.RD_SEQ_HI * 2 ^ 32 + rgetC s c journalPage Reg.journal.RD_SEQ_LO)
  rsetCs c journalPage Reg.journal.RD_W x.2 (rsetC c journalPage Reg.journal.RD_STAT x.1 s)

/-- JOURNAL_FETCH (R94). -/
def execJournalFetch (c : Client) (hi : Word) (s : State) : Host.Outcome State Fault Refusal :=
  .next (inOrder c journalPage (.write 0x054 hi.toNat) (blockWrite c journalPage 0x054 (journalFetch c hi.toNat)) s)

/-! ### Block-specific words -/

/-- The part of a written word that falls on one field: stored, the client's own, or cleared by ones (R16, R71). -/
def takeField (c : Client) (p : Page) (v : Nat) (x : FieldAt) (s : State) : State :=
  if x.fld.acc = .ro ∨ x.fld.derived = true then s
  else if x.fld.perClient then rsetC c p x.fld (x.bits v) s x.idx
  else if x.fld.acc = .w1c then rset p x.fld (rget s p x.fld x.idx &&& (x.bits v ^^^ (2 ^ x.fld.w - 1))) s x.idx
  else putField p x v s

/-- Every field of the word at `off`. -/
def takeWord (c : Client) (p : Page) (off v : Nat) (s : State) : State :=
  (fieldsAt p.blk off).foldl (fun s x => takeField c p v x s) s

/-- A word with its lock and its range checked (R68; the ranges of the register tables). -/
def plainWrite (c : Client) (p : Page) (off v : Nat) (s : State) : State :=
  if wordLocked s p off then pgErr p Code.locked s
  else if !wordOk s p off v then pgErr p Code.badArg s
  else takeWord c p off v s

/-- The word holds configuration under a lock. -/
def isConfig (b : Block) (off : Nat) : Bool := (fieldsAt b off).any fun x => x.fld.acc == .rwl

/-- The word has a field that a write can change (R70). -/
def takesWrite (b : Block) (off : Nat) : Bool := (fieldsAt b off).any fun x => x.fld.acc != .ro && !x.fld.derived

/-- RATE_ADJ (R150): only free-running or under the host, clamped; the wall clock goes on from where it stands. -/
def rateWrite (v : Nat) (s : State) : State :=
  if srcSel s = 2 ∨ srcSel s = 3 then pgErr timePage Code.badArg s
  else rset timePage Reg.time.RATE_ADJ (ofInt 32 (clampRate (toInt 32 v))) (reanchor s)

/-- One half of a tree node through the window at TREE_BASE (R461, R483). -/
def nodeWrite (off v : Nat) (s : State) : State :=
  let i := rget s gwPage Reg.gateway.TREE_BASE + (off - 0xC00) / 8
  let old := treeNode s i
  let new := if off % 8 = 0 then old / 2 ^ 32 * 2 ^ 32 + v % 2 ^ 32 else old % 2 ^ 32 + v % 2 ^ 32 * 2 ^ 32
  if bitAt (hget s gwPage).lock 0 then pgErr gwPage Code.locked s
  else { s with gw := { s.gw with nodes := Assoc.set s.gw.nodes i new } }

/-- A word of the gateway page; a rewritten limiter starts with a full bucket. -/
def gatewayWrite (c : Client) (off v : Nat) (s : State) : State :=
  if 0xC00 ≤ off then nodeWrite off v s
  else if 0x500 ≤ off ∧ off < 0x900 then
    let t := plainWrite c gwPage off v s
    if wordLocked s gwPage off then t
    else { t with gw := { t.gw with buckets := t.gw.buckets.filter (·.1 ≠ (off - 0x500) / 8) } }
  else plainWrite c gwPage off v s

/-- The configuration of the site channel while EN = 1: only the source and signal tables (R568). -/
def siteWrite (c : Client) (off v : Nat) (s : State) : State :=
  if scEnabled s && isConfig .siteChannel off && !decide (0x100 ≤ off ∧ off < 0x500) then
    (if wordLocked s sitePage off then pgErr sitePage Code.locked s else pgErr sitePage Code.badArg s)
  else plainWrite c sitePage off v s

/-- The configuration words of an aux channel: only while it is OFF or in FAULT (R537). While EPO_LATCHED = 1 a channel that EPO_MASK
comes to name goes OFF (R527). -/
def auxWrite (c : Client) (off v : Nat) (s : State) : State :=
  let n := (off - 0x100) / 32
  if 0x100 ≤ off ∧ isConfig .aux off = true ∧ chState s n ≠ 0 ∧ chState s n ≠ 6 then
    (if wordLocked s auxPage off then pgErr auxPage Code.locked s else pgErr auxPage Code.badArg s)
  else
    let t := plainWrite c auxPage off v s
    if off = 0x044 ∧ s.io.epoLatched = true then latchEpo t else t

/-- A block-specific word of a page that answers. -/
def wordWrite (c : Client) (p : Page) (off v : Nat) (s : State) : State :=
  match p.blk with
  | .journal => if off = 0x054 then journalFetch c v s else plainWrite c p off v s
  | .energy => if off = 0x064 then fetchEnergy c v s else plainWrite c p off v s
  | .tenantEnergy => if off = 0x05C then fetchTenant c p v s else plainWrite c p off v s
  | .heat => if off = 0x0A4 then fetchDerate c v s else withCaps (plainWrite c p off v) s
  | .eventLog => if off = 0x070 then fetchFF c v s else if off = 0x078 then fetchRL c v s else plainWrite c p off v s
  | .powerState => if off = 0x050 then rset powerPage Reg.powerState.V48_MIN (v48 s) s else s
  | .wake =>
    if off = 0x040 then plainWrite c p off (v ||| 0x1020) s
    else if off = 0x04C then alarmTake v s
    else plainWrite c p off v s
  | .time => if off = 0x05C then rateWrite v s else plainWrite c p off v s
  | .weir | .castle => withCaps (fun s =>
      let s' := plainWrite c p off v s
      if p.blk = .castle ∧ 0x100 ≤ off ∧ off < 0x500 ∧ wordLocked s p off = false ∧ wordOk s p off v = true then
        rset castlePage Reg.castle.TABLE_FAULT 0 s'
      else s') s
  | .bridge => if off = 0x044 then winBaseTake v s else irqSettle s (plainWrite c p off v s)
  | .objectPage =>
    if 0x040 ≤ off ∧ off < 0x060 then notifyTake p ((off - 0x040) / 4) v s
    else if 0x400 ≤ off ∧ off < 0x800 then countTake p ((off - 0x400) / 4) v s
    else s
  | .stackCtrl => if off = 0x058 ∧ p.die = 0 then hostGranulesTake (v % 2 ^ 15) s else s
  | .nerius => if (hget s p).en then s else plainWrite c p off v s
  | .peerTable => if (slotGet s p.inst).st = .loaded then plainWrite c p off v s else pgErr p Code.badArg s
  | .gateway => gatewayWrite c off v s
  | .canPort | .ethPort | .uartPort | .pmbPort =>
    if 0x100 ≤ off ∧ enActive s p = true ∧ takesWrite p.blk off = true then pgErr p Code.badArg s else plainWrite c p off v s
  | .jobSlot => if c.isVf then s else plainWrite c p off v s
  | .siteBus =>
    if (hget s p).en && isConfig .siteBus off then
      (if wordLocked s p off then pgErr p Code.locked s else pgErr p Code.badArg s)
    else plainWrite c p off v s
  | .aux => auxWrite c off v s
  | .dualIn => alertSettle (plainWrite c p off v s)
  | .siteChannel => siteWrite c off v s
  | _ => plainWrite c p off v s

/-! ### A write that has reached its page -/

/-- How a client's own writes reach PG_CMD: SOURCE (R84). -/
def sourceOf : Client → Source
  | .pf0 | .vf _ => .pcie
  | .firmware => .hubInternal
  | .siteBus => .canFd

/-- A PG_CMD write uses the argument and the tag of the writer's context (R74). An XFER's host data is not at hand. -/
def cmdWrite (c : Client) (p : Page) (op : Nat) (s : State) : State :=
  let x := cget s p c
  let r : Req := { client := c, source := sourceOf c, arg := BitVec.ofNat 32 x.arg, tag := BitVec.ofNat 32 x.tag }
  command p op r (effectOf p op r .ok []) s

/-- A write by a client to a word of a page: the header of R58, or the block's words. -/
def regWrite (c : Client) (p : Page) (off v : Nat) (s : State) : State :=
  match off with
  | 0x008 => ownedWrite c p off (ctrlWrite p v) s
  | 0x014 => headerWrite c p off (irqStatWrite p v) s
  | 0x018 => headerWrite c p off (irqEnWrite p v) s
  | 0x01C => headerWrite c p off (errWrite p v) s
  | 0x020 => ownedWrite c p off (allotWrite p v) s
  | 0x02C => lockTake c p v s
  | 0x030 => cmdWrite c p v s
  | 0x034 => headerWrite c p off (argWrite c p v) s
  | 0x038 => headerWrite c p off (tagWrite c p v) s
  | _ => if off < 0x040 then headerWrite c p off id s else blockWrite c p off (wordWrite c p off v) s

/-- A broadcast write (R45): page number `n` of every compute die, or BAD_ADDR on the directory head page. -/
def broadcastWrite (c : Client) (n off v : Nat) (s : State) : State :=
  if let .vf i := c then (if clientUp s c then pgErr (vfHead (i.val + 1)) Code.badAddr s else s)
  else if !clientUp s c then s
  else
    match (dirCompute 0).find? fun e => e.num == n with
    | some e =>
      if bcastOf e.page.blk && off != 0x030 && off != 0x02C then
        (List.range 12).foldl (fun s d =>
          let p := { e.page with die := d }
          inOrder c p (.write off v) (regWrite c p off v) s) s
      else badAddr s
    | none => badAddr s

/-- REGISTER_WRITE (R42, R46, R54, R69). -/
def execRegisterWrite (c : Client) (addr : BitVec 26) (be : BitVec 4) (v : Word) (s : State) : Host.Outcome State Fault Refusal :=
  .next (let a := addr.toNat
    if !clientUp s c then s
    else if !c.isVf && decide (a / 2 ^ 22 = 15) then
      (if be = 15 ∧ a % 4 = 0 then broadcastWrite c (a / 2 ^ 12 % 1024) (a % 4096) v.toNat s else badAddr s)
    else
      match placeOf s c a with
      | .unlisted h => pgErr h Code.badAddr s
      | .page p =>
        if be = 15 ∧ a % 4 = 0 then inOrder c p (.write (a % 4096) v.toNat) (regWrite c p (a % 4096) v.toNat) s
        else reaches c p (a % 4096) (pgErr p Code.badAddr) s)

/-- BROADCAST_WRITE (R45). -/
def execBroadcastWrite (c : Client) (page : Fin 1024) (off : BitVec 12) (v : Word) (s : State) : Host.Outcome State Fault Refusal :=
  .next (broadcastWrite c page.val off.toNat v.toNat s)

/-! ### The latch of R71 -/

/-- A read of the word at `off` of page `p` by client `c`: the low word of a 64-bit counter latches its high word, and
WALL_NS latches the seconds (R71, R150). -/
def latchRead (c : Client) (p : Page) (off : Nat) (s : State) : State :=
  if fuseDenied s c p.blk || offline s p then s
  else if p.blk = .time ∧ off = 0x04C then cset p c { cget s p c with wall := (wallNs s / 1000000000).toNat % 2 ^ 48 } s
  else
    match counterAt p.blk off with
    | some x => cset p c { cget s p c with latch := fieldValue s c p x.fld x.idx / 2 ^ 32 } s
    | none => s

/-- The bytes of a word that a read's byte enables request (R69). -/
def enabledBytes (be : BitVec 4) (v : Nat) : List Byte := (bitsSet 4 be.toNat).map fun i => (leBytes 4 v).getD i 0

/-- The completion of a read by a PCIe function. -/
def readReply (c : Client) (be : BitVec 4) (v : Nat) (s : State) : State :=
  match c with
  | .pf0 | .vf _ => send (.completion .ok (enabledBytes be v)) s
  | _ => s

/-- A read of a page's word (R69, R71). -/
def readTake (c : Client) (p : Page) (off : Nat) (be : BitVec 4) (s : State) : State :=
  readReply c be (readWord s c p off) (latchRead c p off s)

/-- COUNTER_LOW_READ (R69, R71); an address that no directory lists reads as zero (R46). -/
def execCounterLowRead (c : Client) (addr : BitVec 26) (be : BitVec 4) (s : State) : Host.Outcome State Fault Refusal :=
  .next (let a := addr.toNat
    let off := a % 4096 / 4 * 4
    if !clientUp s c then s
    else if !c.isVf && decide (a / 2 ^ 22 = 15) then readReply c be 0 s
    else
      match placeOf s c a with
      | .unlisted h => readReply c be 0 (pgErr h Code.badAddr s)
      | .page p => inOrder c p (.read off be) (readTake c p off be) s)

/-! ### Accesses that wait (R72, R81) -/

/-- An access that waited takes effect. A PG_CMD write among them waits again, with the argument and the tag that stand in the
context now (R74). -/
def accessTake (w : Waiting) (s : State) : State :=
  match w.act with
  | .cmd op r host data => command w.page op r (effectOf w.page op r host data) s host data
  | .ctrl a => ownedWrite w.client w.page 0x008 (ctrlTake w.page a) s
  | .write off v => regWrite w.client w.page off v s
  | .read off be => readTake w.client w.page off be s

/-- What client `c` sent to page `p` behind a command that has now passed the gate: each access takes effect in its order, up to
the next PG_CMD write. Answers what goes on waiting. -/
def resume (c : Client) (p : Page) : List Waiting → State → List Waiting × State
  | [], s => ([], s)
  | w :: ws, s =>
    if w.page = p ∧ w.client = c then
      match w.act with
      | .cmd .. => (w :: ws, s)
      | .write 0x030 v =>
        let x := cget s p c
        let r : Req := { client := c, source := sourceOf c, arg := BitVec.ofNat 32 x.arg, tag := BitVec.ofNat 32 x.tag }
        ({ w with act := .cmd v r .ok [] } :: ws, s)
      | _ => resume c p ws (accessTake w s)
    else
      let r := resume c p ws s
      (w :: r.1, r.2)

/-- The waiting accesses of `ws`, as far as `c`'s to `p` may now take effect. -/
def resumeAll (c : Client) (p : Page) (ws : List Waiting) (s : State) : State :=
  let r := resume c p ws s
  { r.2 with jr := { r.2.jr with deferred := r.1 ++ r.2.jr.deferred } }

/-- COMMAND_ACCEPT_DEFERRED (R81): the oldest write that waits passes the gate 10 µs after the last acceptance, and what waits
behind it for order alone follows (R72). -/
def execCommandAcceptDeferred (s : State) : Host.Outcome State Fault Refusal :=
  .next (match s.jr.deferred with
    | w :: ws =>
      match w.act with
      | .cmd op r host data =>
        if hubRuns s && !tooSoon s then
          resumeAll w.client w.page ws
            (accept w.page op r (effectOf w.page op r host data) { s with jr := { s.jr with deferred := [] } })
        else s
      | _ => resumeAll w.client w.page (w :: ws) { s with jr := { s.jr with deferred := [] } }
    | [] => s)

/-- The journal write of the oldest waiting command begins where its time has come and the gate lets it pass: its number is drawn
and the first two phases are written, with KIND VOID (R81, R86, R87). The third is written at the acceptance. -/
def jBegin (s : State) : State :=
  match s.jr.deferred with
  | w :: _ =>
    match w.act with
    | .cmd op r _ _ =>
      if hubRuns s && !tooSoon s && s.jr.writing.isNone && (gate s w.page r.client op).isNone then
        let q := s.jr.nextSeq
        let t := jWrite (fun q => { commandEntry s w.page op r Code.pending q with kind := .void }) s
        { t with jr := { t.jr with writing := some q } }
      else s
    | _ => s
  | [] => s

end Sys2Proof.Machine
end

