-- ==== Sys2Proof/Machine/SlowPath.lean ====
section
/-! DEFINITION. What leaves the gateway, the slow path to the service cores, and the commands that come over the site bus and the
management Ethernet with their replies (R459, R466, R469–R473, R508, R509). -/

namespace Sys2Proof.Machine

/-- The service cores take frames and commands: not in ROM and not in an update (R167, R473). -/
def serviceUp (s : State) : Bool := coresRun s

/-! ### Commands in the site-bus context (R508, R509) -/

/-- The JC register that bits [25:2] of an address name. -/
def jcPage (s : State) (a : Nat) : Option Place :=
  let a := a % 2 ^ 24 * 4
  match placeOf s .siteBus a with
  | .page p => if a % 4096 = 0x030 then some (.page p) else none
  | .unlisted h => some (.unlisted h)

/-- ARG, TAG, then OPCODE; the reply waits for the result. A register that is no PG_CMD takes no command. -/
def remoteCommand (source : Source) (a op : Nat) (arg tag : Word) (via : Option (Nat × (Nat × Nat))) (s : State) : State :=
  match jcPage s a with
  | some (.page p) =>
    let r : Req := { client := .siteBus, source := source, arg := arg, tag := tag }
    let s := { s with sb := { s.sb with replies := s.sb.replies ++ [{ page := p, tag := tag.toNat, via := via }] } }
    command p op r (effectOf p op r .ok []) s
  | some (.unlisted h) => pgErr h Code.badAddr s
  | none => s

/-- The service cores execute the command frame (R508); `p` is its payload without the tag. -/
def siteCommandOk (s : State) (k0 : Nat) (auth : Bool) (keyIn : Nat) (p : List Byte) : Bool :=
  decide (k0 % 2 ^ 30 = sbReg s Reg.siteBus.CMD_ID) && auth && decide (keyIn = sbReg s Reg.siteBus.CMD_KEY) && decide (20 ≤ p.length)
    && decide (beNat (sliceB p 0 1) = sbReg s Reg.siteBus.MODULE_NO)

def siteCommand (p : List Byte) (s : State) : State :=
  let n := fun i => beNat (sliceB p i 4)
  remoteCommand .canFd (n 4) (n 8) (BitVec.ofNat 32 (n 12)) (BitVec.ofNat 32 (n 16)) none s

/-- SITE_BUS_COMMAND (R508): a frame from SLOW, its tag verified and removed by its route. -/
def execSiteBusCommand (f : CanFrame) (authOk : Bool) (keyIn : Fin 128) (s : State) : Host.Outcome State Fault Refusal :=
  .next (if gwActive s && serviceUp s && siteCommandOk s (canK0 f) authOk keyIn.val f.payload then siteCommand f.payload s else s)

/-- The reason for which a datagram is rejected (R509): 1 length or format, 2 module, 3 freshness, 4 MAC. -/
def mgmtReject (s : State) (p : List Byte) : Option Nat :=
  let n := fun i k => beNat (sliceB p i k)
  if p.length ≠ 48 ∨ n 0 1 ≠ 1 ∨ n 2 2 ≠ 0 ∨ n 28 4 ≠ 0 then some 1
  else if n 1 1 ≠ sbReg s Reg.siteBus.MODULE_NO then some 2
  else if n 20 8 ≤ fvGet s (sbReg s Reg.siteBus.FV_BASE + 12) then some 3
  else
    match cmacKey s (sbReg s Reg.siteBus.CMD_KEY) 7 with
    | some k => if Crypto.cmac k (p.take 32) == p.drop 32 then none else some 4
    | none => some 4

/-- A datagram at MGMT_UDP (R509). -/
def mgmtDatagram (mac ip port : Nat) (p : List Byte) (s : State) : State :=
  match mgmtReject s p with
  | some why => raise 0x7105 12 0 ip why (radd ethPage Reg.ethPort.MGMT_REJECTED 1 s)
  | none =>
    let n := fun i k => beNat (sliceB p i k)
    let s := ksUse (sbReg s Reg.siteBus.CMD_KEY) (fvSet (sbReg s Reg.siteBus.FV_BASE + 12) (n 20 8) s)
    remoteCommand .mgmtEthernet (n 4 4) (n 8 4) (BitVec.ofNat 32 (n 12 4)) (BitVec.ofNat 32 (n 16 4)) (some (mac, (ip, port))) s

/-- MGMT_COMMAND (R509). -/
def execMgmtCommand (srcMac : BitVec 48) (srcIp : Word) (srcPort : BitVec 16) (payload : List Byte) (s : State) :
    Host.Outcome State Fault Refusal :=
  .next (if portActive s 4 && serviceUp s && decide (ipAddr s ≠ 0 ∧ mgmtUdp s ≠ 0) then
      mgmtDatagram srcMac.toNat srcIp.toNat srcPort.toNat payload s
    else s)

/-! ### Replies -/

/-- A reply's bytes before its authentication: the site bus's 12, or the datagram's first 16. -/
def replyHead (s : State) (x : SbReply) (first : List Byte) : List Byte :=
  first ++ beBytes 1 (sbReg s Reg.siteBus.MODULE_NO) ++ List.replicate (3 - first.length) 0 ++ beBytes 4 x.tag ++ beBytes 4 (x.result.getD 0)

/-- A reply over the site bus, in an ARB slot (R506, R508). -/
def canReply (x : SbReply) (s : State) : Option State :=
  let q := sbPort s
  let f := fdFrame (sbReg s Reg.siteBus.CMD_ID + 1) (replyHead s x [])
  if canMayStart s q { f with payload := List.replicate 20 0 } then
    some (match canSign (sbReg s Reg.siteBus.CMD_KEY) (sbReg s Reg.siteBus.FV_BASE + 11) f s with
      | some (f, s) => canOut q f s
      | none => s)
  else none

/-- A reply to a datagram (R509). -/
def udpReply (x : SbReply) (dst : Nat × (Nat × Nat)) (s : State) : Option State :=
  if !portActive s 4 then none
  else
    some (match cmacKey s (sbReg s Reg.siteBus.CMD_KEY) 6 with
      | some k =>
        let i := sbReg s Reg.siteBus.FV_BASE + 13
        let fv := fvGet s i + 1
        let b := replyHead s x [1] ++ beBytes 8 fv ++ List.replicate 12 0
        send (.udp dst.1 dst.2.1 dst.2.2 (b ++ Crypto.cmac k b)) (ksUse (sbReg s Reg.siteBus.CMD_KEY) (fvSet i fv s))
      | none => s)

/-- COMMAND_REPLY (R508, R509): the oldest reply whose command has ended. Without a usable key nothing is sent. -/
def execCommandReply (s : State) : Host.Outcome State Fault Refusal :=
  .next (if !serviceUp s then s
    else
      match s.sb.replies.find? (·.result.isSome) with
      | none => s
      | some x =>
        match (match x.via with
          | none => canReply x s
          | some dst => udpReply x dst s) with
        | some t => { t with sb := { t.sb with replies := t.sb.replies.erase x } }
        | none => s)

/-! ### The slow path (R457, R471, R472) -/

/-- The 32-byte descriptor of a copy; which cell a copy holds is not modelled, so CELL is an open value. -/
def descriptor (x : GwCopy) (s : State) : List Byte × State :=
  let y := takeFree s
  ((frameKeys s x.frame).flatMap (leBytes 4) ++ leBytes 8 x.frame.time ++ leBytes 2 x.route ++ leBytes 1 x.cls ++ [0]
    ++ leBytes 4 (Config.freeNat y.1), y.2)

/-- The service cores record a frame that a route has copied to them. -/
def recordFrame (x : GwCopy) (s : State) : State :=
  let d := descriptor x s
  let s := d.2
  { s with gw := { s.gw with seen := s.gw.seen ++ [d.1 ++ x.frame.payload] } }

/-- The answer to an ARP request, to the source MAC of its frame. -/
def arpReply (f : GwFrame) (s : State) : State :=
  let b := f.payload
  send (.eth f.mac (ethMac s) [] 0x0806 ([0, 1, 8, 0, 6, 4, 0, 2] ++ beBytes 6 (ethMac s) ++ beBytes 4 (ipAddr s) ++ sliceB b 8 6 ++ sliceB b 14 4)) s

/-- A frame for the management address (R472). -/
def mgmtFrame (f : GwFrame) (s : State) : State :=
  let b := f.payload
  let ip := beNat (sliceB b 12 4)
  match mgmtIntake s (f.k0 % 2 ^ 16) b with
  | .arp => arpReply f s
  | .echo => send (.echo f.mac ip (((b.take (beNat (sliceB b 2 2))).drop 20).drop 4)) s
  | .udp port data => mgmtDatagram f.mac ip port data s
  | _ => s

/-- What the service cores do with a copy: the port's own intake has no route words. -/
def slowTake (x : GwCopy) (s : State) : State :=
  let f := x.frame
  if x.words.isEmpty then mgmtFrame f s
  else if f.kind = 1 && siteCommandOk s f.k0 f.auth f.keyIn f.payload then siteCommand f.payload s
  else recordFrame x s

/-- The next copy of SLOW's round, within 5,000 frames/s and a burst of 32. -/
def slowDeliver (s : State) : State :=
  if !(gwActive s && serviceUp s) then s
  else
    match nextCopy s 9 with
    | none => s
    | some x =>
      match bucketTake 128 5000 32 1 s with
      | none => s
      | some s => slowTake x.1 (copySent x.1 (setRound 9 x.2 s))

/-- SLOW_DELIVER (R471). -/
def execSlowDeliver (s : State) : Host.Outcome State Fault Refusal := .next (slowDeliver s)

/-! ### Sending (R459, R466, R469, R470) -/

/-- An encapsulated site frame (R459). -/
def encapsulate (x : GwCopy) (s : State) : State :=
  let f := x.frame
  let w3 := x.words.getD 3 0
  let i := bitsOf w3 12 3
  let dst := rget s ethPage Reg.ethPort.MAC_M (2 * i) + rget s ethPage Reg.ethPort.MAC_M (2 * i + 1) % 2 ^ 16 * 2 ^ 32
  send (.eth dst (ethMac s) (if bitAt w3 28 then [BitVec.ofNat 16 (bitsOf w3 16 12)] else []) 0x88B6
    ([1] ++ beBytes 1 f.kind ++ beBytes 1 f.port ++ beBytes 1 f.auth.toNat ++ beBytes 4 f.k0 ++ beBytes 4 f.time
      ++ beBytes 2 f.payload.length ++ [0, 0] ++ f.payload)) s

/-- The frame that a CAN controller holds goes out, and the next one is loaded. -/
def canSend (q : Nat) (s : State) : State :=
  let s := canLoad q s
  match heldCopy s q with
  | none => s
  | some x =>
    let f := x.can.getD (canOf 0 [])
    if canMayStart s q f then canLoad q (psLoopback x f (copySent x (canOut q f s))) else s

/-- A UART copy: MODBUS adds the CRC-16, low byte first. -/
def uartBytes (s : State) (q : Nat) (p : List Byte) : List Byte :=
  if rget s (portPage q) Reg.uartPort.MODE = 0 then p ++ leBytes 2 (crcModbus p) else p

/-- What egress `q` does with a copy that leaves. -/
def egressOut (q : Nat) (x : GwCopy) (s : State) : State :=
  let f := x.frame
  match q with
  | 4 => encapsulate x s
  | 5 | 6 => send (.uart q (uartBytes s q f.payload)) s
  | 7 | 8 => send (.pmb q f.payload) s
  | 10 => telemetry f.port f.k0 f.payload f.time s
  | 11 => if sbActive s && decide (f.kind ≤ 1) then referenceAt (canOf f.k0 f.payload) f.time s else s
  | 12 => psTake f.k0 f.auth f.keyIn f.payload f.time s
  | _ => s

/-- EGRESS_SEND (R469): the next copy of the egress's round. -/
def execEgressSend (port : Fin 13) (s : State) : Host.Outcome State Fault Refusal :=
  .next (let q := port.val
    if !portActive s q then s
    else if q ≤ 3 then canSend q s
    else if q = 9 then slowDeliver s
    else
      match nextCopy s q with
      | none => s
      | some x => egressOut q x.1 (copySent x.1 (setRound q x.2 s)))

end Sys2Proof.Machine
end

