-- ==== Sys2Proof/Machine/Dispatch.lean ====
section
/-! DEFINITION. One arm for each command of the table. -/

namespace Sys2Proof.Machine

def exec (i : Instr) (s : State) : Host.Outcome State Fault Refusal :=
  match i with
  | .registerWrite c addr be v => Sys2Proof.Machine.execRegisterWrite c addr be v s
  | .counterLowRead c addr be => Sys2Proof.Machine.execCounterLowRead c addr be s
  | .broadcastWrite c page off v => Sys2Proof.Machine.execBroadcastWrite c page off v s
  | .blockEnable c p => Sys2Proof.Machine.execBlockEnable c p s
  | .blockDisable c p => Sys2Proof.Machine.execBlockDisable c p s
  | .quiesceReq c p on => Sys2Proof.Machine.execQuiesceReq c p on s
  | .drainReq c p => Sys2Proof.Machine.execDrainReq c p s
  | .drainClear c p => Sys2Proof.Machine.execDrainClear c p s
  | .drainComplete p => Sys2Proof.Machine.execDrainComplete p s
  | .resetReq c p => Sys2Proof.Machine.execResetReq c p s
  | .resetEnd p => Sys2Proof.Machine.execResetEnd p s
  | .allotRequest c p v => Sys2Proof.Machine.execAllotRequest c p v s
  | .allotGrant p => Sys2Proof.Machine.execAllotGrant p s
  | .irqStatClear c p v => Sys2Proof.Machine.execIrqStatClear c p v s
  | .pgErrClear c p v => Sys2Proof.Machine.execPgErrClear c p v s
  | .lockSet c p v => Sys2Proof.Machine.execLockSet c p v s
  | .commandAcceptDeferred => Sys2Proof.Machine.execCommandAcceptDeferred s
  | .commandComplete p => Sys2Proof.Machine.execCommandComplete p s
  | .journalFetch c hi => Sys2Proof.Machine.execJournalFetch c hi s
  | .brownout v48 => Sys2Proof.Machine.execBrownout v48 s
  | .brownoutClear v48 => Sys2Proof.Machine.execBrownoutClear v48 s
  | .stageUndervoltage v48 => Sys2Proof.Machine.execStageUndervoltage v48 s
  | .overvoltageTrip v48 => Sys2Proof.Machine.execOvervoltageTrip v48 s
  | .stageFault stage bits => Sys2Proof.Machine.execStageFault stage bits s
  | .aoConverterStop => Sys2Proof.Machine.execAoConverterStop s
  | .coldStart => Sys2Proof.Machine.execColdStart s
  | .dryExitQualified v48 => Sys2Proof.Machine.execDryExitQualified v48 s
  | .dieUp r => Sys2Proof.Machine.execDieUp r s
  | .dieDown r => Sys2Proof.Machine.execDieDown r s
  | .enterDry r => Sys2Proof.Machine.execEnterDry r s
  | .dieActive d => Sys2Proof.Machine.execDieActive d s
  | .coreDomainDown d => Sys2Proof.Machine.execCoreDomainDown d s
  | .v48MinWrite c v => Sys2Proof.Machine.execV48MinWrite c v s
  | .xtal32Fail => Sys2Proof.Machine.execXtal32Fail s
  | .wakeOscCalibrate cycles => Sys2Proof.Machine.execWakeOscCalibrate cycles s
  | .canActivityEdge port recessive => Sys2Proof.Machine.execCanActivityEdge port recessive s
  | .listenWindowClose port => Sys2Proof.Machine.execListenWindowClose port s
  | .dryWakeFrameMatch port f => Sys2Proof.Machine.execDryWakeFrameMatch port f s
  | .alarmReached => Sys2Proof.Machine.execAlarmReached s
  | .wakePinLevel pin high => Sys2Proof.Machine.execWakePinLevel pin high s
  | .refclkCheck hz => Sys2Proof.Machine.execRefclkCheck hz s
  | .refclkRetry => Sys2Proof.Machine.execRefclkRetry s
  | .serviceCoreBoot sfdp => Sys2Proof.Machine.execServiceCoreBoot sfdp s
  | .trickleDeclare => Sys2Proof.Machine.execTrickleDeclare s
  | .deferredMarkerWrite => Sys2Proof.Machine.execDeferredMarkerWrite s
  | .deviceTimeHandover => Sys2Proof.Machine.execDeviceTimeHandover s
  | .synthRelock core => Sys2Proof.Machine.execSynthRelock core s
  | .wallSet r => Sys2Proof.Machine.execWallSet r s
  | .alarmWrite c v => Sys2Proof.Machine.execAlarmWrite c v s
  | .ptpMessage m => Sys2Proof.Machine.execPtpMessage m s
  | .ptpSyncTx => Sys2Proof.Machine.execPtpSyncTx s
  | .servoTimeout => Sys2Proof.Machine.execServoTimeout s
  | .hubReset r => Sys2Proof.Machine.execHubReset r s
  | .lockstepMismatch => Sys2Proof.Machine.execLockstepMismatch s
  | .watchdogExpire => Sys2Proof.Machine.execWatchdogExpire s
  | .hostLinkReset cause => Sys2Proof.Machine.execHostLinkReset cause s
  | .tapReset => Sys2Proof.Machine.execTapReset s
  | .fwUpdate r => Sys2Proof.Machine.execFwUpdate r s
  | .fwInitTimeout => Sys2Proof.Machine.execFwInitTimeout s
  | .fwConfirm r => Sys2Proof.Machine.execFwConfirm r s
  | .fwReject r => Sys2Proof.Machine.execFwReject r s
  | .flRead r => Sys2Proof.Machine.execFlRead r s
  | .flErase r => Sys2Proof.Machine.execFlErase r s
  | .flProgram r => Sys2Proof.Machine.execFlProgram r s
  | .flashBusyTimeout => Sys2Proof.Machine.execFlashBusyTimeout s
  | .grantEpoch predicted => Sys2Proof.Machine.execGrantEpoch predicted s
  | .creditRequest core wanted => Sys2Proof.Machine.execCreditRequest core wanted s
  | .correct m => Sys2Proof.Machine.execCorrect m s
  | .modelFault => Sys2Proof.Machine.execModelFault s
  | .modelFaultClear => Sys2Proof.Machine.execModelFaultClear s
  | .arrayPowerGate core array => Sys2Proof.Machine.execArrayPowerGate core array s
  | .retentionSlice => Sys2Proof.Machine.execRetentionSlice s
  | .quadrantWakeComplete die q => Sys2Proof.Machine.execQuadrantWakeComplete die q s
  | .rampRoomEnable p => Sys2Proof.Machine.execRampRoomEnable p s
  | .floorBreachCut => Sys2Proof.Machine.execFloorBreachCut s
  | .shedAssert => Sys2Proof.Machine.execShedAssert s
  | .shedRelease => Sys2Proof.Machine.execShedRelease s
  | .shedMinExpire => Sys2Proof.Machine.execShedMinExpire s
  | .setHostCap r => Sys2Proof.Machine.execSetHostCap r s
  | .intervalClose => Sys2Proof.Machine.execIntervalClose s
  | .intervalRecordReady => Sys2Proof.Machine.execIntervalRecordReady s
  | .energyCheckpoint => Sys2Proof.Machine.execEnergyCheckpoint s
  | .closeNow r => Sys2Proof.Machine.execCloseNow r s
  | .energyRecordFetch c p hi => Sys2Proof.Machine.execEnergyRecordFetch c p hi s
  | .spateEvaluate => Sys2Proof.Machine.execSpateEvaluate s
  | .railSettled die q => Sys2Proof.Machine.execRailSettled die q s
  | .opHoursCheckpoint die => Sys2Proof.Machine.execOpHoursCheckpoint die s
  | .measOverdue die q => Sys2Proof.Machine.execMeasOverdue die q s
  | .ageingMeasureStart die q => Sys2Proof.Machine.execAgeingMeasureStart die q s
  | .ageingMeasureDone die q measured => Sys2Proof.Machine.execAgeingMeasureDone die q measured s
  | .measure die r => Sys2Proof.Machine.execMeasure die r s
  | .derate die r => Sys2Proof.Machine.execDerate die r s
  | .droopDetect core => Sys2Proof.Machine.execDroopDetect core s
  | .droopRecover core => Sys2Proof.Machine.execDroopRecover core s
  | .longDroop core => Sys2Proof.Machine.execLongDroop core s
  | .thermalStep readings governed => Sys2Proof.Machine.execThermalStep readings governed s
  | .thermalTrip sensor value => Sys2Proof.Machine.execThermalTrip sensor value s
  | .tripDieDown die => Sys2Proof.Machine.execTripDieDown die s
  | .tripClear r => Sys2Proof.Machine.execTripClear r s
  | .drFetch c hi => Sys2Proof.Machine.execDrFetch c hi s
  | .descriptorIssue core => Sys2Proof.Machine.execDescriptorIssue core s
  | .descriptorComplete core u => Sys2Proof.Machine.execDescriptorComplete core u s
  | .mma core => Sys2Proof.Machine.execMma core s
  | .vadd core => Sys2Proof.Machine.execVadd core s
  | .vsub core => Sys2Proof.Machine.execVsub core s
  | .vmul core => Sys2Proof.Machine.execVmul core s
  | .vfma core => Sys2Proof.Machine.execVfma core s
  | .vdiv core => Sys2Proof.Machine.execVdiv core s
  | .vsqrt core => Sys2Proof.Machine.execVsqrt core s
  | .vrcp core => Sys2Proof.Machine.execVrcp core s
  | .vrsqrt core => Sys2Proof.Machine.execVrsqrt core s
  | .vexp core => Sys2Proof.Machine.execVexp core s
  | .vexp2 core => Sys2Proof.Machine.execVexp2 core s
  | .vlog core => Sys2Proof.Machine.execVlog core s
  | .vlog2 core => Sys2Proof.Machine.execVlog2 core s
  | .vtanh core => Sys2Proof.Machine.execVtanh core s
  | .vsigmoid core => Sys2Proof.Machine.execVsigmoid core s
  | .verf core => Sys2Proof.Machine.execVerf core s
  | .vmax core => Sys2Proof.Machine.execVmax core s
  | .vmin core => Sys2Proof.Machine.execVmin core s
  | .vgelu core => Sys2Proof.Machine.execVgelu core s
  | .vsilu core => Sys2Proof.Machine.execVsilu core s
  | .vcvt core => Sys2Proof.Machine.execVcvt core s
  | .vqmx core => Sys2Proof.Machine.execVqmx core s
  | .vrsum core => Sys2Proof.Machine.execVrsum core s
  | .vrmax core => Sys2Proof.Machine.execVrmax core s
  | .vrmin core => Sys2Proof.Machine.execVrmin core s
  | .viadd core => Sys2Proof.Machine.execViadd core s
  | .visub core => Sys2Proof.Machine.execVisub core s
  | .vimul core => Sys2Proof.Machine.execVimul core s
  | .vimax core => Sys2Proof.Machine.execVimax core s
  | .vimin core => Sys2Proof.Machine.execVimin core s
  | .dma core eng => Sys2Proof.Machine.execDma core eng s
  | .wait core => Sys2Proof.Machine.execWait core s
  | .signalAdd core => Sys2Proof.Machine.execSignalAdd core s
  | .signalSet core => Sys2Proof.Machine.execSignalSet core s
  | .loop core => Sys2Proof.Machine.execLoop core s
  | .mark core => Sys2Proof.Machine.execMark core s
  | .endOp core => Sys2Proof.Machine.execEndOp core s
  | .countWrite c p slot v => Sys2Proof.Machine.execCountWrite c p slot v s
  | .atomicFetchAdd c t wide operand => Sys2Proof.Machine.execAtomicFetchAdd c t wide operand s
  | .atomicCas c t wide compare swap => Sys2Proof.Machine.execAtomicCas c t wide compare swap s
  | .notifyClear c p w v => Sys2Proof.Machine.execNotifyClear c p w v s
  | .lateResponse requester bank tagOpen epoch => Sys2Proof.Machine.execLateResponse requester bank tagOpen epoch s
  | .bindSlot r => Sys2Proof.Machine.execBindSlot r s
  | .unbindSlot r => Sys2Proof.Machine.execUnbindSlot r s
  | .load slot r => Sys2Proof.Machine.execLoad slot r s
  | .admissionDecide => Sys2Proof.Machine.execAdmissionDecide s
  | .start slot r => Sys2Proof.Machine.execStart slot r s
  | .cancel slot r => Sys2Proof.Machine.execCancel slot r s
  | .restart slot r => Sys2Proof.Machine.execRestart slot r s
  | .release slot r => Sys2Proof.Machine.execRelease slot r s
  | .jobFault slot cause core detail => Sys2Proof.Machine.execJobFault slot cause core detail s
  | .autoRestart slot => Sys2Proof.Machine.execAutoRestart slot s
  | .patrolScrub die pma => Sys2Proof.Machine.execPatrolScrub die pma s
  | .hostGranulesWrite c v => Sys2Proof.Machine.execHostGranulesWrite c v s
  | .neriusFrameDiscard port f => Sys2Proof.Machine.execNeriusFrameDiscard port f s
  | .neriusWrite port f => Sys2Proof.Machine.execNeriusWrite port f s
  | .neriusSignal port f => Sys2Proof.Machine.execNeriusSignal port f s
  | .wack port f => Sys2Proof.Machine.execWack port f s
  | .sack port f => Sys2Proof.Machine.execSack port f s
  | .hello port f => Sys2Proof.Machine.execHello port f s
  | .neriusCredit port f => Sys2Proof.Machine.execNeriusCredit port f s
  | .nak port f => Sys2Proof.Machine.execNak port f s
  | .announce port f => Sys2Proof.Machine.execAnnounce port f s
  | .groupFaultFrame port f => Sys2Proof.Machine.execGroupFaultFrame port f s
  | .neriusRestart port f => Sys2Proof.Machine.execNeriusRestart port f s
  | .restartResult port f => Sys2Proof.Machine.execRestartResult port f s
  | .restartResultTimeout slot => Sys2Proof.Machine.execRestartResultTimeout slot s
  | .ackTimeout port mac => Sys2Proof.Machine.execAckTimeout port mac s
  | .creditSendTimer port mac => Sys2Proof.Machine.execCreditSendTimer port mac s
  | .linkTrainingLost port => Sys2Proof.Machine.execLinkTrainingLost port s
  | .linkUp port => Sys2Proof.Machine.execLinkUp port s
  | .trainAttemptFail port => Sys2Proof.Machine.execTrainAttemptFail port s
  | .trainRetry port => Sys2Proof.Machine.execTrainRetry port s
  | .bar2Write off data poisoned => Sys2Proof.Machine.execBar2Write off data poisoned s
  | .bar2Read off len => Sys2Proof.Machine.execBar2Read off len s
  | .unsupportedRequest f => Sys2Proof.Machine.execUnsupportedRequest f s
  | .winBaseWrite c v => Sys2Proof.Machine.execWinBaseWrite c v s
  | .msixUnmask f vec => Sys2Proof.Machine.execMsixUnmask f vec s
  | .xfer f r host data => Sys2Proof.Machine.execXfer f r host data s
  | .dmaCompletionTimeout f => Sys2Proof.Machine.execDmaCompletionTimeout f s
  | .vfFlr t => Sys2Proof.Machine.execVfFlr t s
  | .pf0Flr => Sys2Proof.Machine.execPf0Flr s
  | .canFrameRx port f => Sys2Proof.Machine.execCanFrameRx port f s
  | .ethFrameRx f => Sys2Proof.Machine.execEthFrameRx f s
  | .modbusAduRx uart bytes => Sys2Proof.Machine.execModbusAduRx uart bytes s
  | .rawUartRx uart bytes => Sys2Proof.Machine.execRawUartRx uart bytes s
  | .pmbusPoll bus entry r => Sys2Proof.Machine.execPmbusPoll bus entry r s
  | .pmbusAlertRead bus r => Sys2Proof.Machine.execPmbusAlertRead bus r s
  | .egressSend port => Sys2Proof.Machine.execEgressSend port s
  | .slowDeliver => Sys2Proof.Machine.execSlowDeliver s
  | .routeSet r => Sys2Proof.Machine.execRouteSet r s
  | .routeGet r => Sys2Proof.Machine.execRouteGet r s
  | .rootSet r => Sys2Proof.Machine.execRootSet r s
  | .gwSave r => Sys2Proof.Machine.execGwSave r s
  | .referenceRx f => Sys2Proof.Machine.execReferenceRx f s
  | .referenceTx e => Sys2Proof.Machine.execReferenceTx e s
  | .refMissed => Sys2Proof.Machine.execRefMissed s
  | .masterListenExpire => Sys2Proof.Machine.execMasterListenExpire s
  | .ownSlotTx slot e => Sys2Proof.Machine.execOwnSlotTx slot e s
  | .powerStateRx f authOk keyIn => Sys2Proof.Machine.execPowerStateRx f authOk keyIn s
  | .psHoldExpire => Sys2Proof.Machine.execPsHoldExpire s
  | .siteBusCommand f authOk keyIn => Sys2Proof.Machine.execSiteBusCommand f authOk keyIn s
  | .mgmtCommand srcMac srcIp srcPort payload => Sys2Proof.Machine.execMgmtCommand srcMac srcIp srcPort payload s
  | .commandReply => Sys2Proof.Machine.execCommandReply s
  | .wakeVerify => Sys2Proof.Machine.execWakeVerify s
  | .wakeFrameRx port f => Sys2Proof.Machine.execWakeFrameRx port f s
  | .wakeAckTx => Sys2Proof.Machine.execWakeAckTx s
  | .wakeSend r => Sys2Proof.Machine.execWakeSend r s
  | .wakeSendRepeat => Sys2Proof.Machine.execWakeSendRepeat s
  | .wakeAckRx f => Sys2Proof.Machine.execWakeAckRx f s
  | .auxSet r => Sys2Proof.Machine.execAuxSet r s
  | .auxClear r => Sys2Proof.Machine.execAuxClear r s
  | .inrushSettled n => Sys2Proof.Machine.execInrushSettled n s
  | .inrushTimeout n current => Sys2Proof.Machine.execInrushTimeout n current s
  | .auxLimitEnter n current => Sys2Proof.Machine.execAuxLimitEnter n current s
  | .auxOverload n => Sys2Proof.Machine.execAuxOverload n s
  | .auxShort n current => Sys2Proof.Machine.execAuxShort n current s
  | .auxGrantExcess currents => Sys2Proof.Machine.execAuxGrantExcess currents s
  | .auxEscalate currents => Sys2Proof.Machine.execAuxEscalate currents s
  | .auxReleaseCheck currents => Sys2Proof.Machine.execAuxReleaseCheck currents s
  | .dualChannelDisagree tamperPair => Sys2Proof.Machine.execDualChannelDisagree tamperPair s
  | .epoAccept asserted => Sys2Proof.Machine.execEpoAccept asserted s
  | .discrepancyFault tamperPair => Sys2Proof.Machine.execDiscrepancyFault tamperPair s
  | .clearReady tamperPair => Sys2Proof.Machine.execClearReady tamperPair s
  | .epoReset r => Sys2Proof.Machine.execEpoReset r s
  | .discClear r => Sys2Proof.Machine.execDiscClear r s
  | .alertHoldExpire => Sys2Proof.Machine.execAlertHoldExpire s
  | .csiFrameStart f => Sys2Proof.Machine.execCsiFrameStart f s
  | .testPatternInject lines => Sys2Proof.Machine.execTestPatternInject lines s
  | .frameTimeout => Sys2Proof.Machine.execFrameTimeout s
  | .preprocessWrite => Sys2Proof.Machine.execPreprocessWrite s
  | .telemetryRx port k0 payload => Sys2Proof.Machine.execTelemetryRx port k0 payload s
  | .sourceAgeExpire n => Sys2Proof.Machine.execSourceAgeExpire n s
  | .stageWindowClose st => Sys2Proof.Machine.execStageWindowClose st s
  | .compare => Sys2Proof.Machine.execCompare s
  | .publish => Sys2Proof.Machine.execPublish s
  | .resultAgeExpire => Sys2Proof.Machine.execResultAgeExpire s
  | .castleEvaluate => Sys2Proof.Machine.execCastleEvaluate s
  | .castlePsInject => Sys2Proof.Machine.execCastlePsInject s
  | .siteLoad => Sys2Proof.Machine.execSiteLoad s
  | .castle r => Sys2Proof.Machine.execCastle r s
  | .uncastle r => Sys2Proof.Machine.execUncastle r s
  | .scReload r => Sys2Proof.Machine.execScReload r s
  | .fuseProgram r => Sys2Proof.Machine.execFuseProgram r s
  | .keyGen r => Sys2Proof.Machine.execKeyGen r s
  | .keyImport r => Sys2Proof.Machine.execKeyImport r s
  | .keyExport r => Sys2Proof.Machine.execKeyExport r s
  | .keyDerive r => Sys2Proof.Machine.execKeyDerive r s
  | .keyAgree r => Sys2Proof.Machine.execKeyAgree r s
  | .keyDelete r => Sys2Proof.Machine.execKeyDelete r s
  | .attest r => Sys2Proof.Machine.execAttest r s
  | .challenge r => Sys2Proof.Machine.execChallenge r s
  | .zeroize r => Sys2Proof.Machine.execZeroize r s
  | .tamperClear r => Sys2Proof.Machine.execTamperClear r s
  | .getPub r => Sys2Proof.Machine.execGetPub r s
  | .tamperMonitorTrip m => Sys2Proof.Machine.execTamperMonitorTrip m s
  | .epochAdvance => Sys2Proof.Machine.execEpochAdvance s
  | .keyCopyOverwrite => Sys2Proof.Machine.execKeyCopyOverwrite s
  | .bistRun m tripped stillReports => Sys2Proof.Machine.execBistRun m tripped stillReports s
  | .entropyFail proportion => Sys2Proof.Machine.execEntropyFail proportion s
  | .entropyRecover => Sys2Proof.Machine.execEntropyRecover s
  | .eventRaise e => Sys2Proof.Machine.execEventRaise e s
  | .eventRecordWrite => Sys2Proof.Machine.execEventRecordWrite s
  | .opSecondsCheckpoint => Sys2Proof.Machine.execOpSecondsCheckpoint s
  | .dryBufferFlush => Sys2Proof.Machine.execDryBufferFlush s
  | .ffFetch c idx => Sys2Proof.Machine.execFfFetch c idx s
  | .rlFetch c hi => Sys2Proof.Machine.execRlFetch c hi s
  | .ffClear r => Sys2Proof.Machine.execFfClear r s
  | .tamperAssertionAccept asserted => Sys2Proof.Machine.execTamperAssertionAccept asserted s
  | .auxLimitingEnd n current => Sys2Proof.Machine.execAuxLimitingEnd n current s
  | .spateHoldTemperature die sensor value => Sys2Proof.Machine.execSpateHoldTemperature die sensor value s
  | .canBusOffRecovery port => Sys2Proof.Machine.execCanBusOffRecovery port s
  | .pcieLinkUp rate width => Sys2Proof.Machine.execPcieLinkUp rate width s
  | .pcieConfigWrite f w => Sys2Proof.Machine.execPcieConfigWrite f w s
  | .tapInstructionLoad instr => Sys2Proof.Machine.execTapInstructionLoad instr s

end Sys2Proof.Machine
end

