-- ==== Sys2Proof/Machine/Step.lean ====
section
/-! DEFINITION. One step: the command at the front of the queue, or on an empty queue one advance of device time. -/

namespace Sys2Proof.Machine

/-- What the block does with no command waiting: device time advances, ALERT_N follows (log entry 1), and the journal write of a
command that waited begins (R87, log entry 13), or hub firmware issues its next DERATE (R252). -/
def idle (s : State) : State := derateStep (jBegin (alertSettle (tick s)))

/-- The command at the front of the queue runs on the state with the queue's rest; with no command device time advances
(log entry 1). -/
def step (s : State) : Host.Outcome State Fault Refusal :=
  match s.pending with
  | [] => .next (idle s)
  | c :: rest => exec c { s with pending := rest }

/-- `s` with the command that the word spells at the front of its queue. -/
def State.withFetchWord (s : State) (nbits w : Nat) : State :=
  match Sys2Proof.decodeTableWord nbits w with
  | some c => { s with pending := c :: s.pending }
  | none => s

end Sys2Proof.Machine
end

