-- ==== Sys2Proof/Machine/Lands.lean ====
section
/-! DEFINITION. Chapter 22: the lands of the package, the pins of the site and control field, and what they do in DRY (R624–R628). -/

namespace Sys2Proof.Machine

/-! ### Rows and lands (R624, R625) -/

/-- The letters of rows 1–19. -/
def rowLetters : List Char := "ABCDEFGHJKLMNPTUVWY".toList

/-- The name of row `i`, from 1. -/
def rowName (i : Nat) : String :=
  let x := rowLetters.getD ((i - 1) % 19) 'A'
  if i ≤ 19 then String.ofList [x]
  else String.ofList [(if i ≤ 38 then 'A' else if i ≤ 57 then 'B' else 'C'), x]

/-- What a land carries: PCIe and Nerius lanes with their direction and polarity, signal `k` of the site and control field, and one
of a channel's GATE, SRC, SNS_P and SNS_N, numbered 0–3. -/
inductive Land where
  | gnd
  | unconnected
  | v48In
  | pcie (tx : Bool) (lane : Nat) (positive : Bool)
  | nerius (port : Nat) (tx : Bool) (lane : Nat) (positive : Bool)
  | site (k : Nat)
  | aux (n wire : Nat)
deriving DecidableEq, Repr

/-- A Nerius land of the port pair at column `out` for TX and `inn` for RX. -/
def neriusLand (first out row col : Nat) : Land :=
  let port := fun r0 p => Land.nerius p (col == out) ((row - r0) / 2) ((row - r0) % 2 == 0)
  if 20 ≤ row ∧ row < 28 then port 20 first else if 48 ≤ row ∧ row < 56 then port 48 (first + 2) else .gnd

/-- The assignment of land `row`, `col`, both from 1 (R625). -/
def landAt (row col : Nat) : Land :=
  if row ≤ 4 then (if 25 ≤ col ∧ col ≤ 48 then .v48In else .gnd)
  else if row ≤ 8 ∧ col ≤ 24 then
    let k := 24 * (row - 5) + (col - 1)
    if k < 80 then .site k else .unconnected
  else if row ≤ 8 ∧ 49 ≤ col then
    let n := (col - 49) / 3
    let w := (col - 49) % 3
    if w = 2 then .unconnected
    else if row = 6 then .aux n w
    else if row = 8 then .aux n (2 + w)
    else .unconnected
  else if (row = 9 ∨ row = 11) ∧ 25 ≤ col ∧ col ≤ 56 then .pcie (row == 11) ((col - 25) / 2) ((col - 25) % 2 == 0)
  else if col = 1 ∨ col = 3 then neriusLand 0 1 row col
  else if col = 72 ∨ col = 70 then neriusLand 1 72 row col
  else .gnd

/-- The signals of the site and control field in their order (R625). -/
def siteSignals : List String :=
  ["XTAL32_IN", "XTAL32_OUT", "REFCLK_P", "REFCLK_N", "CSI_CK_P", "CSI_CK_N", "CSI_D0_P", "CSI_D0_N", "CSI_D1_P", "CSI_D1_N",
   "PERST_N", "SHED_N", "EPO_A", "EPO_B", "TAMP_A", "TAMP_B", "ALERT_N", "THERM_TRIP_N", "WAKE_OUT"]
  ++ ["CAN0_TXD", "CAN0_RXD", "CAN1_TXD", "CAN1_RXD", "CAN2_TXD", "CAN2_RXD", "CAN3_TXD", "CAN3_RXD"]
  ++ ["GPIO0", "GPIO1", "GPIO2", "GPIO3", "GPIO4", "GPIO5", "GPIO6", "GPIO7", "GPIO8", "GPIO9", "GPIO10", "GPIO11", "GPIO12",
      "GPIO13", "GPIO14", "GPIO15"]
  ++ ["UART0_TX", "UART0_RX", "UART0_DE", "UART1_TX", "UART1_RX", "UART1_DE"]
  ++ ["PMB0_SCL", "PMB0_SDA", "PMB0_ALERT_N", "PMB1_SCL", "PMB1_SDA", "PMB1_ALERT_N"]
  ++ ["RGMII_TXC", "RGMII_TX_CTL", "RGMII_TXD0", "RGMII_TXD1", "RGMII_TXD2", "RGMII_TXD3", "RGMII_RXC", "RGMII_RX_CTL",
      "RGMII_RXD0", "RGMII_RXD1", "RGMII_RXD2", "RGMII_RXD3", "MDC", "MDIO"]
  ++ ["SPI_CK", "SPI_CS_N", "SPI_IO0", "SPI_IO1", "SPI_IO2", "SPI_IO3", "JTAG_TCK", "JTAG_TMS", "JTAG_TDI", "JTAG_TDO", "JTAG_TRST_N"]

/-! ### Pins (R627) -/

/-- Voltage groups. -/
inductive PinGroup where
  | ao
  | aoAnalogue
  | hcsl
  | dphy
  | io33
  | io18
deriving DecidableEq, Repr

/-- The group of signal `k`. -/
def pinGroup (k : Nat) : PinGroup :=
  if k < 2 then .aoAnalogue else if k < 4 then .hcsl else if k < 10 then .dphy
  else if k < 31 then .ao else if k < 55 then .io33 else if k < 75 then .io18 else .io33

/-- The internal pull of signal `k`: down or up, none where the table gives none. EPO_B and TAMP_B follow their pair's MODE. -/
def pinPull (s : State) (k : Nat) : Option Bool :=
  let follows := fun f : Fld => some (rbit s dualPage f)
  if k = 13 then follows Reg.dualIn.EPO_MODE
  else if k = 15 then follows Reg.dualIn.TAMP_MODE
  else if [10, 11, 12, 14, 45, 48, 75, 79].contains k ∨ (27 ≤ k ∧ k ≤ 42) then some false
  else if [20, 22, 24, 26, 43, 44, 46, 47, 70, 76, 77].contains k then some true
  else none

/-- What the device drives on signal `k` in DRY: a level, or nothing, so that the pull or the board decides. -/
def pinInDry (s : State) (k : Nat) : Option Bool :=
  match k with
  | 16 => if s.io.alertLow then some false else none
  | 17 => if s.fq.tripPin then some false else none
  | 18 => some s.ck.wakeOut
  | 19 | 21 | 23 | 25 => some true
  | _ => none

end Sys2Proof.Machine
end

