-- ==== Sys2Proof/Machine/NerWire.lean ====
section
/-! DEFINITION. The octets of a Nerius frame: the 40 header bytes in network order, and back (R7, R403, R405, R406). -/

namespace Sys2Proof.Machine

/-- The code of an operation in OP (R406). -/
def opCode : NerOp → Nat
  | .write => 0x01
  | .signal => 0x02
  | .wack => 0x11
  | .sack => 0x12
  | .hello => 0x21
  | .credit => 0x22
  | .nak => 0x23
  | .announce => 0x24
  | .fault => 0x25
  | .restart => 0x26
  | .restartResult => 0x27

/-- Every operation of R406. -/
def nerOps : List NerOp :=
  [.write, .signal, .wack, .sack, .hello, .credit, .nak, .announce, .fault, .restart, .restartResult]

/-- The operation that a code of OP names. -/
def opOf (n : Nat) : Option NerOp := nerOps.find? fun o => opCode o == n

/-- WFLAGS of a header (R405). -/
def wflags (h : NerHdr) : Nat := h.space.toNat * 64 + h.die.toNat * 4 + (if h.last then 2 else 0)

/-- OPARGS of a header: twelve bytes, zeros for an operation that has none (R405). -/
def opArgs (h : NerHdr) : List Byte :=
  match h.op with
  | .write => beBytes 8 h.address.toNat ++ beBytes 4 0
  | .signal => beBytes 2 h.obj.toNat ++ beBytes 1 (if h.act then 1 else 0) ++ beBytes 1 0 ++ beBytes 4 h.value.toNat ++ beBytes 4 0
  | _ => beBytes 12 0

/-- The 40 bytes of a header before a payload of `len` bytes, each field at the table's offset in network order (R405). -/
def headerBytes (h : NerHdr) (len : Nat) : List Byte :=
  beBytes 1 (16 + opClass h.op * 4) ++ beBytes 1 (opCode h.op) ++ beBytes 2 h.groupTag.toNat ++ beBytes 4 h.run.toNat
    ++ beBytes 1 (h.srcDev.toNat * 16 + h.dstDev.toNat) ++ beBytes 1 (if h.op = .write then wflags h else 0) ++ beBytes 2 len
    ++ beBytes 4 h.seq.toNat ++ beBytes 4 h.ackSeq.toNat
    ++ beBytes 4 (h.creditReq.toNat * 2 ^ 20 + h.creditRsp.toNat * 2 ^ 10 + h.creditCtl.toNat)
    ++ beBytes 2 h.tag.toNat ++ beBytes 2 0 ++ opArgs h

/-- The number in the `n` bytes at offset `i`, network order. -/
def beAt (bs : List Byte) (i n : Nat) : Nat := beNat (sliceB bs i n)

/-- The header that 40 bytes spell, and LEN; none where they are fewer, or VER, CLS or OP is no row of R405 and R406. The fields that
the table gives WRITE or SIGNAL alone are zero in every other header. -/
def headerOf (bs : List Byte) : Option (NerHdr × Nat) :=
  match opOf (beAt bs 1 1) with
  | none => none
  | some o =>
    if bs.length < 40 ∨ beAt bs 0 1 ≠ 16 + opClass o * 4 then none
    else
      let w := o == .write
      let g := o == .signal
      let f := if w then beAt bs 9 1 else 0
      let c := beAt bs 20 4
      some ({ op := o, groupTag := BitVec.ofNat 16 (beAt bs 2 2), run := BitVec.ofNat 32 (beAt bs 4 4)
              srcDev := BitVec.ofNat 4 (beAt bs 8 1 / 16), dstDev := BitVec.ofNat 4 (beAt bs 8 1)
              space := BitVec.ofNat 2 (f / 64), die := BitVec.ofNat 4 (f / 4), last := bitAt f 1
              seq := BitVec.ofNat 32 (beAt bs 12 4), ackSeq := BitVec.ofNat 32 (beAt bs 16 4)
              creditReq := BitVec.ofNat 12 (c / 2 ^ 20), creditRsp := BitVec.ofNat 10 (c / 2 ^ 10), creditCtl := BitVec.ofNat 10 c
              tag := BitVec.ofNat 16 (beAt bs 24 2)
              address := if w then BitVec.ofNat 64 (beAt bs 28 8) else 0
              obj := if g then BitVec.ofNat 16 (beAt bs 28 2) else 0
              act := g && beAt bs 30 1 == 1
              value := if g then BitVec.ofNat 32 (beAt bs 32 4) else 0 }, beAt bs 10 2)

/-- A header whose fields of another operation are zero, as R405 asks. -/
def headerPlain (h : NerHdr) : Bool :=
  (h.op == .write || (h.space == 0 && h.die == 0 && !h.last && h.address == 0))
    && (h.op == .signal || (h.obj == 0 && !h.act && h.value == 0))

/-- The octets of an untagged frame before its FCS: MACs, EtherType, header, payload, padding up to 64 bytes with the FCS
(R403). -/
def frameBytes (f : NerFrame) : List Byte :=
  let body := beBytes 6 f.dst.toNat ++ beBytes 6 f.src.toNat ++ beBytes 2 f.etype.toNat ++ headerBytes f.hdr f.payload.length ++ f.payload
  body ++ List.replicate (60 - body.length) 0

end Sys2Proof.Machine
end

