-- ==== Sys2Proof/WellFormed.lean ====
section
/-! DEFINITION. Which commands can occur: the pages that the directory lists, and the ranges of operands that their types
do not bound. -/

namespace Sys2Proof

/-- How many instances of a block a compute die carries; a Nerius port is on its own die only (R42, R402). -/
def dieInstances : Block → Nat
  | .core | .dma | .sequencer | .objectPage => 16
  | .arrayGroup | .syncBank => 4
  | .diePower | .dieModel | .dieFreq | .stackCtrl => 1
  | _ => 0

/-- How many instances of a block the hub carries. -/
def hubInstances : Block → Nat
  | .directory | .syncBank => 4
  | .keySlot => 8
  | .tenantEnergy | .bridgeDma => 16
  | .jobSlot | .peerTable => 32
  | .objectPage => 64
  | .journal | .eventLog | .powerState | .weir | .energy | .time | .wake | .heat | .admission | .gateway | .siteBus
  | .aux | .dualIn | .siteChannel | .castle | .boot | .spiNor | .identity | .bridge | .keyStore | .fuse | .tamper => 1
  | _ => 0

/-- The gateway port pages by instance (R484). -/
def gatewayPort : Block → Nat → Bool
  | .canPort, i => decide (i ≤ 3)
  | .ethPort, i => i == 4
  | .uartPort, i => i == 5 || i == 6
  | .pmbPort, i => i == 7 || i == 8
  | _, _ => false

/-- The die of a Nerius port (R21). -/
def portOnDie (i d : Nat) : Bool := (i, d) == (0, 0) || (i, d) == (1, 3) || (i, d) == (2, 8) || (i, d) == (3, 11)

/-- A page that a directory lists: PF0's, a VF's own directory, or a window of a VF (R42–R57, R334). A VF's directory has
instance 16 + t; its windows stand under 16 + t with instances 256 to 495 (log entry 3). -/
def Page.listed (p : Page) : Bool :=
  if p.die ≤ 11 then decide (p.inst < dieInstances p.blk) || (p.blk == .nerius && portOnDie p.inst p.die)
  else if p.die = 12 then
    decide (p.inst < hubInstances p.blk) || gatewayPort p.blk p.inst
      || (p.blk == .directory && decide (17 ≤ p.inst ∧ p.inst ≤ 31))
  else if p.die = 13 ∨ p.die = 14 then p.blk == .powerStage && p.inst == 0
  else p.blk == .objectPage && decide (17 ≤ p.die ∧ p.die ≤ 31 ∧ 256 ≤ p.inst ∧ p.inst < 496)

/-- The length of a CAN payload that a DLC spells: up to 8 bytes, and for FD also 12, 16, 20, 24, 32, 48, 64 (R457). -/
def canLength (fdf : Bool) (n : Nat) : Bool :=
  decide (n ≤ 8) || (fdf && (n == 12 || n == 16 || n == 20 || n == 24 || n == 32 || n == 48 || n == 64))

/-- A frame that the CAN protocol can carry: an 11-bit identifier without IDE, a rate switch only in an FD frame. -/
def CanFrame.wf (f : CanFrame) : Bool :=
  canLength f.fdf f.payload.length && (f.ide || decide (f.ident.toNat < 2048)) && (f.fdf || !f.brs)

/-- A Nerius frame whose payload LEN can spell, at most 8,192 bytes (R405). -/
def NerFrame.wf (f : NerFrame) : Bool := decide (f.payload.length ≤ 8192)

/-- A supply reading fits its 16-bit register (R103). -/
def supplyFits (v : Nat) : Bool := decide (v < 2 ^ 16)

/-- One reading for each of the eight aux channels, 16 bits each (R515). -/
def currentsFit (c : List Nat) : Bool := c.length == 8 && c.all fun x => decide (x < 2 ^ 16)

/-- The readings of one correction step fit their registers. -/
def Sense.wf (m : Sense) : Bool :=
  supplyFits m.v48 && [m.iin0, m.iin1, m.iout0, m.iout1, m.viv0, m.viv1].all (fun x => decide (x < 2 ^ 16))
    && currentsFit m.aux

/-- The lines of a camera frame hold values of at most 16 bits (R546). -/
def linesFit (l : List (List Nat)) : Bool := l.all fun x => x.all fun y => decide (y < 2 ^ 16)

/-- A command that can occur. -/
def WellFormed : Instr → Bool
  | .blockEnable _ p | .blockDisable _ p | .quiesceReq _ p _ | .drainReq _ p | .drainClear _ p | .drainComplete p
  | .resetReq _ p | .resetEnd p | .allotRequest _ p _ | .allotGrant p | .irqStatClear _ p _ | .pgErrClear _ p _
  | .lockSet _ p _ | .commandComplete p | .rampRoomEnable p => p.listed
  | .countWrite _ p _ _ | .notifyClear _ p _ _ => p.listed && p.blk == .objectPage
  | .energyRecordFetch _ p _ => p.listed && (p.blk == .energy || p.blk == .tenantEnergy)
  | .lateResponse a b _ _ => a.listed && b.listed && b.blk == .syncBank
  | .brownout v | .brownoutClear v | .stageUndervoltage v | .overvoltageTrip v | .dryExitQualified v => supplyFits v
  | .correct m => m.wf
  | .auxGrantExcess c | .auxEscalate c | .auxReleaseCheck c => currentsFit c
  | .inrushTimeout _ c | .auxLimitEnter _ c | .auxShort _ c | .auxLimitingEnd _ c => decide (c < 2 ^ 16)
  | .dryWakeFrameMatch _ f | .canFrameRx _ f | .referenceRx f | .powerStateRx f _ _ | .siteBusCommand f _ _
  | .wakeFrameRx _ f | .wakeAckRx f => f.wf
  | .neriusFrameDiscard _ f | .neriusWrite _ f | .neriusSignal _ f | .wack _ f | .sack _ f | .hello _ f
  | .neriusCredit _ f | .nak _ f | .announce _ f | .groupFaultFrame _ f | .neriusRestart _ f | .restartResult _ f => f.wf
  | .bar2Write _ data _ => decide (1 ≤ data.length ∧ data.length ≤ 4096)
  | .bar2Read _ len => decide (1 ≤ len ∧ len ≤ 4096)
  | .atomicFetchAdd _ _ wide v => wide || decide (v.toNat < 2 ^ 32)
  | .atomicCas _ _ wide a b => wide || decide (a.toNat < 2 ^ 32 ∧ b.toNat < 2 ^ 32)
  | .csiFrameStart f => linesFit f.lines
  | .testPatternInject l => linesFit l
  | .patrolScrub _ pma => decide (pma % 32 = 0)
  | .jobFault _ cause _ _ => decide (1 ≤ cause.toNat ∧ cause.toNat ≤ 8)
  | _ => true

end Sys2Proof
end

