-- ==== Sys2Proof/Safety.lean ====
section
/-! DEFINITION. What holds of every state that the block can be in: the memories in canonical form, the journal ring in its
slots, the recorder's queues and logs within their sizes; and what a later state keeps of an earlier one. -/

namespace Sys2Proof.Machine

/-- The byte memories are in canonical form: core and die SRAM, the stacks, the boot flash (log entry 4). -/
abbrev memoriesWf (s : State) : Prop :=
  Mem.wf 0x00 s.co.sram = true ∧ Mem.wf 0x00 s.co.dsram = true ∧ Mem.wf 0x00 s.hbm.data = true
    ∧ Mem.wf 0xFF s.bt.flash = true

/-- The ring holds 8,192 entries: sequence number n stands in slot n mod 8,192, and the next number is above them all
(R86, R87). -/
def journalWf (s : State) : Prop :=
  1 ≤ s.jr.nextSeq ∧ ∀ x ∈ s.jr.slots, x.1 = x.2.seq % 8192 ∧ 1 ≤ x.2.seq ∧ x.2.seq < s.jr.nextSeq

/-- The recorder's queues and logs hold no more than they have room for (R610, R611, R617, R618). -/
abbrev recorderWf (s : State) : Prop :=
  s.ev.intake.length ≤ 64 ∧ s.ev.tamperQ.length ≤ 8 ∧ s.ev.ring.length ≤ 16384 ∧ s.ev.ff.length ≤ 4096
    ∧ s.ev.dry.length ≤ 16

/-- A state that the block can be in. -/
def Sound (s : State) : Prop := memoriesWf s ∧ journalWf s ∧ recorderWf s

/-- Every bit of `a` is a bit of `b`. -/
def bitsKept (a b : Nat) : Prop := ∀ i, bitAt a i = true → bitAt b i = true

/-- The fuse bits that are blown stay blown (R570). -/
def fusesKept (a b : Fuses) : Prop :=
  bitsKept a.denyPf0 b.denyPf0 ∧ bitsKept a.denySb b.denySb ∧ bitsKept a.debugLock b.debugLock
    ∧ bitsKept a.tamperResp b.tamperResp ∧ bitsKept a.mandatory b.mandatory ∧ bitsKept a.commission b.commission
    ∧ bitsKept a.svnFloor b.svnFloor ∧ bitsKept a.epoch b.epoch ∧ bitsKept a.integrator b.integrator
    ∧ b.fwKeyHash = a.fwKeyHash

/-! ### When a command runs as itself -/

/-- A write by client `c` to page `p` reaches it at once: the client is up and nothing that it sent there before waits (R72), a VF
sees the page through a view in use, and the fuses do not deny the page's class (R46, R54, R334, R573). -/
def reachesPage (s : State) (c : Client) (p : Page) : Bool :=
  clientUp s c && !waits s c p &&
    (match c with
     | .vf i => vfReaches s (i.val + 1) p && !windowIdle s p
     | _ => !fuseDenied s c p.blk)

/-- A block-specific register of the page takes the client's write: the page is not OFFLINE (R47). -/
def reachesBlock (s : State) (c : Client) (p : Page) : Bool := reachesPage s c p && !offline s p

/-- PG_CTRL and PG_ALLOT_REQ take the client's write: not through a VF's view (R56), and PF0's not on a page that the hub holds for
the site channel (R293). -/
def reachesCtrl (s : State) (c : Client) (p : Page) : Bool :=
  reachesPage s c p && !(c.isVf && isView p.blk) && (decide (c ≠ .pf0) || !hubOwns s p)

/-- EN of a mandatory site channel is held at 1 (R575). -/
def heldByFuse (s : State) (p : Page) : Bool := decide (p.blk = .siteChannel) && decide (s.fuseOn.mandatory = 1)

/-- A PG_CMD write of opcode `op` to page `p` is accepted and executes at once: the client is up and sees the page, 10 µs have
passed since the last acceptance and nothing waits (R81), so that no journal write is under way (R87), no line of the gate
refuses (R75), the command retries none (R96), and the slot that it names is the tenant's own (R57). -/
def accepts (s : State) (p : Page) (op : Nat) (r : Req) : Bool :=
  clientUp s r.client && (vfBlind s r.client p).isNone && !tooSoon s && s.jr.deferred.isEmpty && s.jr.writing.isNone
    && (gate s p r.client op).isNone && (jRetry s r.client.index (addrOf s p 0x030) r.tag.toNat).isNone
    && !foreignSlot s r.client p

/-- The journal entry of a command accepted now (R84, R88). -/
def entryOf (s : State) (p : Page) (op : Nat) (r : Req) : JEntry := commandEntry s p op r Code.pending s.jr.nextSeq

/-- What executes on the page then (R75). -/
def cmdOf (s : State) (op : Nat) (r : Req) : CmdRun :=
  { client := r.client, source := r.source, seq := s.jr.nextSeq, opcode := op, arg := r.arg.toNat, tag := r.tag.toNat,
    final := none, upper := none }

/-- The state in which the chapter's effect of an accepted command begins: the client's context holds what it wrote and a
PENDING result with the low half of the sequence number, the journal holds the entry, the page executes the command
(R73–R75, R86, R88). -/
def accepted (s : State) (p : Page) (op : Nat) (r : Req) : State :=
  let s1 := cset p r.client { cget s p r.client with cmd := op, arg := r.arg.toNat, tag := r.tag.toNat } s
  let s2 := jWrite (commandEntry s p op r Code.pending) { s1 with jr := { s1.jr with writing := none } }
  let s2 := { s2 with jr := { s2.jr with lastAccept := some s.ck.dt, unsettled := s.jr.unsettled ++ [entryOf s p op r] } }
  let s3 := replyGate p r (some s.jr.nextSeq) (setResult p r.client Code.pending (some (s.jr.nextSeq % 65536)) s2)
  hset p { hget s3 p with cmd := some (cmdOf s op r) } s3

end Sys2Proof.Machine
end

