-- ==== Sys2Proof/Certificates/Slice0/Obligations.lean ====
section
/-! DEFINITION. The statements about the block, from the numbered rules of the manual. `exec` is one command; hypotheses speak
of the state before it and of its operands alone. -/

open Sys2Proof Sys2Proof.Machine

/-! ### The queue, reset, and every step -/

/-- One step runs the command at the front of the queue on the state with the queue's rest, and with an empty queue it
advances device time (the model's own arrangement, log entry 1). -/
def Obligations.StepRunsFrontCommand : Prop :=
  (∀ (c : Instr) (rest : List Instr) (s : State), s.pending = c :: rest → step s = exec c { s with pending := rest })
    ∧ ∀ s : State, s.pending = [] → step s = .next (idle s)

/-- No command of the table stops the block: each answers a next state. -/
def Obligations.EveryCommandAnswersNext : Prop := ∀ (c : Instr) (s : State), ∃ t, exec c s = .next t

/-- The machine at reset: in DRY, nothing waiting, every register field and every header at its reset value, PG_STAT of every
listed page reading 0x40, and the state one that the block can be in. -/
def Obligations.ResetLeavesEveryPageAtReset : Prop :=
  Sound State.reset ∧ State.reset.pending = [] ∧ State.reset.pw.mode = .dry
    ∧ (∀ (p : Page) (f : Fld) (i : Nat), rget State.reset p f i = f.resetAt i)
    ∧ (∀ p : Page, hget State.reset p = {}) ∧ (∀ (p : Page) (c : Client), cget State.reset p c = {})
    ∧ ∀ p ∈ dirAll.map (·.page), pgStat State.reset p = 0x40

/-- Every step keeps the memories in canonical form, the journal's entries in their slots and the recorder's queues and logs
within their sizes. -/
def Obligations.EveryStepKeepsSound : Prop := ∀ s t : State, Sound s → step s = .next t → Sound t

/-- No bit of the fuse bank returns from 1 to 0 (R570). -/
def Obligations.BlownFusesStayBlown : Prop := ∀ s t : State, step s = .next t → fusesKept s.fuse t.fuse

/-- A number of the journal once drawn is never drawn again (R86): no step lowers the counter, and an entry that a step leaves
in a slot keeps its number or gives way to a later one. -/
def Obligations.JournalNumbersOnlyRise : Prop :=
  ∀ s t : State, Sound s → step s = .next t →
    s.jr.nextSeq ≤ t.jr.nextSeq ∧
      ∀ (k : Nat) (e : JEntry), Assoc.get s.jr.slots k = some e → ∃ e', Assoc.get t.jr.slots k = some e' ∧ e.seq ≤ e'.seq

/-! ### Registers and headers (chapter 02) -/

/-- BLOCK_ENABLE: with GRANT_OK = 1 and a set-up that the chapter allows, EN becomes 1; with GRANT_OK = 0, EN stays 0 and
PG_ERR records NO_GRANT (R61). BLOCK_DISABLE: EN becomes 0, but for a mandatory site channel (R575). QUIESCE_REQ: the request
bit takes the value, and nothing else changes (R60). -/
def Rules.EnableDisableQuiesceTakeEffect : Prop :=
  ∀ (c : Client) (p : Page) (s : State), reachesCtrl s c p = true →
    ((hget s p).en = false → grantOk s p = true → enableBad s p = false →
        ∃ t, exec (.blockEnable c p) s = .next t ∧ (hget t p).en = true)
    ∧ ((hget s p).en = false → grantOk s p = false →
        ∃ t, exec (.blockEnable c p) s = .next t ∧ (hget t p).en = false ∧ (hget t p).errCode = 0x0101
          ∧ (hget t p).errCount = min 65535 ((hget s p).errCount + 1) ∧ t.rf = s.rf)
    ∧ ((hget s p).en = true → (p.blk ≠ .siteChannel ∨ s.fuseOn.mandatory ≠ 1) →
        ∃ t, exec (.blockDisable c p) s = .next t ∧ (hget t p).en = false)
    ∧ ∀ on, exec (.quiesceReq c p on) s = .next (hset p { hget s p with quiesce := on } s)

/-- DRAIN_REQ, DRAIN_CLEAR, DRAIN_COMPLETE (R62, R77): a drain begins at the request, aborts the executing command, and reads
DRAINING until the block is off again; a clear after completion gives the off state with EN = 0 (EN of a mandatory site channel is held at 1, R575), one
before completion only clears the request; completion leaves the block drained, or off at once where the request has been cleared. -/
def Rules.DrainRunsItsPhases : Prop :=
  ∀ (c : Client) (p : Page) (s : State), p.listed = true → p.die ≤ 15 →
    (reachesCtrl s c p = true → (hget s p).phase = .run → (hget s p).resetReq = false →
        ∃ t, exec (.drainReq c p) s = .next t ∧ draining t p = true ∧ (hget t p).drainReq = true
          ∧ (hget t p).cmd = none ∧ (hget t p).phase = (if pageAlone p.blk then .drained else .draining))
    ∧ (reachesCtrl s c p = true → (hget s p).phase = .drained → (hget s p).drainReq = true →
        ∃ t, exec (.drainClear c p) s = .next t ∧ (hget t p).phase = .run ∧ (hget t p).en = heldByFuse s p
          ∧ (hget t p).drainReq = false)
    ∧ (reachesCtrl s c p = true → (hget s p).phase = .draining → (hget s p).drainReq = true →
        ∃ t, exec (.drainClear c p) s = .next t ∧ (hget t p).phase = .draining ∧ (hget t p).drainReq = false)
    ∧ ((hget s p).phase = .draining → (hget s p).resetReq = false → (hget s p).drainReq = true →
        ∃ t, exec (.drainComplete p) s = .next t ∧ (hget t p).phase = .drained ∧ bitAt (hget t p).irqStat 4 = true)
    ∧ ((hget s p).phase = .draining → (hget s p).resetReq = false → (hget s p).drainReq = false →
        ∃ t, exec (.drainComplete p) s = .next t ∧ (hget t p).phase = .run ∧ (hget t p).en = heldByFuse s p)

/-- RESET_REQ and RESET_END (R63): the reset starts when the drain completes, with OFFLINE = 1, EN = 0, FAULT = 0 and PG_ERR
clear, PG_LOCK standing; its end clears the request and leaves the off state, and a QUIESCE_REQ or a DRAIN_REQ that the shadow
took meanwhile applies (R47). -/
def Rules.ResetRunsItsPhases : Prop :=
  ∀ (c : Client) (p : Page) (s : State), p.listed = true → p.die ≤ 15 →
    (reachesCtrl s c p = true → (hget s p).phase = .drained →
        ∃ t, exec (.resetReq c p) s = .next t ∧ (hget t p).phase = .inReset ∧ offline t p = true
          ∧ (hget t p).resetReq = true ∧ (hget t p).en = false ∧ (hget t p).fault = false
          ∧ (hget t p).errCode = 0 ∧ (hget t p).errCount = 0 ∧ (hget t p).lock = (hget s p).lock)
    ∧ (reachesCtrl s c p = true → (hget s p).phase = .run →
        ∃ t, exec (.resetReq c p) s = .next t ∧ (hget t p).resetReq = true ∧ (hget t p).cmd = none
          ∧ (hget t p).phase = (if pageAlone p.blk then .inReset else .draining))
    ∧ ((hget s p).phase = .inReset →
        ∃ t, exec (.resetEnd p) s = .next t ∧ (hget t p).en = heldByFuse s p ∧ (hget t p).resetReq = false
          ∧ (hget t p).quiesce = (hget s p).quiesce ∧ (hget t p).drainReq = (hget s p).drainReq
          ∧ (hget t p).phase
              = (if (hget s p).drainReq then (if pageAlone p.blk then .drained else .draining) else .run))

/-- A command that is executing when its block enters drain or reset ends with ABORTED: the client's result says so, and where
the drain acts on the page alone, the journal's entry too (R77, R88). -/
def Rules.DrainAbortsTheExecutingCommand : Prop :=
  ∀ (c : Client) (p : Page) (s : State) (r : CmdRun), p.listed = true → p.die ≤ 15 → reachesCtrl s c p = true →
    (hget s p).phase = .run → (hget s p).cmd = some r →
    (∃ t, exec (.drainReq c p) s = .next t ∧ (hget t p).cmd = none ∧ (cget t p r.client).result % 65536 = 0x010B
      ∧ (pageAlone p.blk = true → ∀ e, jEntry s r.seq = some e → jEntry t r.seq = some { e with result := 0x010B }))
    ∧ ∃ t, exec (.resetReq c p) s = .next t ∧ (hget t p).cmd = none ∧ (cget t p r.client).result % 65536 = 0x010B

/-- Writes to the rest of the header change exactly the field they name, in that page's header alone: PG_IRQ_STAT clears by
ones, PG_ERR clears by ones, PG_LOCK sets the bits that the page defines, and a VF's view of it takes nothing (R16, R56,
R66–R68). -/
def Rules.HeaderWritesChangeTheirFieldAlone : Prop :=
  ∀ (c : Client) (p : Page) (v : Word) (s : State), reachesPage s c p = true →
    exec (.irqStatClear c p v) s
        = .next (hset p { hget s p with irqStat := (hget s p).irqStat &&& (v.toNat ^^^ 0xFFFFFFFF) } s)
    ∧ exec (.pgErrClear c p v) s
        = .next (hset p { hget s p with
            errCode := (hget s p).errCode &&& (v.toNat ^^^ 0xFFFFFFFF)
            errCount := (hget s p).errCount &&& ((v.toNat ^^^ 0xFFFFFFFF) / 65536) } s)
    ∧ ((c.isVf && isView p.blk) = false → offline s p = false →
        exec (.lockSet c p v) s
          = .next (hset p { hget s p with lock := (hget s p).lock ||| (v.toNat &&& lockMask p.blk) } s))
    ∧ ((c.isVf && isView p.blk) = false → offline s p = true →
        ∃ t, exec (.lockSet c p v) s = .next t ∧ (hget t p).lock = (hget s p).lock ∧ (hget t p).errCode = 0x0006)
    ∧ ((c.isVf && isView p.blk) = true → exec (.lockSet c p v) s = .next s)

/-- ALLOT_REQUEST and ALLOT_GRANT (R65, R184): PG_ALLOT_REQ holds the request on a page that carries an allotment and changes
nothing on another; at a correction step a waiting request that fits, before which none fits, gets its effective size and waits
no longer. -/
def Rules.AllotmentsAreRequestedAndGranted : Prop :=
  ∀ (c : Client) (p : Page) (v : Word) (s : State),
    (reachesCtrl s c p = true → hasAllotment p.blk = true →
        ∃ t, exec (.allotRequest c p v) s = .next t ∧ (hget t p).allotReq = v.toNat)
    ∧ (reachesCtrl s c p = true → hasAllotment p.blk = false →
        ∃ t, exec (.allotRequest c p v) s = .next t ∧ (hget t p).allotReq = (hget s p).allotReq
          ∧ (hget t p).grant = (hget s p).grant ∧ (hget t p).errCount = (hget s p).errCount)
    ∧ (protRuns s = true → s.we.lastStep = some s.ck.dt → s.we.waiters.contains p = true →
        (hget s p).grant < atV48 s (hget s p).allotReq →
        grantFits s p (atV48 s (hget s p).allotReq) = true →
        (s.we.waiters.any fun x => waitsBefore s x p && grantFits s x (atV48 s (hget s x).allotReq)) = false →
        ∃ t, exec (.allotGrant p) s = .next t ∧ (hget t p).grant = atV48 s (hget s p).allotReq
          ∧ t.we.waiters = s.we.waiters.filter (· ≠ p))

/-- REGISTER_WRITE (R46, R47, R69, R73): a write with partial byte enables is discarded and records BAD_ADDR on the page, one
to an unlisted address on the directory head page; PG_IRQ_EN takes the word but for its reserved bits, PG_CMD_ARG and PG_CMD_TAG
take all of it; a block-specific word of an OFFLINE page is discarded and records OFFLINE. -/
def Rules.RegisterWriteTakesItsWord : Prop :=
  ∀ (c : Client) (a : BitVec 26) (be : BitVec 4) (v : Word) (p : Page) (s : State),
    (c.isVf = true ∨ a.toNat / 2 ^ 22 ≠ 15) → reachesPage s c p = true → placeOf s c a.toNat = .page p →
    ((be ≠ 15#4 ∨ a.toNat % 4 ≠ 0) → exec (.registerWrite c a be v) s = .next (pgErr p 0x0008 s))
    ∧ (be = 15#4 → a.toNat % 4096 = 0x018 →
        ∃ t, exec (.registerWrite c a be v) s = .next t ∧ (hget t p).irqEn = v.toNat &&& irqMask p.blk ∧ t.rf = s.rf)
    ∧ (be = 15#4 → a.toNat % 4096 = 0x034 →
        exec (.registerWrite c a be v) s = .next (cset p c { cget s p c with arg := v.toNat } s))
    ∧ (be = 15#4 → a.toNat % 4096 = 0x038 →
        exec (.registerWrite c a be v) s = .next (cset p c { cget s p c with tag := v.toNat } s))
    ∧ (be = 15#4 → 0x040 ≤ a.toNat % 4096 → a.toNat % 4 = 0 → offline s p = true →
        exec (.registerWrite c a be v) s = .next (pgErr p 0x0006 s))

/-- A block-specific RW field that no lock covers and whose range takes the value holds its part of the written word, on every
page whose words follow the register table alone (a port's configuration words, from 0x100, only while the port is not active,
R484; a job slot's not through a VF's view, R364); an address that no directory lists records BAD_ADDR (R46, R68). -/
def Rules.RegisterWriteStoresFields : Prop :=
  ∀ (c : Client) (a : BitVec 26) (v : Word) (s : State), (c.isVf = true ∨ a.toNat / 2 ^ 22 ≠ 15) →
    (∀ (p : Page) (f : Fld), placeOf s c a.toNat = .page p → reachesBlock s c p = true →
        p.blk ∈ [.canPort, .ethPort, .uartPort, .pmbPort, .bridgeDma, .dieFreq, .spiNor, .dualIn, .jobSlot] →
        (f.off < 0x100 ∨ enActive s p = false) → (p.blk ≠ .jobSlot ∨ c.isVf = false) →
        a.toNat % 4 = 0 → f ∈ regsOf p.blk → f.off = a.toNat % 4096 → f.stride = 0 → f.w ≤ 32 →
        (f.acc = .rw ∨ f.acc = .rwl) → f.perClient = false → f.derived = false → 0x040 ≤ f.off →
        wordLocked s p f.off = false → wordOk s p f.off v.toNat = true →
        ∃ t, exec (.registerWrite c a 15#4 v) s = .next t ∧ rget t p f = bitsOf v.toNat f.lo f.w ∧ t.hdr = s.hdr)
    ∧ ∀ h, clientUp s c = true → placeOf s c a.toNat = .unlisted h →
        exec (.registerWrite c a 15#4 v) s = .next (pgErr h 0x0008 s)

/-- BROADCAST_WRITE (R45): PG_IRQ_EN of a page with BCAST = 1, for whose pages nothing of the client waits (R72), is written on
all twelve compute dies; a write to PG_CMD, to
PG_LOCK or to a page with BCAST = 0 is discarded on every die and records BAD_ADDR on the directory head page. -/
def Rules.BroadcastWriteReachesTwelveDies : Prop :=
  ∀ (c : Client) (n : Fin 1024) (off : BitVec 12) (v : Word) (s : State), c.isVf = false → clientUp s c = true →
    (∀ (e : DirEntry), e ∈ dirCompute 0 → e.num = n.val → bcastOf e.page.blk = true → off = 0x018#12 →
        (∀ b, fuseDenied s c b = false) → (∀ d : Fin 12, waits s c { e.page with die := d.val } = false) →
        ∃ t, exec (.broadcastWrite c n off v) s = .next t
          ∧ ∀ d : Fin 12, (hget t { e.page with die := d.val }).irqEn = v.toNat &&& irqMask e.page.blk)
    ∧ ((off = 0x030#12 ∨ off = 0x02C#12 ∨ ∀ e ∈ dirCompute 0, e.num = n.val → bcastOf e.page.blk = false) →
        exec (.broadcastWrite c n off v) s = .next (pgErr headPage 0x0008 s))

/-- COUNTER_LOW_READ (R69, R71): a read of the low word of a 64-bit counter, behind which nothing of the client waits, latches its
high word for the reading client, on that page, and for no other client; a PCIe function gets the bytes that it requested. -/
def Rules.CounterLowReadLatchesHighWord : Prop :=
  ∀ (c : Client) (a : BitVec 26) (be : BitVec 4) (p : Page) (x : FieldAt) (s : State),
    clientUp s c = true → waits s c p = false → (c.isVf = true ∨ a.toNat / 2 ^ 22 ≠ 15) → placeOf s c a.toNat = .page p →
    fuseDenied s c p.blk = false → offline s p = false → p.blk ≠ .time →
    counterAt p.blk (a.toNat % 4096 / 4 * 4) = some x →
    ∃ t, exec (.counterLowRead c a be) s = .next t
      ∧ ((c = .pf0 ∨ c.isVf = true) →
          t.out = s.out ++ [.completion .ok (enabledBytes be (readWord s c p (a.toNat % 4096 / 4 * 4)))])
      ∧ (cget t p c).latch = fieldValue s c p x.fld x.idx / 2 ^ 32
      ∧ ∀ (q : Page) (d : Client), (q ≠ p ∨ d ≠ c) → cget t q d = cget s q d

/-! ### Commands and the journal (chapters 02 and 03) -/

/-- An accepted PG_CMD write, of every command in the table: the client's context and PENDING result, the journal's entry at
the next number, and the page's executing command are those of R73–R75, R84 and R88 when the chapter's effect begins; what
the chapter then does to the state is the command's own. -/
def Rules.AcceptedCommandsBeginInJournal : Prop :=
  ∀ (p : Page) (op : Nat) (r : Req) (s : State), accepts s p op r = true →
    (cget (accepted s p op r) p r.client).result = 1 + 65536 * (s.jr.nextSeq % 65536)
    ∧ (cget (accepted s p op r) p r.client).cmd = op ∧ (cget (accepted s p op r) p r.client).arg = r.arg.toNat
    ∧ (cget (accepted s p op r) p r.client).tag = r.tag.toNat
    ∧ jEntry (accepted s p op r) s.jr.nextSeq = some (entryOf s p op r)
    ∧ (accepted s p op r).jr.nextSeq = s.jr.nextSeq + 1
    ∧ (hget (accepted s p op r) p).cmd = some (cmdOf s op r)
    ∧ ∀ c ≠ r.client, cget (accepted s p op r) p c = cget s p c

/-- A PG_CMD write that the gate refuses (R75) while no journal write is under way: the client's result takes the refusal's code
with its upper half unchanged, PG_ERR records it, and no journal entry is written. -/
def Rules.RefusedCommandWritesNoEntry : Prop :=
  ∀ (p : Page) (op : Nat) (r : Req) (eff : State → State) (s : State) (code : Nat),
    clientUp s r.client = true → vfBlind s r.client p = none → tooSoon s = false → s.jr.deferred = [] →
    s.jr.writing = none → gate s p r.client op = some code →
    (cget (command p op r eff s) p r.client).result = code + 65536 * ((cget s p r.client).result / 65536)
    ∧ (hget (command p op r eff s) p).errCode = code
    ∧ (command p op r eff s).jr = s.jr ∧ (command p op r eff s).pw = s.pw ∧ (command p op r eff s).ck = s.ck
    ∧ (command p op r eff s).co = s.co ∧ (command p op r eff s).hbm = s.hbm ∧ (command p op r eff s).jb = s.jb

/-- COMMAND_COMPLETE (R75, R88): the executing command's final code reaches the client's result and the journal's entry, and
CMD_DONE rises. COMMAND_ACCEPT_DEFERRED (R72, R81): the oldest waiting write passes the gate once 10 µs have passed, and what the
client sent to that page behind it takes effect in its order. -/
def Rules.CommandsCompleteAndDeferredOnesPass : Prop :=
  (∀ (p : Page) (r : CmdRun) (code : Nat) (s : State), hubRuns s = true → (hget s p).cmd = some r → r.final = some code →
      code < 65536 →
      ∃ t, exec (.commandComplete p) s = .next t ∧ (hget t p).cmd = none
        ∧ (cget t p r.client).result % 65536 = code ∧ bitAt (hget t p).irqStat 0 = true
        ∧ (∀ e, jEntry s r.seq = some e → jEntry t r.seq = some { e with result := code })
        ∧ ∀ c, c ≠ r.client → cget t p c = cget s p c)
  ∧ ∀ (w : Waiting) (ws : List Waiting) (op : Nat) (r : Req) (host : HostCpl) (data : List Byte) (s : State),
      s.jr.deferred = w :: ws → w.act = .cmd op r host data → hubRuns s = true → tooSoon s = false → s.jr.writing = none →
      gate s w.page r.client op = none → jRetry s r.client.index (addrOf s w.page 0x030) r.tag.toNat = none →
      foreignSlot s r.client w.page = false →
      exec .commandAcceptDeferred s
        = .next (resumeAll w.client w.page ws (effectOf w.page op r host data
            (accepted { s with jr := { s.jr with deferred := [] } } w.page op r)))

/-- JOURNAL_FETCH (R94): RD_STAT and the eight words of the client's read buffer show the entry with the number that
RD_SEQ_HI and RD_SEQ_LO name, or why none is shown; no other client's buffer changes. -/
def Rules.JournalFetchFillsTheReadBuffer : Prop :=
  ∀ (c : Client) (hi : Word) (s : State), reachesBlock s c journalPage = true →
    ∃ t, exec (.journalFetch c hi) s = .next t
      ∧ (let q := hi.toNat % 2 ^ Reg.journal.RD_SEQ_HI.w * 2 ^ 32 + rgetC s c journalPage Reg.journal.RD_SEQ_LO
         rgetC t c journalPage Reg.journal.RD_STAT = (journalRead s q).1 % 4
           ∧ ∀ i : Fin 8, rgetC t c journalPage Reg.journal.RD_W i.val = (journalRead s q).2.getD i.val 0 % 2 ^ 32)
      ∧ (∀ d, d ≠ c → ∀ f i, rgetC t d journalPage f i = rgetC s d journalPage f i) ∧ t.jr = s.jr

/-- PG_CTRL (R60, R61): setting EN while GRANT_OK = 0 leaves EN at 0 and records NO_GRANT; of several request bits in one write,
RESET_REQ goes before DRAIN_REQ, DRAIN_REQ before QUIESCE_REQ, QUIESCE_REQ before EN, and the lower ones are ignored; a write of
QUIESCE_REQ alone writes EN = 0 with it. -/
def Obligations.ControlWriteTakesHighestRequest : Prop :=
  ∀ (c : Client) (a : BitVec 26) (v : Word) (p : Page) (s : State),
    a.toNat / 2 ^ 22 ≠ 15 → a.toNat % 4096 = 0x008 → reachesCtrl s c p = true → placeOf s c a.toNat = .page p →
    (bitAt v.toNat 3 = true → exec (.registerWrite c a 15#4 v) s = exec (.resetReq c p) s)
    ∧ (bitAt v.toNat 3 = false → bitAt v.toNat 2 = true → v.toNat % 4 ≠ 0 →
        exec (.registerWrite c a 15#4 v) s = exec (.drainReq c p) s)
    ∧ (v.toNat % 16 = 3 → (hget s p).drainReq = false → p.blk ≠ .stackCtrl →
        exec (.registerWrite c a 15#4 v) s = exec (.quiesceReq c p true) s)
    ∧ (v.toNat % 16 = 2 → (hget s p).drainReq = false → p.blk ≠ .stackCtrl →
        exec (.registerWrite c a 15#4 v) s = exec (.blockDisable c p) (hset p { hget s p with quiesce := true } s))
    ∧ (v.toNat % 16 = 1 → (hget s p).drainReq = false → p.blk ≠ .stackCtrl →
        exec (.registerWrite c a 15#4 v) s = exec (.blockEnable c p) (hset p { hget s p with quiesce := false } s))
    ∧ (v.toNat % 16 = 1 → (hget s p).en = false → (hget s p).drainReq = false → grantOk s p = false →
        ∃ t, exec (.registerWrite c a 15#4 v) s = .next t ∧ (hget t p).en = false ∧ (hget t p).errCode = 0x0101)

/-- The end of a command (R88): the final code stands in RESULT of its entry while the slot holds its number; else a COMPLETION
entry takes the next number, with the original's ADDR, FUNCTION, SOURCE and TAG, its number in VALUE and ARG, and the code. -/
def Obligations.FinalCodeReachesEntryOrCompletion : Prop :=
  ∀ (p : Page) (r : CmdRun) (code : Nat) (s : State), hubRuns s = true → (hget s p).cmd = some r → r.final = some code →
    ∃ t, exec (.commandComplete p) s = .next t
      ∧ (∀ e, jEntry s r.seq = some e →
          t.jr.slots = Assoc.set s.jr.slots (r.seq % 8192) { e with result := code } ∧ t.jr.nextSeq = s.jr.nextSeq)
      ∧ (jEntry s r.seq = none →
          t.jr.nextSeq = s.jr.nextSeq + 1
            ∧ t.jr.slots = Assoc.set s.jr.slots (s.jr.nextSeq % 8192)
                { seq := s.jr.nextSeq, time := s.ck.dt, addr := addrOf s p 0x030, result := code, func := r.client.index,
                  src := r.source.code, kind := .completion, value := r.seq % 2 ^ 32,
                  arg := r.seq / 2 ^ 32 % 2 ^ 15, tag := r.tag })

/-- RESET_REQ on the journal page (R95): the read buffers and RD_STAT of every client are cleared; the entries and the sequence
counter stand. -/
def Obligations.JournalPageResetKeepsEntries : Prop :=
  ∀ (c : Client) (s : State), reachesCtrl s c journalPage = true → (hget s journalPage).phase = .run →
    (hget s journalPage).cmd = none →
    ∃ t, exec (.resetReq c journalPage) s = .next t
      ∧ (∀ d : Client, rgetC t d journalPage Reg.journal.RD_STAT = 0
          ∧ ∀ i : Fin 8, rgetC t d journalPage Reg.journal.RD_W i.val = 0)
      ∧ t.jr.slots = s.jr.slots ∧ t.jr.nextSeq = s.jr.nextSeq

/-! ### Supply and power states (chapter 04) -/

/-- The signal outcome of a PG_CMD command whose chapter ends it at once: its page's executing command carries the final code
until COMMAND_COMPLETE. -/
def endsWith (s t : State) (p : Page) (op : Nat) (r : Req) (code : Nat) : Prop :=
  (hget t p).cmd = some { cmdOf s op r with final := some code }

/-- BROWNOUT and BROWNOUT_CLEAR (R108–R110): below 38.0 V in TRICKLE or FLOW the bit sets, the fault is counted, the grants of
the power-state page and of every die power page are zero, and in FLOW every powered die starts down; recovery clears the bit
and raises RECOVERED. -/
def Rules.BrownoutHoldsGrantsAndFalls : Prop :=
  (∀ (v : Nat) (s : State), hubRuns s = true → v < 3840 → rbit s powerPage Reg.powerState.BROWNOUT = false →
      ∃ t, exec (.brownout v) s = .next t
        ∧ rget t powerPage Reg.powerState.BROWNOUT = 1
        ∧ rget t powerPage Reg.powerState.SUPPLY_FAULTS
            = min 65535 (rget s powerPage Reg.powerState.SUPPLY_FAULTS + 1)
        ∧ (hget t powerPage).grant = 0 ∧ (∀ d : Fin 12, (hget t (pageOf .diePower 0 d.val)).grant = 0)
        ∧ (s.pw.mode = .flow → ∀ d : Fin 12, diePowered s d.val = true → d.val ∈ t.pw.falling)
        ∧ t.pw.mode = s.pw.mode)
  ∧ ∀ (v : Nat) (s : State), hubRuns s = true → 3960 ≤ v → rbit s powerPage Reg.powerState.BROWNOUT = true →
      ∃ t, exec (.brownoutClear v) s = .next t
        ∧ rget t powerPage Reg.powerState.BROWNOUT = 0 ∧ bitAt (hget t powerPage).irqStat 9 = true
        ∧ rget t powerPage Reg.powerState.V48 = v % 2 ^ 16 ∧ t.pw.mode = s.pw.mode ∧ t.pw.falling = s.pw.falling

/-- STAGE_UNDERVOLTAGE, OVERVOLTAGE_TRIP and ENTER_DRY (R108, R115, R120, R122): with no die powered the device is in DRY, with
the cause, and the stacks have lost their contents; with dies powered in FLOW, every one of them starts down and DRY follows.
ENTER_DRY is journaled OK before. -/
def Rules.SupplyLossAndCommandEnterDry : Prop :=
  (∀ (v : Nat) (s : State), hubRuns s = true → rget s timePage Reg.time.XTAL32_OK = 1 →
      rget s powerPage Reg.powerState.DIE_ON = 0 → s.pw.falling = [] →
      (v < 3050 → ∃ t, exec (.stageUndervoltage v) s = .next t ∧ t.pw.mode = .dry ∧ t.pw.dryWhy = .underVoltage
        ∧ rget t powerPage Reg.powerState.DRY_CAUSE = 1 ∧ t.hbm.data = [])
      ∧ (6150 < v → ∃ t, exec (.overvoltageTrip v) s = .next t ∧ t.pw.mode = .dry ∧ t.pw.dryWhy = .overVoltage
        ∧ rget t powerPage Reg.powerState.DRY_CAUSE = 2 ∧ t.hbm.data = []))
  ∧ (∀ (v : Nat) (s : State), s.pw.mode = .flow → rget s powerPage Reg.powerState.DIE_ON ≠ 0 →
      (v < 3050 → ∃ t, exec (.stageUndervoltage v) s = .next t ∧ t.pw.dryWanted = some .underVoltage
        ∧ ∀ d : Fin 12, diePowered s d.val = true → d.val ∈ t.pw.falling)
      ∧ (6150 < v → ∃ t, exec (.overvoltageTrip v) s = .next t ∧ t.pw.dryWanted = some .overVoltage
        ∧ ∀ d : Fin 12, diePowered s d.val = true → d.val ∈ t.pw.falling))
  ∧ ∀ (r : Req) (s : State), accepts s powerPage 3 r = true → r.arg = 0#32 →
      (rget s timePage Reg.time.XTAL32_OK = 1 → rget s powerPage Reg.powerState.DIE_ON = 0 → s.pw.falling = [] →
        ∃ t, exec (.enterDry r) s = .next t ∧ t.pw.mode = .dry ∧ t.pw.dryWhy = .command
          ∧ rget t powerPage Reg.powerState.DRY_CAUSE = 0 ∧ t.hbm.data = []
          ∧ jEntry t s.jr.nextSeq = some { entryOf s powerPage 3 r with result := 0 })
      ∧ (rget s powerPage Reg.powerState.DIE_ON ≠ 0 →
        ∃ t, exec (.enterDry r) s = .next t ∧ t.pw.dryWanted = some .command
          ∧ jEntry t s.jr.nextSeq = some { entryOf s powerPage 3 r with result := 0 }
          ∧ ∀ d : Fin 12, diePowered s d.val = true → d.val ∈ t.pw.falling)

/-- STAGE_FAULT (R111, R124): the stage's page shows the bits as they read now; a stage that reports a fault beside a healthy
one sets FAULT on its page and STAGE_DEGRADED, is counted, and makes FLOW fall. -/
def Rules.StageFaultDegrades : Prop :=
  ∀ (stage : Fin 2) (bits : BitVec 4) (s : State), hubRuns s = true → bits ≠ 0#4 →
    stageReports s 13 = false → stageReports s 14 = false →
    ∃ t, exec (.stageFault stage bits) s = .next t
      ∧ rget t (pageOf .powerStage 0 (13 + stage.val)) Reg.powerStage.OVERTEMP = bits.toNat % 2
      ∧ rget t (pageOf .powerStage 0 (13 + stage.val)) Reg.powerStage.IV_OV = bits.toNat / 8
      ∧ (hget t (pageOf .powerStage 0 (13 + stage.val))).fault = true
      ∧ rget t powerPage Reg.powerState.STAGE_DEGRADED = 1
      ∧ rget t powerPage Reg.powerState.SUPPLY_FAULTS = min 65535 (rget s powerPage Reg.powerState.SUPPLY_FAULTS + 1)
      ∧ (s.pw.mode = .flow → ∀ d : Fin 12, diePowered s d.val = true → d.val ∈ t.pw.falling)

/-- AO_CONVERTER_STOP, COLD_START and DRY_EXIT_QUALIFIED (R105, R112, R113, R153): the converter's stop leaves the package dark;
the cold start finds it in DRY with device time at zero, one more power cycle, and the journal, the fuses and the flash as
they were; the qualification of V48_IN begins the boot, or waits for a wake source where DRY was entered by command or where the
boot has failed three times with V48_IN in range ever since (R130). -/
def Rules.ColdStartAndSupplyQualification : Prop :=
  (∀ s : State, ∃ t, exec .aoConverterStop s = .next t ∧ t.pw.mode = .off ∧ t.jr = s.jr ∧ t.bt.flash = s.bt.flash)
  ∧ (∀ s : State, s.pw.mode = .off →
      ∃ t, exec .coldStart s = .next t ∧ t.pw.mode = .dry ∧ t.pw.dryWhy = .coldStart ∧ t.ck.dt = 0
        ∧ rget t powerPage Reg.powerState.DRY_CAUSE = 3 ∧ t.jr.nextSeq = s.jr.nextSeq ∧ t.jr.slots = s.jr.slots
        ∧ t.jr.cycles = s.jr.cycles + 1 ∧ t.fuse = s.fuse ∧ t.bt.flash = s.bt.flash ∧ t.ev.ff = s.ev.ff
        ∧ t.co.sram = [] ∧ t.co.dsram = [] ∧ t.hbm.data = [] ∧ t.pending = s.pending)
  ∧ ∀ (v : Nat) (s : State), s.pw.mode = .dry → 4000 ≤ v → v ≤ 6000 →
      (s.pw.dryWhy ≠ .command → (s.pw.exhausted = false ∨ s.pw.qualified = false) →
        ∃ t, exec (.dryExitQualified v) s = .next t ∧ t.pw.mode = .booting ∧ t.pw.phase = .refclk
        ∧ rget t powerPage Reg.powerState.V48 = v ∧ rget t wakePage Reg.wake.CAUSE_V48 = 1
        ∧ rget t wakePage Reg.wake.CAUSE_VALID = 1)
      ∧ ((s.pw.dryWhy = .command ∨ (s.pw.exhausted = true ∧ s.pw.qualified = true)) → s.ck.pending = 0 →
        ∃ t, exec (.dryExitQualified v) s = .next t ∧ t.pw.mode = .dry ∧ t.pw.qualified = true)
      ∧ (s.pw.dryWhy = .command → s.ck.pending ≠ 0 → ∃ t, exec (.dryExitQualified v) s = .next t ∧ t.pw.mode = .booting
        ∧ rget t wakePage Reg.wake.WAKE_CAUSE = s.ck.pending % 2 ^ Reg.wake.WAKE_CAUSE.w)

/-- DIE_UP (R118, R122): a zero mask is BAD_ARG; a missing grant is NO_GRANT and starts no die; else, while no die rises, the lowest
named die that is not ACTIVE starts to rise once it is down, the others wait in ascending order, and with none left the command is
OK. DIE_ACTIVE: the die is powered, the device is in FLOW, and the next one starts. -/
def Rules.DieUpRaisesDiesInOrder : Prop :=
  (∀ (r : Req) (s : State), accepts s powerPage 1 r = true →
      (r.arg = 0#32 → ∃ t, exec (.dieUp r) s = .next t ∧ endsWith s t powerPage 1 r 0x0100 ∧ t.pw = s.pw)
      ∧ (0 < r.arg.toNat → r.arg.toNat < 4096 →
          (grantOk s powerPage = false ∨ ∃ d : Fin 12, bitAt r.arg.toNat d.val = true ∧ grantOk s (pageOf .diePower 0 d.val) = false) →
          ∃ t, exec (.dieUp r) s = .next t ∧ endsWith s t powerPage 1 r 0x0101 ∧ t.pw = s.pw)
      ∧ (0 < r.arg.toNat → r.arg.toNat < 4096 → recovery s = false → grantOk s powerPage = true →
          (∀ d : Fin 12, bitAt r.arg.toNat d.val = true → grantOk s (pageOf .diePower 0 d.val) = true) →
          (s.pw.rising = none → ∃ t, exec (.dieUp r) s = .next t
            ∧ (match (List.range 12).filter (fun d => bitAt r.arg.toNat d && (!diePowered s d || s.pw.falling.contains d)) with
               | [] => endsWith s t powerPage 1 r 0x0000
               | d :: ds => if s.pw.falling.contains d then t.pw.rising = none ∧ t.pw.upQueue = d :: ds
                   else t.pw.rising = some d ∧ t.pw.upQueue = ds
                     ∧ bitAt (rget t powerPage Reg.powerState.DIE_TRANS) d = true))
          ∧ (s.pw.rising ≠ none → ∃ t, exec (.dieUp r) s = .next t ∧ t.pw.rising = s.pw.rising
              ∧ t.pw.upQueue = diesToRise s r.arg.toNat ∧ (hget t powerPage).cmd = some (cmdOf s 1 r))))
  ∧ ∀ (d : Fin 12) (s : State), s.pw.rising = some d.val → s.we.ramp.contains (pageOf .diePower 0 d.val) = false →
      hubRuns s = true → (∀ x ∈ s.pw.upQueue.head?, x ∉ s.pw.falling) →
      ∃ t, exec (.dieActive d) s = .next t ∧ diePowered t d.val = true ∧ t.pw.mode = .flow
        ∧ t.pw.rising = s.pw.upQueue.head? ∧ t.pw.upQueue = s.pw.upQueue.tail

/-- DIE_DOWN (R119, R122): every named powered die starts down, and OK follows when none is powered. CORE_DOMAIN_DOWN (R115,
R120): the die is off and its core SRAM reads zero; with no other die powered the device leaves FLOW. V48_MIN_WRITE (R121):
any write loads the present V48. -/
def Rules.DieDownTakesCoreDomainsDown : Prop :=
  (∀ (r : Req) (s : State), accepts s powerPage 2 r = true → r.arg.toNat < 4096 →
      ∃ t, exec (.dieDown r) s = .next t
        ∧ (∀ d : Fin 12, bitAt r.arg.toNat d.val = true → diePowered s d.val = true → d.val ∈ t.pw.falling)
        ∧ ((∀ d : Fin 12, bitAt r.arg.toNat d.val = true → diePowered s d.val = false) → endsWith s t powerPage 2 r 0x0000))
  ∧ (∀ (d : Fin 12) (s : State), d.val ∈ s.pw.falling →
      ∃ t, exec (.coreDomainDown d) s = .next t ∧ diePowered t d.val = false ∧ d.val ∉ t.pw.falling
        ∧ (∀ (c : Fin 16) (a : Fin coreSize), Mem.read 0x00 t.co.sram ((16 * d.val + c.val) * 2 ^ 22 + a.val) = 0x00)
        ∧ (s.pw.mode = .flow → s.pw.falling = [d.val] → rget s powerPage Reg.powerState.DIE_ON = 2 ^ d.val →
            t.pw.mode ≠ .flow))
  ∧ ∀ (c : Client) (v : Word) (s : State), reachesBlock s c powerPage = true →
      exec (.v48MinWrite c v) s = .next (rset powerPage Reg.powerState.V48_MIN (v48 s) s)

/-! ### Clocks, wake and time (chapter 05) -/

/-- The wake of a device in DRY by source `bit` (R112, R133, R138): with V48_IN within 40–60 V the boot begins and WAKE_CAUSE
holds the source; outside it the source stays pending. -/
def wakesBy (s t : State) (bit : Nat) : Prop :=
  (v48InRange s = true → t.pw.mode = .booting ∧ t.pw.phase = .refclk ∧ t.ck.wakeOut = true
      ∧ bitAt (rget t wakePage Reg.wake.WAKE_CAUSE) bit = true ∧ rget t wakePage Reg.wake.CAUSE_VALID = 1)
  ∧ (v48InRange s = false → t.pw.mode = .dry ∧ bitAt t.ck.pending bit = true)

/-- The wake sources in DRY (R127, R133, R134–R136, R138): XTAL32_FAIL, DRY_WAKE_FRAME_MATCH, ALARM_REACHED and WAKE_PIN_LEVEL
wake the device, each where its enable is set; PERST_N wakes high, a GPIO at the level that GPIO_POL names (R152). -/
def Rules.SourcesWakeFromDry : Prop :=
  ∀ s : State, s.pw.mode = .dry →
    (rget s timePage Reg.time.XTAL32_OK = 1 →
        ∃ t, exec .xtal32Fail s = .next t ∧ wakesBy s t 12 ∧ rget t timePage Reg.time.XTAL32_OK = 0
          ∧ rget t timePage Reg.time.DT_DEGRADED = 1 ∧ t.ck.src = .wakeOsc ∧ t.ck.dt = s.ck.dt)
    ∧ (∀ (port : Fin 4) (f : CanFrame), wakeEn s port.val = true → windowOpen s port.val = true →
        s.ck.decoders.contains port.val = true → f.brs = false → wakePattern s port.val f = true →
        ∃ t, exec (.dryWakeFrameMatch port f) s = .next t ∧ wakesBy s t port.val ∧ t.ck.kept = some (port.val, f)
          ∧ rget t wakePage Reg.wake.DRY_FRAMES = min 65535 (rget s wakePage Reg.wake.DRY_FRAMES + 1))
    ∧ (s.ck.alarm ≤ s.ck.dt → wakeEn s 6 = true → s.pw.exhausted = false →
        ∃ t, exec .alarmReached s = .next t ∧ wakesBy s t 6)
    ∧ ∀ (pin : Fin 5) (high : Bool),
        (wakeEn s (7 + pin.val) = true → s.pw.exhausted = false →
          high = (if pin = 0 then true else bitAt (rget s wakePage Reg.wake.GPIO_POL) (pin.val - 1)) →
          ∃ t, exec (.wakePinLevel pin high) s = .next t ∧ wakesBy s t (7 + pin.val))
        ∧ ((wakeEn s (7 + pin.val) = false
            ∨ high ≠ (if pin = 0 then true else bitAt (rget s wakePage Reg.wake.GPIO_POL) (pin.val - 1))) →
          ∃ t, exec (.wakePinLevel pin high) s = .next t ∧ t.pw = s.pw ∧ t.rf = s.rf ∧ t.ck.pending = s.ck.pending)

/-- In TRICKLE and FLOW (R127, R152): an XTAL32 failure clears XTAL32_OK and device time stays on the time PLL that has taken it
over; an alarm whose time is reached raises the ALARM source of the wake page. -/
def Rules.FailureAndAlarmWhileHubRuns : Prop :=
  ∀ s : State, hubRuns s = true →
    (rget s timePage Reg.time.XTAL32_OK = 1 → s.ck.src = .pll →
        ∃ t, exec .xtal32Fail s = .next t ∧ rget t timePage Reg.time.XTAL32_OK = 0 ∧ t.ck = s.ck ∧ t.pw = s.pw)
    ∧ (s.ck.alarm ≤ s.ck.dt → ∃ t, exec .alarmReached s = .next t ∧ bitAt (hget t wakePage).irqRaw 8 = true
        ∧ t.pw = s.pw ∧ t.ck.dt = s.ck.dt)

/-- The listen windows (R134–R136): a dominant edge on an armed port starts the oscillator and opens or restarts the port's
window at the present tick, counting a window that it opens; within an open window the decoder is ready from 11 recessive bit times
on; a window whose 656 ticks have passed closes, and with the last
one the oscillator stops and the decoders reset. WAKE_OSC_CALIBRATE (R128, R152) keeps the error in 0.1 % units. -/
def Rules.ListenWindowsOpenAndClose : Prop :=
  (∀ (port : Fin 4) (recessive : Nat) (s : State), s.pw.mode = .dry → wakeEn s port.val = true →
      ∃ t, exec (.canActivityEdge port recessive) s = .next t ∧ t.ck.oscOn = true
        ∧ (t.ck.decoders.contains port.val
            = (windowOpen s port.val && (decide (11 ≤ recessive) || s.ck.decoders.contains port.val)))
        ∧ Assoc.get t.ck.windows port.val = some s.ck.ticks
        ∧ (∀ q : Fin 4, q ≠ port → Assoc.get t.ck.windows q.val = Assoc.get s.ck.windows q.val)
        ∧ rget t wakePage Reg.wake.DRY_WINDOWS
            = (if windowOpen s port.val then rget s wakePage Reg.wake.DRY_WINDOWS
               else min 65535 (rget s wakePage Reg.wake.DRY_WINDOWS + 1)))
  ∧ (∀ (port : Fin 4) (e : Nat) (s : State), Assoc.get s.ck.windows port.val = some e → e + 656 ≤ s.ck.ticks →
      ∃ t, exec (.listenWindowClose port) s = .next t
        ∧ t.ck.windows = s.ck.windows.filter (·.1 ≠ port.val)
        ∧ (t.ck.windows = [] → t.ck.decoders = [] ∧ t.ck.oscOn = decide (s.ck.src = .wakeOsc)) ∧ t.rf = s.rf)
  ∧ ∀ (cycles : Nat) (s : State), hubRuns s = true →
      ∃ t, exec (.wakeOscCalibrate cycles) s = .next t ∧ t.ck.lastCal = some s.ck.dt
        ∧ toInt 8 (rget t wakePage Reg.wake.CAL_ERR)
            = max (-128) (min 127 (roundAway (((cycles : Rat) - 31250) * 1000 / 31250)))

/-- REFCLK_CHECK and REFCLK_RETRY (R130): within ±200 ppm the boot goes on; else the failed attempt is shown, WAKE_OUT falls for
10 ms and the next attempt, and after the third failure the device stays in DRY. -/
def Rules.RefclkIsTriedThreeTimes : Prop :=
  (∀ (hz : Option Nat) (s : State), s.pw.mode = .booting → s.pw.phase = .refclk →
      (refclkGood hz = true → ∃ t, exec (.refclkCheck hz) s = .next t ∧ t.pw.phase = .cores ∧ t.pw.mode = .booting
        ∧ rget t wakePage Reg.wake.REFCLK_RETRIES = rget s wakePage Reg.wake.REFCLK_RETRIES)
      ∧ (refclkGood hz = false → s.ck.refTries < 2 → ∃ t, exec (.refclkCheck hz) s = .next t
        ∧ t.pw.phase = .refWait (s.ck.dt + 10000000) ∧ t.ck.wakeOut = false ∧ t.ck.refTries = s.ck.refTries + 1
        ∧ rget t wakePage Reg.wake.REFCLK_RETRIES = min 3 (rget s wakePage Reg.wake.REFCLK_RETRIES + 1))
      ∧ (refclkGood hz = false → 2 ≤ s.ck.refTries → ∃ t, exec (.refclkCheck hz) s = .next t
        ∧ rget t wakePage Reg.wake.REFCLK_RETRIES = min 3 (rget s wakePage Reg.wake.REFCLK_RETRIES + 1)
        ∧ t.pw.mode = .dry ∧ t.ck.wakeOut = false ∧ t.pw.exhausted = true))
  ∧ ∀ (at_ : Nat) (s : State), s.pw.phase = .refWait at_ → at_ ≤ s.ck.dt →
      ∃ t, exec .refclkRetry s = .next t ∧ t.pw.phase = .refclk ∧ t.ck.wakeOut = true

/-- DEVICE_TIME_HANDOVER (R139, R140): at DRY entry the island takes device time with frac = 0, after a wake the time PLL takes
it; the value stands. With nothing commanded device time advances by 1 ns on the time PLL, and in DRY by 30,517 ns with the
carry of 37/64 ns per tick. -/
def Rules.DeviceTimeAdvancesAndHandsOver : Prop :=
  (∀ s : State, s.pw.mode = .dry → s.ck.src = .pll →
      ∃ t, exec .deviceTimeHandover s = .next t ∧ t.ck.src = .xtal ∧ t.ck.frac = 0 ∧ t.ck.dt = s.ck.dt
        ∧ t.ck.wakeOut = false)
  ∧ (∀ s : State, hubRuns s = true → s.ck.src ≠ .pll →
      ∃ t, exec .deviceTimeHandover s = .next t ∧ t.ck.src = .pll ∧ t.ck.dt = s.ck.dt ∧ t.ck.oscOn = false)
  ∧ ∀ s : State, s.pending = [] → s.pw.mode ≠ .off →
      ∃ t, step s = .next t ∧ s.ck.dt ≤ t.ck.dt
        ∧ (s.ck.src = .pll → t.ck.dt = s.ck.dt + 1)
        ∧ (s.ck.src = .xtal → t.ck.dt = s.ck.dt + 30517 + (s.ck.frac + 37) / 64 ∧ t.ck.frac = (s.ck.frac + 37) % 64)

/-- Over any 64 ticks of XTAL32 device time advances by exactly 1,953,125 ns (R139). -/
def Rules.SixtyFourTicksAreExact : Prop :=
  ∀ s t : State, s.ck.src = .xtal → s.pw.mode ≠ .off → s.pending = [] → s.ck.frac < 64 →
    core.run 64 s = .next t → t.ck.dt = s.ck.dt + 1953125 ∧ t.ck.frac = s.ck.frac

/-- WALL_SET (R145, R151): the staged value is in force at the device time of acceptance, with its UTC offset, LAST_STEP and
WALL_VALID; it is BAD_ARG for nanoseconds of 10^9 or more, from PF0 or the site bus under PTP or site bus, and from hub
firmware under free-running or host. -/
def Rules.WallSetLoadsStagedValue : Prop :=
  ∀ (r : Req) (s : State), accepts s timePage 1 r = true → r.arg = 0#32 →
    let sec := rget s timePage Reg.time.STAGE_SEC_LO + rget s timePage Reg.time.STAGE_SEC_HI * 2 ^ 32
    let ns := rget s timePage Reg.time.STAGE_NS
    let disciplined := srcSel s = 2 ∨ srcSel s = 3
    (ns < 1000000000 → ((r.client = .firmware ∧ disciplined) ∨ ((r.client = .pf0 ∨ r.client = .siteBus) ∧ ¬ disciplined)) →
        ∃ t, exec (.wallSet r) s = .next t ∧ endsWith s t timePage 1 r 0x0000
          ∧ wallNs t = ((sec * 1000000000 + ns : Nat) : Int)
          ∧ rget t timePage Reg.time.UTC_OFFSET = rget s timePage Reg.time.STAGE_UTC % 2 ^ 16
          ∧ rget t timePage Reg.time.WALL_VALID = 1 ∧ t.ck.dt = s.ck.dt
          ∧ (rget s timePage Reg.time.STAGE_UTC = rget s timePage Reg.time.UTC_OFFSET →
              rget t timePage Reg.time.LAST_STEP = ofInt 64 (((sec * 1000000000 + ns : Nat) : Int) - wallNs s)))
    ∧ ((1000000000 ≤ ns ∨ (r.client = .firmware ∧ ¬ disciplined) ∨ ((r.client = .pf0 ∨ r.client = .siteBus) ∧ disciplined)) →
        ∃ t, exec (.wallSet r) s = .next t ∧ endsWith s t timePage 1 r 0x0100 ∧ t.ck = s.ck ∧ t.rf = s.rf)

/-- ALARM_WRITE (R152): the write of ALARM_HI makes the alarm of both words take effect, and the ALARM source follows device
time at or above it. -/
def Rules.AlarmHighWriteSetsAlarm : Prop :=
  ∀ (c : Client) (v : Word) (s : State), reachesBlock s c wakePage = true →
    ∃ t, exec (.alarmWrite c v) s = .next t
      ∧ t.ck.alarm = v.toNat * 2 ^ 32 + rget s wakePage Reg.wake.ALARM_LO
      ∧ bitAt (hget t wakePage).irqRaw 8 = decide (t.ck.alarm ≤ s.ck.dt)
      ∧ rget t wakePage Reg.wake.ALARM_HI = v.toNat ∧ t.pw = s.pw

/-- PTP and the servo (R146, R148, R149): as master a delay request is answered with the receive timestamp, a Sync leaves in each
interval, and the Announce of a better clock is taken; as slave a Sync's receive timestamp is kept, and counts as a message of the
servo's source under SRC_SEL 2; three intervals without a message clear WALL_LOCKED, raise LOCK_LOST and leave RATE_ADJ. The
announce interval is the model's (log entry 111). -/
def Rules.PtpExchangesAndServoTimeout : Prop :=
  (∀ (m : PtpMsg) (s : State), hubRuns s = true → rget s timePage Reg.time.PTP_EN = 1 →
      m.domain.toNat = rget s timePage Reg.time.DOMAIN → m.udp = rbit s timePage Reg.time.TRANSPORT →
      (ptpMasters s = true → m.kind = .delayReq →
        exec (.ptpMessage m) s = .next (send (.ptp { m with kind := .delayResp, stamp := ptpRx s }) s))
      ∧ (ptpMasters s = true → m.kind = .announce → m.rank ≤ Config.ptpRank →
        ∃ t, exec (.ptpMessage m) s = .next t ∧ ptpMasters t = false ∧ t.out = s.out ∧ t.rf = s.rf)
      ∧ (rget s timePage Reg.time.PTP_ROLE = 0 → m.kind = .sync → m.oneStep = false →
        exec (.ptpMessage m) s = .next { s with ck := { s.ck with
          lastMsg := if srcSel s = 2 then some s.ck.dt else s.ck.lastMsg
          ptp := { s.ck.ptp with seqId := m.seqId.toNat, t1 := none, t2 := some (ptpRx s - m.correction), t3 := none } } }))
  ∧ (∀ s : State, hubRuns s = true → rget s timePage Reg.time.PTP_EN = 1 → ptpMasters s = true →
      rget s timePage Reg.time.ONE_STEP = 1 →
      (∀ last, s.ck.lastSync = some last → last + syncInterval s ≤ s.ck.dt) →
      ∃ t m, exec .ptpSyncTx s = .next t ∧ m.kind = .sync ∧ m.stamp = ptpTx s ∧ t.ck.lastSync = some s.ck.dt
        ∧ ((∃ last, s.ck.ptp.lastAnn = some last ∧ s.ck.dt < last + announceNs) → t.out = s.out ++ [.ptp m])
        ∧ ((∀ last, s.ck.ptp.lastAnn = some last → last + announceNs ≤ s.ck.dt) →
            t.out = s.out ++ [.ptp m, .ptp { m with kind := .announce, rank := Config.ptpRank }]))
  ∧ ∀ s : State, (srcSel s = 2 ∨ srcSel s = 3) → rget s timePage Reg.time.WALL_LOCKED = 1 →
      (∀ last, s.ck.lastMsg = some last → last + 3 * sourceInterval s ≤ s.ck.dt) →
      ∃ t, exec .servoTimeout s = .next t ∧ rget t timePage Reg.time.WALL_LOCKED = 0
        ∧ bitAt (hget t timePage).irqStat 9 = true
        ∧ rget t timePage Reg.time.RATE_ADJ = rget s timePage Reg.time.RATE_ADJ

/-! ### Resets, boot, images and the flash (chapter 06) -/

/-- What a hub reset with RESET_CAUSE bit `cause` does at once (R154, R155): the cause is latched, the service cores stop, and
every powered die starts down; with none powered the hub has castled and the boot begins. -/
def resetBegins (s t : State) (cause : Nat) : Prop :=
  t.bt.cause = 2 ^ cause ∧ t.bt.running = false
  ∧ (rget s powerPage Reg.powerState.DIE_ON = 0 → s.pw.falling = [] → s.pw.dryWanted = none →
      castled t = true ∧ t.pw.mode = .booting ∧ t.pw.phase = .cores ∧ t.jr.slots = s.jr.slots
        ∧ rget t bootPage Reg.boot.HUB_RESETS = min 65535 (rget s bootPage Reg.boot.HUB_RESETS + 1))
  ∧ (rget s powerPage Reg.powerState.DIE_ON ≠ 0 →
      t.pw.resetting = true ∧ ∀ d : Fin 12, diePowered s d.val = true → d.val ∈ t.pw.falling)

/-- HUB_RESET, LOCKSTEP_MISMATCH, WATCHDOG_EXPIRE, HOST_LINK_RESET, TAP_RESET and TAP_INSTRUCTION_LOAD (R153–R158, R178, R574): each
hub reset latches its own cause; the link's reset takes the host bridge alone; JTAG_TRST_N selects IDCODE, and with
DEBUG_LOCK every instruction but IDCODE and BYPASS selects BYPASS. -/
def Rules.ResetsTakeWhatTheyName : Prop :=
  (∀ (r : Req) (s : State), accepts s bootPage 4 r = true →
      (r.arg = 0#32 → ∃ t, exec (.hubReset r) s = .next t
        ∧ resetBegins (accepted s bootPage 4 r) t 2 ∧ t.bt.resetSeq = some s.jr.nextSeq)
      ∧ (r.arg ≠ 0#32 → ∃ t, exec (.hubReset r) s = .next t ∧ endsWith s t bootPage 4 r 0x0100 ∧ t.bt = s.bt ∧ t.pw = s.pw))
  ∧ (∀ s : State, coresCompare s = true → ∃ t, exec .lockstepMismatch s = .next t ∧ resetBegins s t 3)
  ∧ (∀ s : State, hubRuns s = true → s.bt.running = true → s.bt.update = none → s.bt.watchdog + 99000000 ≤ s.ck.dt →
      ∃ t, exec .watchdogExpire s = .next t ∧ resetBegins s t 4)
  ∧ (∀ (why : LinkResetCause) (s : State), hubRuns s = true →
      ∃ t, exec (.hostLinkReset why) s = .next t ∧ linkUp t = false ∧ (∀ f : Fin 16, f.val ∉ t.br.msixOn) ∧ t.br.vfEnable = false
        ∧ rget t bootPage Reg.boot.HOST_RESETS = min 65535 (rget s bootPage Reg.boot.HOST_RESETS + 1)
        ∧ t.pw = s.pw ∧ t.jb = s.jb ∧ t.co = s.co ∧ t.hbm = s.hbm ∧ t.jr.slots = s.jr.slots ∧ t.jr.nextSeq = s.jr.nextSeq)
  ∧ (∀ s : State, exec .tapReset s = .next { s with bt := { s.bt with tap := .idcode } })
  ∧ ∀ (i : TapInstr) (s : State), hubRuns s = true →
      ∃ t, exec (.tapInstructionLoad i) s = .next t
        ∧ t.bt.tap = (if i = .idcode then .idcode
            else if s.fuseOn.debugLock = 1 ∨ i = .other then .bypass else i)
        ∧ t.rf = s.rf ∧ t.pw = s.pw

/-- SERVICE_CORE_BOOT, TRICKLE_DECLARE and DEFERRED_MARKER_WRITE (R89, R91, R117, R162–R166): the first candidate whose body
hashes runs, and a FRESH one gets a deferred TRIAL marker; with no valid image the boot is in recovery mode. TRICKLE opens
with the HUB_BOOT mark, and settles the one command that a reset left without a result: OK with its commit record, else
ABORTED. -/
def Rules.BootRunsAValidImage : Prop :=
  (∀ (f : Option Sfdp) (s : State), s.pw.mode = .booting → s.pw.phase = .cores →
      ∃ t, exec (.serviceCoreBoot f) s = .next t ∧ t.pw.phase = .ready ∧ t.pw.mode = .booting ∧ t.fuseOn = s.fuse
        ∧ t.bt.sfdp = f ∧ rget t bootPage Reg.boot.RESET_CAUSE = s.bt.cause % 32
        ∧ (headerValid s 0 = false → headerValid s 1 = false → rget t bootPage Reg.boot.RECOVERY = 1)
        ∧ ∀ b : Fin 2, (candidates s).head? = some b.val → bodyGood s b.val = true →
            t.bt.running = true ∧ rget t bootPage Reg.boot.BANK = b.val
              ∧ rget t bootPage Reg.boot.FW_VERSION = imageVersion s b.val
              ∧ (bankState s b.val = 0 → (b.val, 1) ∈ t.bt.marks))
  ∧ (∀ s : State, s.pw.mode = .booting → s.pw.phase = .ready → s.jr.unsettled.length < 8191 →
      ∃ t, exec .trickleDeclare s = .next t ∧ t.pw.mode = .trickle ∧ t.jr.unsettled = [] ∧ t.jr.deferred = s.jr.deferred
        ∧ (∃ e, jEntry t s.jr.nextSeq = some e ∧ e.kind = .mark ∧ e.value = 1 ∧ e.arg = s.jr.cycles)
        ∧ ∀ e : JEntry, s.jr.unsettled = [e] → e.seq < 2 ^ 47 → (∀ x, jEntry s e.seq = some x → x.result = Code.pending) →
            (∀ x ∈ s.jr.slots, x.2.kind ≠ .completion) →
            ∃ y, jEntry t (s.jr.nextSeq + 1) = some y ∧ y.kind = .completion ∧ origOf y = e.seq
              ∧ y.addr = e.addr ∧ y.func = e.func ∧ y.src = e.src ∧ y.tag = e.tag
              ∧ y.result = (if e.seq ∈ s.jr.committed ∨ s.bt.resetSeq = some e.seq then 0x0000 else 0x010B))
  ∧ ∀ s : State, hubRuns s = true → s.bt.running = true →
      ∃ t, exec .deferredMarkerWrite s = .next t ∧ t.bt.marks = [] ∧ (∀ m ∈ s.bt.marks, marker t m.1 m.2 = true)
        ∧ t.pw = s.pw ∧ t.jr = s.jr

/-- FW_UPDATE, FW_INIT_TIMEOUT, FW_CONFIRM and FW_REJECT (R167, R178, R91): a valid image that is neither running nor rejected is
marked TRIAL between UPDATE_BEGIN and the new image's report; an invalid one ends with AUTH_FAIL; 500 µs without a report end
the update with FAULTED. CONFIRM and REJECT program the bank's marker. -/
def Rules.ImagesAreUpdatedAndMarked : Prop :=
  (∀ (r : Req) (b : Fin 2) (s : State), accepts s bootPage 1 r = true → r.arg.toNat = b.val →
      (b.val ≠ runningBank s ∨ recovery s = true) → bankState s b.val ≠ 3 →
      (headerValid s b.val = true → bodyGood s b.val = true →
        ∃ t, exec (.fwUpdate r) s = .next t ∧ marker t b.val 1 = true
          ∧ t.bt.update = some { bank := b.val, version := imageVersion s b.val, svn := imageSvn s b.val, since := s.ck.dt }
          ∧ ∃ e, jEntry t (s.jr.nextSeq + 1) = some e ∧ e.kind = .mark ∧ e.value = 2
              ∧ e.arg = rget s bootPage Reg.boot.FW_VERSION)
      ∧ ((headerValid s b.val && bodyGood s b.val) = false →
        ∃ t, exec (.fwUpdate r) s = .next t ∧ endsWith s t bootPage 1 r 0x0109 ∧ t.bt.update = none
          ∧ t.bt.flash = s.bt.flash))
  ∧ (∀ (u : Update) (c : CmdRun) (s : State), s.bt.update = some u → (hget s bootPage).cmd = some c →
      (u.since + 500000 ≤ s.ck.dt → ∃ t, exec .fwInitTimeout s = .next t ∧ t.bt.update = none
        ∧ (hget t bootPage).cmd = some { c with final := some 0x010C } ∧ t.rf = s.rf ∧ t.bt.flash = s.bt.flash
        ∧ ∃ e, jEntry t s.jr.nextSeq = some e ∧ e.kind = .mark ∧ e.value = 3 ∧ e.arg = 0)
      ∧ (hubRuns s = true → s.ck.dt < u.since + 500000 → c.final = none → u.bank < 2 →
        ∃ t, exec (.commandComplete bootPage) s = .next t ∧ t.bt.update = none
        ∧ rget t bootPage Reg.boot.BANK = u.bank ∧ (cget t bootPage c.client).result % 65536 = 0
        ∧ ∃ e, jEntry t s.jr.nextSeq = some e ∧ e.kind = .mark ∧ e.value = 3 ∧ e.arg = u.version))
  ∧ ∀ (r : Req) (b : Fin 2) (s : State), r.arg.toNat = b.val →
      (accepts s bootPage 2 r = true → b.val = runningBank s → recovery s = false → bankState s b.val = 1 →
        ∃ t, exec (.fwConfirm r) s = .next t ∧ endsWith s t bootPage 2 r 0x0000 ∧ marker t b.val 2 = true ∧ t.fuse = s.fuse)
      ∧ (accepts s bootPage 3 r = true → (b.val ≠ runningBank s ∨ recovery s = true) →
        ∃ t, exec (.fwReject r) s = .next t ∧ endsWith s t bootPage 3 r 0x0000 ∧ marker t b.val 3 = true ∧ t.fuse = s.fuse)

/-- FL_READ, FL_ERASE, FL_PROGRAM, their completion and FLASH_BUSY_TIMEOUT (R170–R173): a read fills the client's buffer up to
FL_LEN; an erase and a program keep the flash busy, and its end leaves 0xFF or the client's bytes in the target, and every
other byte as it was; a byte that is not erased is NOT_ERASED with OVER = 0, and a program whose range does not read back as FL_BUF
holds it is FAULTED. -/
def Rules.FlashReadsErasesAndPrograms : Prop :=
  (∀ (r : Req) (s : State),
      let n := rgetC s r.client spiPage Reg.spiNor.FL_LEN
      let a := r.arg.toNat
      (accepts s spiPage 1 r = true → 1 ≤ n → n ≤ 256 → a + n ≤ flashSize s →
        ∃ t, exec (.flRead r) s = .next t ∧ endsWith s t spiPage 1 r 0x0000 ∧ t.bt = s.bt
          ∧ (rbytesC t r.client spiPage Reg.spiNor.FL_BUF 64).take n = flashRead s a n
          ∧ (rbytesC t r.client spiPage Reg.spiNor.FL_BUF 64).drop n
              = (rbytesC s r.client spiPage Reg.spiNor.FL_BUF 64).drop n)
      ∧ (accepts s spiPage 2 r = true → rget s spiPage Reg.spiNor.SFDP_OK = 1 → a % 4096 = 0 → a + 4096 ≤ flashSize s →
          inRunningBank s a 4096 = false →
        ∃ t, exec (.flErase r) s = .next t ∧ t.bt.flash = s.bt.flash ∧ (hget t spiPage).cmd = some (cmdOf s 2 r)
          ∧ t.bt.busy = some { opcode := 2, addr := a, since := s.ck.dt, data := [] })
      ∧ (accepts s spiPage 3 r = true → rget s spiPage Reg.spiNor.SFDP_OK = 1 → 1 ≤ n → a % 256 + n ≤ 256 →
          a + n ≤ flashSize s → inRunningBank s a n = false → rget s spiPage Reg.spiNor.OVER = 0 → memoriesWf s →
          ((∀ i < n, Mem.read 0xFF s.bt.flash (a + i) = 0xFF) →
            ∃ t, exec (.flProgram r) s = .next t ∧ t.bt.flash = s.bt.flash ∧ (hget t spiPage).cmd = some (cmdOf s 3 r)
              ∧ t.bt.busy = some { opcode := 3, addr := a, since := s.ck.dt,
                                   data := (rbytesC s r.client spiPage Reg.spiNor.FL_BUF 64).take n })
          ∧ ((∃ i < n, Mem.read 0xFF s.bt.flash (a + i) ≠ 0xFF) →
            ∃ t, exec (.flProgram r) s = .next t ∧ endsWith s t spiPage 3 r 0x0102 ∧ t.bt = s.bt)))
  ∧ ∀ (f : FlashOp) (c : CmdRun) (s : State), s.bt.busy = some f → (hget s spiPage).cmd = some c → memoriesWf s →
      (hubRuns s = true → c.final = none →
        ∃ t, exec (.commandComplete spiPage) s = .next t ∧ t.bt.busy = none
          ∧ ((f.opcode = 2 → (cget t spiPage c.client).result % 65536 = 0 ∧ ∀ a, Mem.read 0xFF t.bt.flash a
                = if f.addr ≤ a ∧ a < f.addr + 4096 then 0xFF else Mem.read 0xFF s.bt.flash a)
            ∧ (f.opcode = 3 → (cget t spiPage c.client).result % 65536
                = if (rbytesC s c.client spiPage Reg.spiNor.FL_BUF 64).take f.data.length = f.data then 0 else 0x010C)
            ∧ (f.opcode = 3 → ∀ a, Mem.read 0xFF t.bt.flash a
                = if f.addr ≤ a ∧ a < f.addr + f.data.length then f.data.getD (a - f.addr) 0
                  else Mem.read 0xFF s.bt.flash a)))
      ∧ ∀ x : Sfdp, s.bt.sfdp = some x →
          f.since + (2 * (if f.opcode = 2 then x.eraseNs else x.programNs) + 1) ≤ s.ck.dt →
          ∃ t, exec .flashBusyTimeout s = .next t ∧ t.bt.busy = none
            ∧ (hget t spiPage).cmd = some { c with final := some 0x010D }
            ∧ ∀ a, (a < f.addr ∨ f.addr + (if f.opcode = 2 then 4096 else f.data.length) ≤ a) →
                Mem.read 0xFF t.bt.flash a = Mem.read 0xFF s.bt.flash a

/-! ### The Weir (chapter 07) and energy (chapter 08) -/

/-- GRANT_EPOCH, CREDIT_REQUEST and ARRAY_POWER_GATE (R192–R194, R199): in Weir cycle 14 or 15 of each epoch the next one's total
stays inside the budget of the effective cap and the ramp, unless what runs with the gates shut already exceeds it; credits go to
requested arrays alone, in the format asked for, which leave gating; a core requests the arrays that its queued MMAs name, in their
format (R308); requests go to the next epoch, or once its computation has
begun to the one after; an array without a credit for 16 epochs is gated. -/
def Rules.CreditsStayWithinTheBudget : Prop :=
  (∀ (predicted : List Increment) (s : State), protRuns s = true → duePeriod 64 s.we.lastEpoch s = true →
      14 ≤ s.ck.dt % 64 / 4 →
      let budget : Rat := (effCap s : Rat) - atV48 s 200 - auxGrant s - s.we.offset
        - (if rget s weirPage Reg.weir.MODEL_FAULT = 1 then (effCap s : Rat) / 5 else 0)
      let ramp : Rat := s.we.total + rget s weirPage Reg.weir.RAMP * 64 / 10
      ∃ t, exec (.grantEpoch predicted) s = .next t
        ∧ t.we.total ≤ max (min budget ramp) (basePredicted t predicted 0)
        ∧ (∀ x ∈ t.we.credits, x ∈ s.we.credits ∨ (arrayGated t x.core x.array = false
            ∧ (x.first = s.ck.dt / 64 + 1 ∨ x.first = s.ck.dt / 64 + 2) ∧ x.last = x.first
            ∧ ∃ w fmt, (x.core, w) ∈ s.we.requests ∧ (x.array, fmt) ∈ w ∧ x.fmt = formatClass fmt))
        ∧ t.we.rotor = (s.we.rotor + 1) % 192 ∧ t.we.requests = s.we.late ∧ t.we.late = []
        ∧ t.we.lastEpoch = some s.ck.dt ∧ t.pw = s.pw ∧ t.co = s.co)
  ∧ (∀ (core : Fin 192) (w : List (Fin 32 × Fin 3)) (s : State), diePowered s (core.val / 16) = true →
      ∃ t, exec (.creditRequest core w) s = .next t ∧ t.we.credits = s.we.credits ∧ t.rf = s.rf
        ∧ ((s.ck.dt % 64 / 4 ≤ 13 ∨ grantedNow s = true) → Assoc.get t.we.requests core.val = some (asked s core.val w)
            ∧ t.we.late = s.we.late)
        ∧ (14 ≤ s.ck.dt % 64 / 4 → grantedNow s = false → Assoc.get t.we.late core.val = some (asked s core.val w)
            ∧ t.we.requests = s.we.requests))
  ∧ ∀ (core : Fin 192) (a : Fin 32) (s : State), diePowered s (core.val / 16) = true →
      (∀ x ∈ s.we.credits, x.core = core.val → x.array = a.val → x.last < s.ck.dt / 64) →
      Assoc.getD s.we.idle (32 * core.val + a.val) 0 + 16 < s.ck.dt / 64 →
      ∃ t, exec (.arrayPowerGate core a) s = .next t ∧ arrayGated t core.val a.val = true
        ∧ (∀ b : Fin 32, b ≠ a → arrayGated t core.val b.val = arrayGated s core.val b.val) ∧ t.we = s.we

/-- CORRECT, MODEL_FAULT and MODEL_FAULT_CLEAR (R197, R198): the gain moves by an eighth of the error inside 0.80–1.25, and the
shortfall is held back as an offset; 16 steps at a limit set MODEL_FAULT, 1,000 inside clear it. -/
def Rules.CorrectionTrimsTheGain : Prop :=
  (∀ (m : Sense) (s : State), protRuns s = true → duePeriod 1000 s.we.lastStep s = true →
      let i : Nat := (m.iin0 + m.iin1) * 10
      ∃ t, exec (.correct m) s = .next t
        ∧ t.we.gain = max (8 / 10) (min (5 / 4) (s.we.gain + ((i : Rat) / max t.we.iRaw 1 - s.we.gain) / 8))
        ∧ t.we.offset = max 0 ((i : Rat) - t.we.gain * t.we.iRaw)
        ∧ t.we.atLimit = (if t.we.gain = 8 / 10 ∨ t.we.gain = 5 / 4 then s.we.atLimit + 1 else 0)
        ∧ t.we.inside = (if t.we.gain = 8 / 10 ∨ t.we.gain = 5 / 4 then 0 else s.we.inside + 1)
        ∧ rget t weirPage Reg.weir.I_SENSE = i % 2 ^ 32 ∧ rget t powerPage Reg.powerState.V48 = m.v48 % 2 ^ 16
        ∧ rget t weirPage Reg.weir.EXCURSIONS
            = (if m.excursion then min 65535 (rget s weirPage Reg.weir.EXCURSIONS + 1) else rget s weirPage Reg.weir.EXCURSIONS)
        ∧ t.we.lastStep = some s.ck.dt ∧ t.ck = s.ck)
  ∧ (∀ s : State, 16 ≤ s.we.atLimit → rget s weirPage Reg.weir.MODEL_FAULT = 0 →
      ∃ t, exec .modelFault s = .next t ∧ rget t weirPage Reg.weir.MODEL_FAULT = 1
        ∧ bitAt (hget t weirPage).irqRaw 12 = true ∧ t.we = s.we)
  ∧ ∀ s : State, 1000 ≤ s.we.inside →
      ∃ t, exec .modelFaultClear s = .next t ∧ rget t weirPage Reg.weir.MODEL_FAULT = 0
        ∧ bitAt (hget t weirPage).irqRaw 12 = false ∧ t.we = s.we

/-- At every correction step SENSED rises by what the sixteen tenants, SITE, SITE_CHANNEL and RESIDUAL rise together; AUX stands
outside (R215, R218). -/
def Rules.SensedEqualsTheAccounts : Prop :=
  ∀ (m : Sense) (s : State), protRuns s = true → duePeriod 1000 s.we.lastStep s = true → s.en.acc.length = 21 →
    (∀ x ∈ s.tenants, x < 16) →
    ∃ t, exec (.correct m) s = .next t
      ∧ t.en.acc.getD 20 0 - (((List.range 18) ++ [19]).map fun a => t.en.acc.getD a 0).sum
          = s.en.acc.getD 20 0 - (((List.range 18) ++ [19]).map fun a => s.en.acc.getD a 0).sum
      ∧ t.en.acc.getD 20 0 - s.en.acc.getD 20 0 = ((m.iin0 + m.iin1) * 10 : Nat) * volts t / 1000

/-- RETENTION_SLICE, QUADRANT_WAKE_COMPLETE and RAMP_ROOM_ENABLE (R187, R201): the quadrants of the last slice go back, and the
next ones in rotation wake, as many as the room pays for at 75 mA-in each, one at least where it pays for one; a quadrant is
awake 4 µs later; a block that waits for room takes it once there is enough, and an enabled aux page then starts the channels that
are demanded, under a grant. -/
def Rules.RetentionRotatesAndBlocksEnter : Prop :=
  (∀ s : State, protRuns s = true → duePeriod 50000 s.we.lastSlice s = true →
      ∃ t, exec .retentionSlice s = .next t ∧ t.we.woken = [] ∧ t.we.lastSlice = some s.ck.dt
        ∧ ((t.we.waking.length : Nat) : Rat) * atV48 s 75 ≤ max 0 s.we.room
        ∧ (∀ x ∈ t.we.waking, x.2 = s.ck.dt + 4000 ∧ x.1 ∉ t.we.retained)
        ∧ (∀ x ∈ s.we.woken, x ∈ t.we.retained ∨ ∃ y ∈ t.we.waking, y.1 = x)
        ∧ (s.we.retained ≠ [] → (∀ x ∈ s.we.retained, x < 48) → v48 s ≠ 0 → (atV48 s 75 : Rat) ≤ s.we.room → t.we.waking ≠ [])
        ∧ t.rf = s.rf ∧ t.pw = s.pw)
  ∧ (∀ (d : Fin 12) (q : Fin 4) (at_ : Nat) (s : State), Assoc.get s.we.waking (4 * d.val + q.val) = some at_ → at_ ≤ s.ck.dt →
      ∃ t, exec (.quadrantWakeComplete d q) s = .next t ∧ 4 * d.val + q.val ∈ t.we.woken
        ∧ Assoc.get t.we.waking (4 * d.val + q.val) = none ∧ t.rf = s.rf ∧ t.hdr = s.hdr)
  ∧ ∀ (p : Page) (s : State), p ∈ s.we.ramp → (atV48 s (hget s p).allotReq : Rat) ≤ s.we.room →
      ∃ t, exec (.rampRoomEnable p) s = .next t ∧ p ∉ t.we.ramp ∧ t.we.room = s.we.room - atV48 s (hget s p).allotReq
        ∧ ((hget s p).en = false → t.hdr = s.hdr ∧ t.rf = s.rf ∧ t.pw = s.pw)
        ∧ (p = auxPage → auxGrant s ≠ 0 → (hget s auxPage).en = true → offline s auxPage = false → draining s auxPage = false →
            ∀ n : Fin 8, demanded s n.val = true → chState s n.val = 0 → chState t n.val = 1)

/-- FLOOR_BREACH_CUT, SHED_ASSERT, SHED_RELEASE, SHED_MIN_EXPIRE and SET_HOST_CAP (R181, R182, R200, R205, R211): under a floor
breach the aux grant is cut, then the highest die that can be cut while the floors do not fit; the shed makes SHED_CAP a limit
of the effective cap until the pin is high and SHED_MIN has passed; the host cap takes 0 to 40,000 from PF0 or hub firmware. -/
def Rules.CapsFallAndRise : Prop :=
  (∀ s : State, rget s weirPage Reg.weir.FLOOR_BREACH = 1 → (hget s auxPage).phase ≠ .inReset →
      ∃ t, exec .floorBreachCut s = .next t ∧ auxGrant t = 0
        ∧ ∀ d, (cuttableDies s).head? = some d →
            effCap s < atV48 s (floorRef s fun x => diePowered s x && !s.pw.falling.contains x) →
            d ∈ t.pw.falling ∧ (hget t (pageOf .diePower 0 d)).grant = 0)
  ∧ (∀ s : State,
      (protRuns s = true → ∃ t, exec .shedAssert s = .next t ∧ t.shedPin = true
        ∧ rget t weirPage Reg.weir.SHED_ACTIVE = 1 ∧ rget t weirPage Reg.weir.SHED_PIN = 0
        ∧ rget t weirPage Reg.weir.SHEDS = min 65535 (rget s weirPage Reg.weir.SHEDS + 1)
        ∧ effCap t ≤ rget s weirPage Reg.weir.SHED_CAP ∧ t.we.shedLast = some s.ck.dt
        ∧ bitAt (hget t weirPage).irqRaw 9 = true)
      ∧ (protRuns s = true → ∃ t, exec .shedRelease s = .next t ∧ t.shedPin = false
        ∧ rget t weirPage Reg.weir.SHED_PIN = 1
        ∧ rget t weirPage Reg.weir.SHED_ACTIVE = (if shedMinOver s then 0 else rget s weirPage Reg.weir.SHED_ACTIVE))
      ∧ (s.pw.mode = .dry → exec .shedAssert s = .next { s with shedPin := true }
        ∧ exec .shedRelease s = .next { s with shedPin := false })
      ∧ (rget s weirPage Reg.weir.SHED_ACTIVE = 1 → rget s weirPage Reg.weir.SHED_PIN = 1 → shedMinOver s = true →
        ∃ t, exec .shedMinExpire s = .next t ∧ rget t weirPage Reg.weir.SHED_ACTIVE = 0
          ∧ bitAt (hget t weirPage).irqRaw 9 = false ∧ t.pw = s.pw))
  ∧ ∀ (r : Req) (s : State), accepts s weirPage 1 r = true →
      (r.arg.toNat ≤ 40000 → (r.client = .pf0 ∨ r.client = .firmware) →
        ∃ t, exec (.setHostCap r) s = .next t ∧ endsWith s t weirPage 1 r 0x0000
          ∧ rget t weirPage Reg.weir.HOST_CAP = r.arg.toNat ∧ effCap t ≤ r.arg.toNat ∧ t.pw = s.pw)
      ∧ ((40000 < r.arg.toNat ∨ r.client = .siteBus) →
        ∃ t, exec (.setHostCap r) s = .next t ∧ endsWith s t weirPage 1 r 0x0100 ∧ t.rf = s.rf ∧ t.pw = s.pw)

/-- INTERVAL_CLOSE, INTERVAL_RECORD_READY, ENERGY_CHECKPOINT and CLOSE_NOW (R223, R226, R229, R232, R233, R235): one interval closes
with the flags of its triggers at the start of the first correction step at or after them, once the steps before it are accounted,
and the next opens at the same device time with the remainders of every account; its record becomes readable, with which a CLOSE_NOW
ends. -/
def Rules.IntervalsCloseAndCarry : Prop :=
  (∀ s : State, protRuns s = true → stepAccounted s = true → s.en.opened.dtOpen < s.ck.dt / 1000 * 1000 →
      closeDue s (s.ck.dt / 1000 * 1000) = true →
      ∃ t r, exec .intervalClose s = .next t ∧ t.en.ring.getLast? = some r ∧ t.en.ring.length ≤ 4096
        ∧ r.index = s.en.opened.index ∧ r.dtClose = s.ck.dt / 1000 * 1000 ∧ t.en.opened.dtOpen = r.dtClose ∧ r.ready = false
        ∧ t.en.opened.index = s.en.opened.index + 1 ∧ t.en.triggers = s.en.triggers.filter (r.dtClose < ·.2) ∧ t.en.acc = s.en.acc
        ∧ (∀ x ∈ s.en.triggers, x.1 < 8 → x.2 ≤ r.dtClose → bitAt r.flags x.1 = true)
        ∧ (∀ k : Fin 21, let a := recordOrder.getD k.val 0
            ((r.fields.getD k.val 0 : Int) : Rat) * 1000000 / 65536 + t.en.opened.totals.getD a 0 = s.en.opened.totals.getD a 0)
        ∧ t.en.saved = some { dt := t.en.opened.dtOpen, acc := s.en.acc, opened := t.en.opened })
  ∧ (∀ (r : IntervalRec) (s : State), s.en.ring.find? (fun x => !x.ready) = some r →
      ∃ t, exec .intervalRecordReady s = .next t ∧ (t.en.ring.find? (·.index == r.index)).map (·.ready) = some true
        ∧ bitAt (hget t energyPage).irqStat 8 = true ∧ t.en.opened = s.en.opened
        ∧ (∀ c, (s.en.ring.filter fun x => bitAt x.flags 4).getLast? = some r → (∀ x ∈ s.en.triggers, x.1 ≠ 4) →
            (hget s energyPage).cmd = some c → (hget t energyPage).cmd = some { c with final := some 0x0000 }))
  ∧ (∀ s : State, protRuns s = true → duePeriod 1000000000 (s.en.saved.map (·.dt)) s = true →
      exec .energyCheckpoint s
        = .next { s with en := { s.en with saved := some { dt := max s.en.opened.dtOpen (s.ck.dt / 1000 * 1000), acc := s.en.acc, opened := s.en.opened } } })
  ∧ ∀ (r : Req) (s : State), accepts s energyPage 1 r = true →
      (r.arg = 0#32 → ∃ t, exec (.closeNow r) s = .next t ∧ (hget t energyPage).cmd = some (cmdOf s 1 r)
        ∧ (4, s.ck.dt) ∈ t.en.triggers ∧ closeDue t s.ck.dt = true ∧ t.rf = s.rf)
      ∧ (r.arg ≠ 0#32 → ∃ t, exec (.closeNow r) s = .next t ∧ endsWith s t energyPage 1 r 0x0100 ∧ t.en = s.en)

/-- ENERGY_RECORD_FETCH (R233, R234, R236): the client's read buffer holds the record of the index that it asked for, as bytes
0x00–0x37 and TENANTt on a tenant's page, or says that the record is gone or not yet readable. -/
def Rules.EnergyFetchShowsOneRecord : Prop :=
  ∀ (c : Client) (hi : Word) (s : State),
    (reachesBlock s c energyPage = true → ∃ t, exec (.energyRecordFetch c energyPage hi) s = .next t ∧ t.en = s.en
      ∧ (let x := hi.toNat * 2 ^ 32 + rgetC s c energyPage Reg.energy.RD_INDEX_LO
         (s.en.opened.index ≤ x → rgetC t c energyPage Reg.energy.RD_STAT = 2)
         ∧ (x < s.en.opened.index → (∀ r ∈ s.en.ring, r.index ≠ x) → rgetC t c energyPage Reg.energy.RD_STAT = 1)
         ∧ ∀ r, x < s.en.opened.index → s.en.ring.find? (·.index == x) = some r → r.ready = true →
             rgetC t c energyPage Reg.energy.RD_STAT = 0
               ∧ ∀ i : Fin 64, rgetC t c energyPage Reg.energy.RD_REC i.val = (leWords (recordBytes r) 64).getD i.val 0)
      ∧ ∀ d, d ≠ c → ∀ i, rgetC t d energyPage Reg.energy.RD_REC i = rgetC s d energyPage Reg.energy.RD_REC i)
    ∧ ∀ ten : Fin 16, let p := pageOf .tenantEnergy ten.val 12
      reachesBlock s c p = true → ∃ t, exec (.energyRecordFetch c p hi) s = .next t ∧ t.en = s.en
        ∧ ∀ r, hi.toNat * 2 ^ 32 + rgetC s c p Reg.tenantEnergy.RD_INDEX_LO < s.en.opened.index →
            s.en.ring.find? (·.index == hi.toNat * 2 ^ 32 + rgetC s c p Reg.tenantEnergy.RD_INDEX_LO) = some r → r.ready = true →
            rgetC t c p Reg.tenantEnergy.RD_STAT = 0
              ∧ (∀ i : Fin 14, rgetC t c p Reg.tenantEnergy.RD_T i.val = (leWords (recordBytes r) 64).getD i.val 0)
              ∧ ∀ i : Fin 2, rgetC t c p Reg.tenantEnergy.RD_T (14 + i.val)
                  = (leWords (recordBytes r) 64).getD (16 + 2 * ten.val + i.val) 0

/-! ### Frequency, droop and heat (chapter 09) -/

/-- SPATE_EVALUATE, SPATE_HOLD_TEMPERATURE, SYNTH_RELOCK and RAIL_SETTLED (R132, R187, R242–R244): in each interval a SPATE core rises
by one setting, falls by one, stays, or returns to NOMINAL, none above what a CANAL core of its quadrant leaves; a core waits for its
rail, and then its synthesizer takes its setting, a rise once there is ramp room. -/
def Rules.SpateMovesOneSettingAtATime : Prop :=
  (∀ s : State, s.pw.mode = .flow → duePeriod 100000 s.fq.lastEval s = true →
      ∃ t, exec .spateEvaluate s = .next t ∧ t.fq.lastEval = some s.ck.dt ∧ (∀ h, nNow t h = nNow s h)
        ∧ ∀ g ∈ spateCores s,
          let n := nTarget s g
          let back := 1440 ≤ hotter s (g / 4) ∨ rget s weirPage Reg.weir.THERM_CAP_VALID = 1
            ∨ rget s weirPage Reg.weir.SHED_ACTIVE = 1
          (back → nTarget t g = quadCap s g (nominalN s g))
          ∧ (¬ back → throttleRose s g = true →
              nTarget t g = (if quadCap s g (nominalN s g) < n then quadCap s g (n - 1) else n))
          ∧ (¬ back → throttleRose s g = false → (s.fq.overSeen = true ∨ s.fq.rampSeen = true
              ∨ vfOrd (cert s g 7) ≤ (n : Int) ∨ rget s (freqPage (g / 16)) Reg.dieFreq.SPATE_MAX ≤ n ∨ 56 ≤ n) →
              nTarget t g = n)
          ∧ (¬ back → throttleRose s g = false → s.fq.overSeen = false → s.fq.rampSeen = false →
              (n : Int) < vfOrd (cert s g 7) → n < rget s (freqPage (g / 16)) Reg.dieFreq.SPATE_MAX → n < 56 →
              canalQuad s (g / 4) = false → nTarget t g = n + 1))
  ∧ (∀ (d : Fin 12) (i : Fin 8) (v : Int) (s : State), 1440 ≤ v →
      ∃ t, exec (.spateHoldTemperature d i v) s = .next t
        ∧ (diePowered s d.val = true → rget t (freqPage d.val) Reg.dieFreq.TEMP i.val = ofInt 16 v)
        ∧ (∀ g ∈ spateCores s, g / 4 = 4 * d.val + i.val / 2 → nTarget t g = quadCap s g (nominalN s g))
        ∧ ∀ g, g / 4 ≠ 4 * d.val + i.val / 2 → nTarget t g = nTarget s g)
  ∧ (∀ (g : Fin 192) (n : Nat) (s : State), Assoc.get s.fq.relock g.val = some n → n < 64 →
      ((riseRoom s g.val n : Rat) ≤ max 0 s.we.room →
        ∃ t, exec (.synthRelock g) s = .next t ∧ nNow t g.val = n ∧ Assoc.get t.fq.relock g.val = none
          ∧ ∀ h : Fin 192, h ≠ g → nNow t h.val = nNow s h.val)
      ∧ (max 0 s.we.room < (riseRoom s g.val n : Rat) → exec (.synthRelock g) s = .next s))
  ∧ ∀ (d : Fin 12) (q : Fin 4) (k : Nat) (s : State), Assoc.get s.fq.rail (4 * d.val + q.val) = some k → k < 64 →
      ∃ t, exec (.railSettled d q) s = .next t ∧ rget t (freqPage d.val) Reg.dieFreq.K_NOW q.val = k
        ∧ ((∀ m ∈ s.fq.meas, 4 * m.die + m.q ≠ 4 * d.val + q.val) → Assoc.get t.fq.rail (4 * d.val + q.val) = none)
        ∧ ∀ a ∈ s.fq.afterRail, a.1 / 4 = 4 * d.val + q.val →
            a ∉ t.fq.afterRail ∧ ∃ n, Assoc.get t.fq.relock a.1 = some n ∧ (a.1, n) ∈ s.fq.afterRail

/-- OP_HOURS_CHECKPOINT, MEAS_OVERDUE, AGEING_MEASURE_START, AGEING_MEASURE_DONE and MEASURE (R249–R252, R263): a due idle quadrant
is measured once 60 mA-in for it and for each that is under way are granted; hub firmware derates what measures below its certified
entry, in the journal as FUNCTION 16, as soon as it may issue a command (R81, R91), and LAST_MEAS then takes the operating hours. -/
def Rules.QuadrantsAreMeasuredAndDerated : Prop :=
  (∀ (d : Fin 12) (s : State), diePowered s d.val = true →
      Assoc.getD s.fq.lastMin d.val 0 + 60000000000 ≤ s.ck.dt →
      ∃ t, exec (.opHoursCheckpoint d) s = .next t
        ∧ Assoc.getD t.fq.opMin d.val 0 = Assoc.getD s.fq.opMin d.val 0 + 1
        ∧ opHours t d.val = (Assoc.getD s.fq.opMin d.val 0 + 1) / 60 % 2 ^ 32 ∧ t.hdr = s.hdr)
  ∧ (∀ (d : Fin 12) (q : Fin 4) (s : State), measOver s d.val q.val = true → 4 * d.val + q.val ∉ s.fq.overdue →
      ∃ t, exec (.measOverdue d q) s = .next t ∧ 4 * d.val + q.val ∈ t.fq.overdue ∧ t.fq.meas = s.fq.meas ∧ t.hdr = s.hdr)
  ∧ (∀ (d : Fin 12) (q : Fin 4) (s : State), hubRuns s = true → measDue s d.val q.val = true →
      quadIdle s (4 * d.val + q.val) = true → measuring s d.val q.val = false → diePowered s d.val = true →
      (hget s (freqPage d.val)).quiesce = false →
      (measGranted s d.val (measCount s d.val + 1) = true → ∃ t m, exec (.ageingMeasureStart d q) s = .next t
        ∧ t.fq.meas = s.fq.meas ++ [m] ∧ m.die = d.val ∧ m.q = q.val ∧ m.start = s.ck.dt ∧ m.byCmd = false ∧ m.done = false
        ∧ t.hdr = s.hdr)
      ∧ (measGranted s d.val (measCount s d.val + 1) = false → ∃ t, exec (.ageingMeasureStart d q) s = .next t
        ∧ (hget t (freqPage d.val)).allotReq = 60 * (measCount s d.val + 1)))
  ∧ (∀ (d : Fin 12) (q : Fin 4) (s : State), measuring s d.val q.val = true →
      measGranted s d.val (measCount s d.val) = true → (∀ m ∈ s.fq.meas, m.done = false) →
      (∃ t, exec (.ageingMeasureDone d q []) s = .next t ∧ measuring t d.val q.val = false
        ∧ rget t (freqPage d.val) Reg.dieFreq.LAST_MEAS q.val = opHours s d.val % 2 ^ 32 ∧ t.fq.copyA = s.fq.copyA)
      ∧ ∀ (c : Fin 4) (p : Fin 8) (v : Int), cert s (4 * (4 * d.val + q.val) + c.val) p.val ≠ 63 →
          v < vfOrd (cert s (4 * (4 * d.val + q.val) + c.val) p.val) →
          (firmwareMay s = true → s.jr.writing = none →
            ∃ t, exec (.ageingMeasureDone d q [(c, p, v)]) s = .next t ∧ measuring t d.val q.val = false
              ∧ cert t (4 * (4 * d.val + q.val) + c.val) p.val = (if v < 0 then 63 else v.toNat)
              ∧ ∃ e, jEntry t s.jr.nextSeq = some e ∧ e.func = 16 ∧ e.src = 3 ∧ e.value = 2 ∧ e.result = 0)
          ∧ (firmwareMay s = false →
            ∃ t, exec (.ageingMeasureDone d q [(c, p, v)]) s = .next t ∧ measuring t d.val q.val = true
              ∧ t.fq.copyA = s.fq.copyA ∧ t.jr = s.jr))
  ∧ ∀ (d : Fin 12) (r : Req) (s : State), accepts s (freqPage d.val) 1 r = true →
      ((∃ q : Fin 4, bitAt r.arg.toNat q.val = true ∧ ∃ g ∈ quadCores (4 * d.val + q.val), coreAssigned s g = true) →
        ∃ t, exec (.measure d r) s = .next t ∧ endsWith s t (freqPage d.val) 1 r 0x0100 ∧ t.fq = s.fq)
      ∧ ((∃ q : Fin 4, bitAt r.arg.toNat q.val = true) →
          (∀ q : Fin 4, bitAt r.arg.toNat q.val = true → ∀ g ∈ quadCores (4 * d.val + q.val), coreAssigned s g = false) →
        ∃ t, exec (.measure d r) s = .next t ∧ (hget t (freqPage d.val)).cmd = some (cmdOf s 1 r)
          ∧ ∀ q : Fin 4, bitAt r.arg.toNat q.val = true → measuring t d.val q.val = true
              ∧ ((∃ g ∈ quadCores (4 * d.val + q.val), reservedInUse s g = true) → castled t = true))

/-- DERATE and DR_FETCH (R253, R255, R263, R264): the named point takes the new code, no lower point stays above it, every other
entry stands, and the last record names the change; a code that is not lower, or a client other than PF0 and hub firmware, is
BAD_ARG. The fetch shows the record that the client's words name. -/
def Rules.DerateLowersOnePointAndThoseBelow : Prop :=
  (∀ (d : Fin 12) (r : Req) (s : State), accepts s (freqPage d.val) 2 r = true →
      let g := 16 * d.val + r.arg.toNat % 16
      let p := r.arg.toNat / 16 % 8
      let new := r.arg.toNat / 256 % 64
      ((r.client = .pf0 ∨ r.client = .firmware) → r.arg.toNat < 2 ^ 14 → r.arg.toNat / 128 % 2 = 0 →
          (new ≤ 56 ∨ new = 63) → vfOrd new < vfOrd (cert s g p) →
        ∃ t, exec (.derate d r) s = .next t ∧ endsWith s t (freqPage d.val) 2 r 0x0000 ∧ cert t g p = new
          ∧ (∀ i, i < p → vfOrd (cert t g i) ≤ vfOrd new)
          ∧ (∀ h i, (h ≠ g ∨ p < i) → cert t h i = cert s h i)
          ∧ ∃ x, t.fq.derates.getLast? = some x ∧ x.core = g ∧ x.point = p ∧ x.old = cert s g p ∧ x.new = new
              ∧ x.num + 1 = t.fq.nextDr ∧ x.cause = (if r.client = .pf0 then 1 else 0))
      ∧ ((r.client = .siteBus ∨ 2 ^ 14 ≤ r.arg.toNat ∨ r.arg.toNat / 128 % 2 = 1 ∨ vfOrd (cert s g p) ≤ vfOrd new) →
        ∃ t, exec (.derate d r) s = .next t ∧ endsWith s t (freqPage d.val) 2 r 0x0100 ∧ t.fq = s.fq))
  ∧ ∀ (c : Client) (hi : Word) (s : State), reachesBlock s c heatPage = true →
      ∃ t, exec (.drFetch c hi) s = .next t ∧ t.fq = s.fq
        ∧ (let x := hi.toNat * 2 ^ 32 + rgetC s c heatPage Reg.heat.DR_RD_LO
           (s.fq.nextDr ≤ x → rgetC t c heatPage Reg.heat.DR_RD_STAT = 2)
           ∧ (x < s.fq.nextDr → (∀ r ∈ s.fq.derates, r.num ≠ x) → rgetC t c heatPage Reg.heat.DR_RD_STAT = 1)
           ∧ ∀ r, x < s.fq.nextDr → s.fq.derates.find? (·.num == x) = some r →
               rgetC t c heatPage Reg.heat.DR_RD_STAT = 0
                 ∧ ∀ i : Fin 8, rgetC t c heatPage Reg.heat.DR_W i.val = (leWords (derateBytes r) 8).getD i.val 0)

/-- DROOP_DETECT, DROOP_RECOVER and LONG_DROOP (R256, R257): a core is stretched from the detection on, which its epoch keeps, its
recovery leaves the cycles stretched till then in its counter, and a stretch of 1 µs is recorded once. How many cycles a time holds is
the model's figure (log entry 113). -/
def Rules.DroopStretchesAndCounts : Prop :=
  ∀ (g : Fin 192) (s : State),
    (diePowered s (g.val / 16) = true → (∀ x ∈ s.fq.droop, x.core ≠ g.val) →
        ∃ t, exec (.droopDetect g) s = .next t
          ∧ t.fq.droop = s.fq.droop ++ [{ core := g.val, since := s.ck.dt, counted := s.ck.dt }]
          ∧ g.val ∈ t.fq.stretched ∧ t.rf = s.rf ∧ t.we = s.we)
    ∧ ((∃ x ∈ s.fq.droop, x.core = g.val) →
        ∃ t, exec (.droopRecover g) s = .next t ∧ (∀ x ∈ t.fq.droop, x.core ≠ g.val)
          ∧ rget t (freqPage (g.val / 16)) Reg.dieFreq.DROOP_CYC (g.val % 16) = droopCycles s g.val
          ∧ t.fq.stretched = s.fq.stretched ∧ t.co = s.co)
    ∧ ∀ x, s.fq.droop.find? (·.core == g.val) = some x → x.since + 1000 ≤ s.ck.dt → g.val ∉ s.fq.longSeen →
        ∃ t, exec (.longDroop g) s = .next t ∧ g.val ∈ t.fq.longSeen ∧ t.fq.droop = s.fq.droop ∧ t.co = s.co

/-- THERMAL_STEP (R259): at or above the threshold THERM_CAP is valid and falls by 5 %, or by 20 % with a die sensor at 105 °C or a
stack at 95 °C, never below FLOOR_SUM; more than 2 °C below it, ten steps raise it by a fiftieth of the host cap, and it ends
at the host cap; in between it holds. -/
def Rules.ThermalLoopCutsAndReleases : Prop :=
  ∀ (rs : List Reading) (gov : Nat) (s : State), protRuns s = true → duePeriod 1000000 s.fq.lastTherm s = true →
    let cap := rget s weirPage Reg.weir.THERM_CAP
    let valid := rget s weirPage Reg.weir.THERM_CAP_VALID
    let host := rget s weirPage Reg.weir.HOST_CAP
    ∃ t, exec (.thermalStep rs gov) s = .next t ∧ t.fq.lastTherm = some s.ck.dt
      ∧ rget t heatPage Reg.heat.HOT_T = ofInt 16 (hottest t).2
      ∧ (∀ i v, rs = [{ sensor := .hub i, value := v }] → rget t heatPage Reg.heat.HUB_T i.val = ofInt 16 v)
      ∧ (0 ≤ (hottest t).1 →
          rget t weirPage Reg.weir.THERM_CAP_VALID = 1 ∧ t.fq.below = 0
          ∧ rget t weirPage Reg.weir.THERM_CAP
              = max (floorSum s) ((if valid = 1 then cap else gov)
                  * (if (allReadings t).any (fun x => if x.1 then decide (1520 ≤ x.2) else decide (1680 ≤ x.2)) then 80 else 95)
                  / 100) % 2 ^ 31)
      ∧ ((hottest t).1 < -32 → valid = 1 → s.fq.below + 1 = 10 → cap + host / 50 < 2 ^ 31 →
          rget t weirPage Reg.weir.THERM_CAP = cap + host / 50 ∧ t.fq.below = 0
          ∧ rget t weirPage Reg.weir.THERM_CAP_VALID = (if cap + host / 50 < host then 1 else 0))
      ∧ ((hottest t).1 < -32 → valid = 1 → s.fq.below + 1 ≠ 10 →
          t.fq.below = s.fq.below + 1 ∧ rget t weirPage Reg.weir.THERM_CAP = cap
          ∧ rget t weirPage Reg.weir.THERM_CAP_VALID = 1)
      ∧ (-32 ≤ (hottest t).1 → (hottest t).1 < 0 →
          t.fq.below = s.fq.below ∧ rget t weirPage Reg.weir.THERM_CAP = cap
          ∧ rget t weirPage Reg.weir.THERM_CAP_VALID = valid)

/-- THERMAL_TRIP, TRIP_DIE_DOWN and TRIP_CLEAR (R182, R260–R262, R264): a trip latches, applies the shed cap and ends no job; a die
still at 115 °C after 100 ms goes down; TRIP_CLEAR ends the trip only with every sensor below 100 °C. -/
def Rules.TripsLatchUntilCleared : Prop :=
  (∀ (x : Sensor) (v : Int) (s : State), s.pw.mode ≠ .dry → s.pw.mode ≠ .off → (tripOf x).2.2 ≤ v → rget s heatPage Reg.heat.TRIPPED = 0 →
      ∃ t, exec (.thermalTrip x v) s = .next t ∧ rget t heatPage Reg.heat.TRIPPED = 1 ∧ t.fq.tripPin = true
        ∧ rget t heatPage Reg.heat.TRIP_DIE = (tripOf x).1 ∧ rget t heatPage Reg.heat.TRIP_STACK = (tripOf x).2.1
        ∧ rget t heatPage Reg.heat.TRIPS = min 65535 (rget s heatPage Reg.heat.TRIPS + 1)
        ∧ effCap t ≤ rget s weirPage Reg.weir.SHED_CAP ∧ bitAt (hget t heatPage).irqRaw 9 = true
        ∧ t.jb.slots = s.jb.slots ∧ t.pw = s.pw)
  ∧ (∀ (d : Fin 12) (i : Fin 8) (at_ : Nat) (s : State), s.fq.tripAt = some at_ → rget s heatPage Reg.heat.TRIPPED = 1 →
      at_ + 100000000 ≤ s.ck.dt → 1840 ≤ toInt 16 (rget s (freqPage d.val) Reg.dieFreq.TEMP i.val) →
      diePowered s d.val = true →
      ∃ t, exec (.tripDieDown d) s = .next t ∧ d.val ∈ t.pw.falling)
  ∧ ∀ (r : Req) (s : State), accepts s heatPage 1 r = true →
      (r.arg = 0#32 → rget s heatPage Reg.heat.TRIPPED = 1 → (∀ x ∈ allReadings s, x.2 < 1600) →
        ∃ t, exec (.tripClear r) s = .next t ∧ endsWith s t heatPage 1 r 0x0000
          ∧ rget t heatPage Reg.heat.TRIPPED = 0 ∧ t.fq.tripPin = false ∧ bitAt (hget t heatPage).irqRaw 9 = false)
      ∧ ((r.arg ≠ 0#32 ∨ rget s heatPage Reg.heat.TRIPPED = 0 ∨ ∃ x ∈ allReadings s, 1600 ≤ x.2) →
        ∃ t, exec (.tripClear r) s = .next t ∧ endsWith s t heatPage 1 r 0x0100
          ∧ rget t heatPage Reg.heat.TRIPPED = rget s heatPage Reg.heat.TRIPPED ∧ t.fq = s.fq)

/-! ### Op streams and arithmetic (chapters 10 and 11) -/

/-- A float format's decoder and encoder agree on every code that is no NaN (R271, R277, R278). -/
def Obligations.FloatFormatsDecodeAndEncodeAgree : Prop :=
  ∀ f ∈ [e4m3, e5m2, fp16, bf16, fp32], ∀ v < 2 ^ f.w, f.decode v ≠ .nan → f.encode true (f.decode v) = v

/-- An INT8 or INT4 tile: accumulator (r, c) is its start plus the exact dot product of row r and column c, modulo 2^32
(R269, R275, R276). -/
def Obligations.IntegerTilesAreExactDotProducts : Prop :=
  ∀ (fmt : Nat) (a b : Band) (init : List Nat) (r c : Fin 8), (fmt = 2 ∨ fmt = 7) → init.getD (8 * r.val + c.val) 0 < 2 ^ 32 →
    (tile fmt fmt a b init).getD (8 * r.val + c.val) 0
      = ofInt 32 ((init.getD (8 * r.val + c.val) 0 : Int)
          + ((a.cols.zip b.cols).map fun x =>
              ((x.1.map (toInt (mmaBits fmt))).getD r.val 0) * ((x.2.map (toInt (mmaBits fmt))).getD c.val 0)).sum)

/-- The operations of the vector unit with their commands (R283, R309). -/
def vecCommands : List (Nat × (Fin 192 → Instr)) :=
  [(0, .vadd), (1, .vsub), (2, .vmul), (3, .vfma), (4, .vdiv), (5, .vsqrt), (6, .vrcp), (7, .vrsqrt), (8, .vexp), (9, .vexp2),
   (10, .vlog), (11, .vlog2), (12, .vtanh), (13, .vsigmoid), (14, .verf), (15, .vmax), (16, .vmin), (17, .vgelu), (18, .vsilu),
   (19, .vcvt), (20, .vqmx), (21, .vrsum), (22, .vrmax), (23, .vrmin), (24, .viadd), (25, .visub), (26, .vimul), (27, .vimax),
   (28, .vimin)]

/-- Bytes `bs` stand in core SRAM `m'` from byte `a` on, and every other byte is that of `m`. -/
def holdsBytes (m m' : Memory) (a : Nat) (bs : List Byte) : Prop :=
  (∀ i < bs.length, Mem.read 0x00 m' (a + i) = bs.getD i 0)
    ∧ ∀ b, (b < a ∨ a + bs.length ≤ b) → Mem.read 0x00 m' b = Mem.read 0x00 m b

/-- Each of the 29 commands of the vector unit (VADD to VIMIN) runs the oldest VEC descriptor of its operation: the result of
its operands stands at DST, no other byte of SRAM changes, and the descriptor is done; a poisoned operand faults the job with
cause 2 (R282–R285, R288, R309). -/
def Obligations.VectorUnitStoresItsResult : Prop :=
  ∀ x ∈ vecCommands, ∀ (g : Fin 192) (q : QOp) (s : State),
    nextOp (coreRun s g.val) .vec = some q → q.d.vop = x.1 → coreStalled s g.val = false →
    unitHeld s g.val false = false → memoriesWf s →
    (unitPoisoned s g.val (vecReads q.d) = false →
      ∃ t, exec (x.2 g) s = .next t
        ∧ holdsBytes s.co.sram t.co.sram (coreAt g.val (16 * q.d.dst))
            (vecResult q.d (Mem.readN 0x00 s.co.sram (coreAt g.val (16 * q.d.src0)) (vecBytes q.d.ifmt q.d.len))
              (if twoOperands q.d.vop && !q.d.imm then
                Mem.readN 0x00 s.co.sram (coreAt g.val (16 * q.d.src1)) (vecBytes q.d.ifmt q.d.len) else [])
              (if q.d.vop = 3 then Mem.readN 0x00 s.co.sram (coreAt g.val (16 * q.d.dst)) (vecBytes q.d.ofmt q.d.len) else []))
        ∧ { q with done := true, tag := none } ∈ (coreRun t g.val).vec ∧ (coreRun t g.val).mma = (coreRun s g.val).mma
        ∧ seqPc t g.val = seqPc s g.val ∧ t.hbm = s.hbm ∧ t.co.dsram = s.co.dsram ∧ t.sy = s.sy ∧ t.jb = s.jb)
    ∧ (∀ j, unitPoisoned s g.val (vecReads q.d) = true → slotOfCore s g.val = some j → (slotGet s j).st = .running →
      ∃ t, exec (x.2 g) s = .next t ∧ (slotGet t j).st = .faulted ∧ (slotGet t j).cause = 2 ∧ t.co.sram = s.co.sram)

/-- MMA: the oldest MMA descriptor runs whole while its arrays hold credits of its format and its core a grant, and a younger one that
names none of the arrays of those that still wait likewise (R192, R202, R298). With DRAIN its tiles, each in the drained format, stand
at C; without, its arrays hold them; in neither case does another byte of SRAM change, nor another array's accumulators (R304, R305). -/
def Obligations.MmaDrainsOrHoldsItsTiles : Prop :=
  (∀ (g : Fin 192) (q : QOp) (pre post : List QOp) (s : State), (coreRun s g.val).mma = pre ++ q :: post → q.done = false →
    (∀ x ∈ pre, x.done = true ∨ (arraysCredited s g.val x.d = false ∧ ∀ a ∈ q.d.arrayList, a ∉ x.d.arrayList)) → memoriesWf s →
    inRetention s g.val = false → coreStalled s g.val = false → arraysCredited s g.val q.d = true → unitPoisoned s g.val (mmaReads q.d) = false →
    ∃ t, exec (.mma g) s = .next t ∧ { q with done := true, tag := none } ∈ (coreRun t g.val).mma
      ∧ (q.d.drain = true → holdsBytes s.co.sram t.co.sram (coreAt g.val (16 * q.d.cAddr))
          ((mmaTiles s g.val q.d).flatMap fun w =>
            bytesOf (8 * drainBytes q.d.dfmt) (w.map (drainCode q.d.dfmt q.d.mmaMode q.d.shift))))
      ∧ (q.d.drain = false → t.co.sram = s.co.sram ∧ ∀ i < q.d.arrays, ∃ h ∈ (coreRun t g.val).held,
          h.array = q.d.arrBase + i ∧ h.words = (mmaTiles s g.val q.d).getD i [] ∧ h.int = mmaInt q.d.fmtA)
      ∧ (∀ h ∈ (coreRun s g.val).held, (h.array < q.d.arrBase ∨ q.d.arrBase + q.d.arrays ≤ h.array) →
          h ∈ (coreRun t g.val).held)
      ∧ t.hbm = s.hbm ∧ t.co.dsram = s.co.dsram ∧ t.sy = s.sy ∧ t.jb = s.jb)
  ∧ ∀ (g : Fin 192) (s : State),
    ((∀ q ∈ (coreRun s g.val).mma, q.done = true ∨ arraysCredited s g.val q.d = false) ∨ coreStalled s g.val = true) →
    exec (.mma g) s = .next s

/-- DMA (R311, R312, R412): within core SRAM the source's bytes, read before any is written, stand at the destination; toward
one run of stacked memory likewise; toward a peer the descriptor waits for its WACK under a tag of its own. BYTES counts the
transfer. -/
def Obligations.DmaMovesTheSource : Prop :=
  ∀ (g : Fin 192) (eng : Fin 2) (q : QOp) (s : State),
    let u : SeqUnit := if eng.val = 0 then .dma0 else .dma1
    let n := 16 * q.d.dmaLen
    nextOp (coreRun s g.val) u = some q → (hget s (corePage .dma g.val)).grant ≠ 0 → unitHeld s g.val true = false →
    memoriesWf s → q.d.ssp = 0 →
    (coreRead s g.val (16 * q.d.w1) n).2 = [] →
    (q.d.dsp = 0 →
      ∃ t, exec (.dma g eng) s = .next t
        ∧ holdsBytes s.co.sram t.co.sram (coreAt g.val (16 * q.d.w2)) (Mem.readN 0x00 s.co.sram (coreAt g.val (16 * q.d.w1)) n)
        ∧ rget t (corePage .dma g.val) Reg.dma.BYTES = (rget s (corePage .dma g.val) Reg.dma.BYTES + n) % 2 ^ 64
        ∧ { q with done := true, tag := none } ∈ unitQueue (coreRun t g.val) u ∧ t.hbm = s.hbm ∧ t.sy = s.sy)
    ∧ (∀ j x im a, q.d.dsp = 2 → jobOf s g.val = some (j, x, im) →
        jobPieces x im writable (64 * q.d.w2) n = some [(a, n)] →
        ∃ t, exec (.dma g eng) s = .next t
          ∧ holdsBytes s.hbm.data t.hbm.data a (Mem.readN 0x00 s.co.sram (coreAt g.val (16 * q.d.w1)) n)
          ∧ { q with done := true, tag := none } ∈ unitQueue (coreRun t g.val) u ∧ t.co.sram = s.co.sram)
    ∧ (3 ≤ q.d.dsp → peerHeld s g.val q.d = false →
        ∃ t, exec (.dma g eng) s = .next t
          ∧ { q with done := true, tag := some (s.ner.nextTag % 65536) } ∈ unitQueue (coreRun t g.val) u
          ∧ t.ner.nextTag = (s.ner.nextTag % 65536 + 1) % 65536 ∧ t.co.sram = s.co.sram ∧ t.hbm = s.hbm)

/-- Where the sequencer of core `g` stands after the descriptor at the pc (R314): the next one, or the innermost loop's start
while it has passes left. -/
def passesOn (s t : State) (g : Nat) : Prop :=
  ((coreRun s g).loops = [] → seqPc t g = (seqPc s g + 1) % 2 ^ 18)
  ∧ ∀ l ls, (coreRun s g).loops = l :: ls →
      (seqPc s g ≠ l.last → seqPc t g = (seqPc s g + 1) % 2 ^ 18)
      ∧ (seqPc s g = l.last → l.i + 1 < l.n → seqPc t g = l.start % 2 ^ 18)

/-- DESCRIPTOR_ISSUE and DESCRIPTOR_COMPLETE (R295–R298, R301, R316): a valid descriptor whose DEP is met enters its unit's queue
behind the others, and the sequencer passes on; an erroneous one stops the core in ERROR with its code and pc; the oldest
descriptor of a unit leaves once done and acknowledged, and RETIRED counts it. A core in retention, or whose page is quiesced,
issues none (R60, R201). -/
def Rules.DescriptorsIssueAndRetire : Prop :=
  (∀ (g : Fin 192) (s : State), seqDecodes s g.val = true →
      (∀ d, decodeAt s g.val = .ok d → depMet (coreRun s g.val) d = true →
        (d.op = 0 → unitQuiet s g.val d = false → (coreRun s g.val).mma.length < 8 → ∃ t, exec (.descriptorIssue g) s = .next t ∧ passesOn s t g.val
          ∧ (coreRun t g.val).mma = (coreRun s g.val).mma ++ [{ pc := seqPc s g.val, d := d }] ∧ t.co.sram = s.co.sram)
        ∧ (d.op = 1 → (coreRun s g.val).vec.length < 8 → ∃ t, exec (.descriptorIssue g) s = .next t ∧ passesOn s t g.val
          ∧ (coreRun t g.val).vec = (coreRun s g.val).vec ++ [{ pc := seqPc s g.val, d := d }] ∧ t.co.sram = s.co.sram)
        ∧ (d.op = 2 → d.eng = 0 → unitQuiet s g.val d = false → (coreRun s g.val).dma0.length < 4 → ∃ t, exec (.descriptorIssue g) s = .next t
          ∧ passesOn s t g.val ∧ (coreRun t g.val).dma0 = (coreRun s g.val).dma0 ++ [{ pc := seqPc s g.val, d := d }])
        ∧ (d.op = 2 → d.eng = 1 → unitQuiet s g.val d = false → (coreRun s g.val).dma1.length < 4 → ∃ t, exec (.descriptorIssue g) s = .next t
          ∧ passesOn s t g.val ∧ (coreRun t g.val).dma1 = (coreRun s g.val).dma1 ++ [{ pc := seqPc s g.val, d := d }]))
      ∧ ∀ c, decodeAt s g.val = .error c → c < 256 → seqPc s g.val < 2 ^ 18 →
          ∃ t, exec (.descriptorIssue g) s = .next t ∧ rget t (seqPage g.val) Reg.sequencer.STATE = 5
            ∧ rget t (seqPage g.val) Reg.sequencer.ERR_CODE = c
            ∧ rget t (seqPage g.val) Reg.sequencer.ERR_PC = seqPc s g.val
            ∧ bitAt (hget t (seqPage g.val)).irqStat 10 = true)
  ∧ (∀ (g : Fin 192) (s : State), inRetention s g.val = true ∨ (hget s (corePage .core g.val)).quiesce = true →
      exec (.descriptorIssue g) s = .next s)
  ∧ ∀ (g : Fin 192) (u : SeqUnit) (q : QOp) (qs : List QOp) (s : State), unitQueue (coreRun s g.val) u = q :: qs →
      q.done = true → q.tag = none →
      ∃ t, exec (.descriptorComplete g u) s = .next t ∧ unitQueue (coreRun t g.val) u = qs
        ∧ rget t (seqPage g.val) Reg.sequencer.RETIRED = (rget s (seqPage g.val) Reg.sequencer.RETIRED + 1) % 2 ^ 64
        ∧ t.co.sram = s.co.sram ∧ t.sy = s.sy

/-- WAIT, SIGNAL (both forms), LOOP, MARK and END at the pc of a running core (R312–R314, R321–R323): a WAIT passes when its
condition holds and else the core waits at the bank; a SIGNAL to a local object changes its COUNT by its type's rule and no
other object; LOOP opens a level; MARK reaches the sequencer and the slot; END stops the core, and the last one ends the job. -/
def Rules.ControlOperationsAct : Prop :=
  (∀ (g : Fin 192) (d : Desc) (j n : Nat) (x : Slot) (im : Image) (s : State), jobOf s g.val = some (j, x, im) →
      localObj x d.obj = some n → (coreRun s g.val).sigs = [] →
      (controlAt s g.val 3 = some d →
        (waitHolds (objGet s n) d.w2 = true → ∃ t, exec (.wait g) s = .next t ∧ passesOn s t g.val
          ∧ rget t (seqPage g.val) Reg.sequencer.STATE = 1 ∧ t.sy = s.sy)
        ∧ (waitHolds (objGet s n) d.w2 = false → ∃ t, exec (.wait g) s = .next t ∧ passesOn s t g.val
          ∧ rget t (seqPage g.val) Reg.sequencer.STATE = 2 ∧ t.sy.objs = s.sy.objs
          ∧ t.sy.waiters = s.sy.waiters ++ [{ core := g.val, obj := n, value := d.w2 }]))
      ∧ (controlAt s g.val 4 = some d → ctrlPair (objGet s n).1 = false → (objGet s n).2 < 2 ^ 32 → d.w2 < 2 ^ 32 →
        (d.act = false → ∃ t, exec (.signalAdd g) s = .next t ∧ passesOn s t g.val
          ∧ (∀ m, m ≠ n → objGet t m = objGet s m)
          ∧ (ctrlType (objGet s n).1 = 1 → (objGet t n).2 = ((objGet s n).2 + d.w2) % 2 ^ 32)
          ∧ (ctrlType (objGet s n).1 = 2 → (objGet t n).2 = (if d.w2 = 0 then 0 else 1))
          ∧ (ctrlType (objGet s n).1 = 3 → (objGet t n).2
              = (if (objGet s n).2 % 4096 = ctrlParties (objGet s n).1 then ((objGet s n).2 / 4096 + 1) % 2 ^ 20 * 4096
                 else (objGet s n).2 / 4096 * 4096 + ((objGet s n).2 % 4096 + 1) % 4096)))
        ∧ (d.act = true → ∃ t, exec (.signalSet g) s = .next t ∧ passesOn s t g.val
          ∧ (∀ m, m ≠ n → objGet t m = objGet s m)
          ∧ (ctrlType (objGet s n).1 = 1 → (objGet t n).2 = d.w2)
          ∧ (ctrlType (objGet s n).1 = 2 → (objGet t n).2 = (if d.w2 = 0 then 0 else 1)))))
  ∧ (∀ (g : Fin 192) (d : Desc) (s : State), controlAt s g.val 5 = some d →
      ∃ t, exec (.loop g) s = .next t ∧ seqPc t g.val = (seqPc s g.val + 1) % 2 ^ 18
        ∧ (coreRun t g.val).loops
            = { start := seqPc s g.val + 1, last := seqPc s g.val + d.body, i := 0, n := d.cnt + 1 } :: (coreRun s g.val).loops)
  ∧ (∀ (g : Fin 192) (d : Desc) (j : Nat) (s : State), slotOfCore s g.val = some j →
      (controlAt s g.val 6 = some d → d.w1 < 2 ^ 32 → ∃ t, exec (.mark g) s = .next t ∧ passesOn s t g.val
        ∧ rget t (seqPage g.val) Reg.sequencer.MARK_VAL = d.w1 ∧ (slotGet t j).lastMark = d.w1
        ∧ (bitAt d.w0 8 = true → bitAt (hget t (seqPage g.val)).irqStat 8 = true ∧ bitAt (hget t (slotPage j)).irqStat 10 = true))
      ∧ (controlAt s g.val 7 = some d → unitsIdle (coreRun s g.val) = true → (slotGet s j).st = .running →
        ∃ t, exec (.endOp g) s = .next t ∧ rget t (seqPage g.val) Reg.sequencer.STATE = 4
          ∧ bitAt (hget t (seqPage g.val)).irqStat 9 = true
          ∧ ((∀ c ∈ (slotGet s j).cores, c = g.val ∨ c ∈ (slotGet s j).ended) → (slotGet t j).st = .done)
          ∧ ((∃ c ∈ (slotGet s j).cores, c ≠ g.val ∧ c ∉ (slotGet s j).ended) →
              (slotGet t j).st = .running ∧ g.val ∈ (slotGet t j).ended)))

/-! ### Sync objects (chapter 12) -/

/-- COUNT_WRITE, ATOMIC_FETCHADD, ATOMIC_CAS, NOTIFY_CLEAR and LATE_RESPONSE (R325, R335, R336, R340, R438): a plain write sets
COUNT where HOST_SET allows it, and else records BAD_ARG; an AtomicOp answers the old COUNT and writes by its rule; a FREE
object answers Completer Abort; a one clears its notify bit; a response that matches no open tag of its requester, or of an older
epoch of the block that sent it, is counted and else discarded. No other object changes. -/
def Obligations.ClientsChangeObjectsByTheirRules : Prop :=
  (∀ (c : Client) (p : Page) (i : Fin 256) (n : Nat) (v : Word) (s : State), reachesPage s c p = true →
      pageObj s p i.val = some n → offline s (objPage n) = false → objDraining s n = false →
      (ctrlHostSet (objGet s n).1 = true → (ctrlType (objGet s n).1 = 1 ∨ ctrlType (objGet s n).1 = 2) →
        ∃ t, exec (.countWrite c p i v) s = .next t ∧ (∀ m, m ≠ n → objGet t m = objGet s m)
          ∧ (objGet t n).2 = (if ctrlType (objGet s n).1 = 1 then v.toNat else if v.toNat = 0 then 0 else 1)
          ∧ ∀ w ∈ s.sy.waiters, w.obj = n → waitHolds (objGet t n) w.value = true →
              w ∉ t.sy.waiters ∧ rget t (seqPage w.core) Reg.sequencer.STATE = 1)
      ∧ ((ctrlHostSet (objGet s n).1 = false ∨ ctrlType (objGet s n).1 = 0 ∨ ctrlType (objGet s n).1 = 3) →
        exec (.countWrite c p i v) s = .next (pgErr p 0x0100 s)))
  ∧ (∀ (a : BitVec 26) (p : Page) (n : Nat) (al : Bool) (s : State), clientUp s .pf0 = true →
      pf0Place s a.toNat = .object p n al → fuseDenied s .pf0 p.blk = false → offline s (objPage n) = false →
      objDraining s n = false → (objGet s n).2 < 2 ^ 32 →
      (∀ op : BitVec 64,
        (ctrlType (objGet s n).1 = 1 → ctrlPair (objGet s n).1 = false →
          ∃ t, exec (.atomicFetchAdd .pf0 (.control a) false op) s = .next t
            ∧ (objGet t n).2 = ((objGet s n).2 + op.toNat) % 2 ^ 32 ∧ (∀ m, m ≠ n → objGet t m = objGet s m)
            ∧ t.out.getLast? = some (.completion .ok (leBytes 4 (objGet s n).2))
            ∧ rget t bridgePage Reg.bridge.ATOMICS = (rget s bridgePage Reg.bridge.ATOMICS + 1) % 2 ^ 64)
        ∧ (ctrlType (objGet s n).1 = 0 →
          ∃ t, exec (.atomicFetchAdd .pf0 (.control a) false op) s = .next t ∧ t.sy = s.sy
            ∧ t.out.getLast? = some (.completion .abort []) ∧ (hget t p).errCode = 0x0100
            ∧ rget t bridgePage Reg.bridge.CA_SENT = min 65535 (rget s bridgePage Reg.bridge.CA_SENT + 1)))
      ∧ ∀ cmp swap : BitVec 64, ctrlType (objGet s n).1 = 1 →
          ∃ t, exec (.atomicCas .pf0 (.control a) false cmp swap) s = .next t
            ∧ (objGet t n).2 = (if (objGet s n).2 = cmp.toNat % 2 ^ 32 then swap.toNat % 2 ^ 32 else (objGet s n).2)
            ∧ (∀ m, m ≠ n → objGet t m = objGet s m)
            ∧ t.out.getLast? = some (.completion .ok (leBytes 4 (objGet s n).2)))
  ∧ (∀ (c : Client) (p : Page) (w : Fin 8) (v : Word) (s : State), reachesPage s c p = true → offline s p = false →
      ∃ t, exec (.notifyClear c p w v) s = .next t ∧ t.sy = s.sy
        ∧ ∀ n, ((∃ k : Fin 32, bitAt v.toNat k.val = true ∧ pageObj s p (32 * w.val + k.val) = some n) → notifyBit t n = false)
          ∧ ((∀ k : Fin 32, bitAt v.toNat k.val = true → pageObj s p (32 * w.val + k.val) ≠ some n) → notifyBit t n = notifyBit s n))
  ∧ ∀ (req bank : Page) (tagOpen : Bool) (e : BitVec 16) (s : State),
      let epoch := if bank.blk = .syncBank then rget s bank Reg.syncBank.EPOCH else (hget s bank).epoch
      (req.blk = .syncBank → (tagOpen = false ∨ e.toNat ≠ epoch) →
        ∃ t, exec (.lateResponse req bank tagOpen e) s = .next t ∧ t.sy = s.sy
          ∧ rget t req Reg.syncBank.LATE_DISCARDS = min 65535 (rget s req Reg.syncBank.LATE_DISCARDS + 1))
      ∧ (req.blk ≠ .syncBank → bank.blk = .syncBank → (tagOpen = false ∨ e.toNat ≠ epoch) →
        ∃ t, exec (.lateResponse req bank tagOpen e) s = .next t ∧ t.sy = s.sy
          ∧ rget t bank Reg.syncBank.LATE_DISCARDS = min 65535 (rget s bank Reg.syncBank.LATE_DISCARDS + 1))
      ∧ (tagOpen = true → e.toNat = epoch → exec (.lateResponse req bank tagOpen e) s = .next s)

/-! ### Jobs (chapter 13) -/

/-- BIND_SLOT and its unbinding (R362, R383): an EMPTY slot is bound to a view that no other slot holds, tenant 0 excepted, or
bound to none; a slot that is not EMPTY is BAD_ARG. -/
def Rules.SlotsAreBoundToViews : Prop :=
  ∀ (r : Req) (s : State), accepts s admissionPage 1 r = true →
    let a := r.arg.toNat
    let j := a % 32
    let t := a / 32 % 16
    let v := a / 512 % 8
    (a < 4096 → (slotGet s j).st = .empty → t ≠ 0 → (∀ x ∈ s.views, x.2 ≠ (t, v)) →
        ∃ u, exec (.bindSlot r) s = .next u ∧ endsWith s u admissionPage 1 r 0x0000 ∧ Assoc.get u.views j = some (t, v)
          ∧ (∀ k, k ≠ j → Assoc.get u.views k = Assoc.get s.views k) ∧ u.jb = s.jb)
    ∧ (a < 4096 → (slotGet s j).st = .empty → t ≠ 0 → (∃ x ∈ s.views, x.2 = (t, v)) →
        ∃ u, exec (.bindSlot r) s = .next u ∧ endsWith s u admissionPage 1 r 0x0107 ∧ u.views = s.views)
    ∧ (((slotGet s j).st ≠ .empty ∨ 8192 ≤ a ∨ (a < 4096 ∧ t = 0)) →
        ∃ u, exec (.bindSlot r) s = .next u ∧ endsWith s u admissionPage 1 r 0x0100 ∧ u.views = s.views)
    ∧ (4096 ≤ a → a < 8192 → (slotGet s j).st = .empty →
        ∃ u, exec (.unbindSlot r) s = .next u ∧ endsWith s u admissionPage 1 r 0x0000 ∧ Assoc.get u.views j = none
          ∧ ∀ k, k ≠ j → Assoc.get u.views k = Assoc.get s.views k)

/-- What the admission unit admits fits the snapshot (R246, R367, R368): powered dies, each used once, with eligible cores of their
own; free objects, each used once; and the floors, what is committed and the job's progress draw inside the effective cap. -/
def Obligations.AdmittedJobsFitTheSnapshot : Prop :=
  ∀ (s : State) (j : Nat) (im : Image) (ps : List Placed) (objs : List (Nat × Nat)),
    (∀ r ∈ im.dies, r.place = 0xFF ∨ r.place < 12) → decideFit s j im = .takes ps objs →
    (∀ p ∈ ps, diePowered s p.die = true ∧ ∀ g ∈ p.cores, g / 16 = p.die ∧ eligible s im true g = true)
    ∧ (ps.map (·.die)).Nodup ∧ ps.length = im.dies.length
    ∧ (∀ o ∈ objs, objIsFree s o.2 = true) ∧ (objs.map (·.2)).Nodup
    ∧ floorSum s + atV48 s (400 + committed s + im.draw) ≤ effCap s

/-- LOAD, RESTART and ADMISSION_DECIDE (R366, R367, R370, R371, R376, R382): a LOAD and a RESTART wait for the unit; a refusal ends the
command with its code and leaves the slot's state; an admission makes a loaded slot LOADED with its cores assigned, and
starts a restarted job under the next run number. -/
def Rules.AdmissionDecidesOldestFirst : Prop :=
  (∀ (j : Fin 32) (r : Req) (s : State),
      (accepts s (slotPage j.val) 1 r = true → ∃ t, exec (.load j r) s = .next t
        ∧ t.jb.queue = s.jb.queue ++ [{ slot := j.val, load := true, peer := none }]
        ∧ (hget t (slotPage j.val)).cmd = some (cmdOf s 1 r) ∧ t.jb.slots = s.jb.slots)
      ∧ (accepts s (slotPage j.val) 4 r = true →
          let x := slotGet s j.val
          let ok := r.arg = 0#32 ∧ (x.st = .faulted ∨ x.st = .done ∨ x.st = .cancelled) ∧ mayRestart x = true
          (ok → ∃ t, exec (.restart j r) s = .next t
            ∧ t.jb.queue = s.jb.queue ++ [{ slot := j.val, load := false, peer := none }]
            ∧ (hget t (slotPage j.val)).cmd = some (cmdOf s 4 r) ∧ t.jb.slots = s.jb.slots)
          ∧ (¬ ok → ∃ t, exec (.restart j r) s = .next t ∧ endsWith s t (slotPage j.val) 4 r 0x0100 ∧ t.jb = s.jb)))
  ∧ ∀ (j : Fin 32) (load : Bool) (qs : List AdmReq) (c : CmdRun) (s : State), hubRuns s = true →
      s.jb.queue = { slot := j.val, load := load, peer := none } :: qs → (hget s (slotPage j.val)).cmd = some c →
      c.final = none → c.opcode = (if load then 1 else 4) →
      let s1 : State := { s with jb := { s.jb with queue := qs } }
      (load = true →
        (∀ code, (decideLoad s1 j.val c.arg).1 = .refuse code →
          ∃ t, exec .admissionDecide s = .next t ∧ t.jb.queue = qs ∧ (slotGet t j.val).lastResult = code
            ∧ (slotGet t j.val).st = (slotGet s j.val).st
            ∧ (hget t (slotPage j.val)).cmd = some { c with final := some code })
        ∧ (∀ ps objs, (decideLoad s1 j.val c.arg).1 = .takes ps objs → s.tenants.length = 32 →
          ∃ t, exec .admissionDecide s = .next t ∧ t.jb.queue = qs ∧ (slotGet t j.val).st = .loaded
            ∧ (slotGet t j.val).lastResult = 0 ∧ (slotGet t j.val).objs = objs ∧ (slotGet t j.val).dies = ps.map (·.die)
            ∧ (∀ g ∈ (slotGet t j.val).cores, slotOfCore t g = some j.val)
            ∧ t.tenants.getD j.val 0 = tenantOf s j.val ∧ t.en.slotAcc.getD j.val 0 = 0
            ∧ (hget t (slotPage j.val)).cmd = some { c with final := some 0x0000 }))
      ∧ (load = false → ∀ im, (slotGet s j.val).image = some im →
        (∀ code, decideFit s1 j.val im = .refuse code →
          ∃ t, exec .admissionDecide s = .next t ∧ t.jb.queue = qs ∧ (slotGet t j.val).lastResult = code
            ∧ (slotGet t j.val).st = (slotGet s j.val).st
            ∧ (hget t (slotPage j.val)).cmd = some { c with final := some code })
        ∧ (∀ ps objs, decideFit s1 j.val im = .takes ps objs → im.group = 1 →
          ∃ t, exec .admissionDecide s = .next t ∧ t.jb.queue = qs
            ∧ ((slotGet t j.val).st = .starting ∨ (slotGet t j.val).st = .running)
            ∧ (slotGet t j.val).run = ((slotGet s j.val).run + 1) % 2 ^ 32 ∧ (slotGet t j.val).objs = objs
            ∧ ∀ g ∈ (slotGet t j.val).cores, slotOfCore t g = some j.val))

/-- START, CANCEL, RELEASE, JOB_FAULT and AUTO_RESTART (R371–R375, R385): a loaded job of one device starts, and runs once its
clocks stand; CANCEL ends what holds cores with cause 9; RELEASE empties a slot that does not run; a fault latches its cause
and frees the cores; hub firmware restarts a faulted job 1 ms later. -/
def Obligations.JobsStartEndAndFault : Prop :=
  (∀ (j : Fin 32) (r : Req) (im : Image) (s : State), (slotGet s j.val).image = some im → im.group = 1 → im.dev = 0 →
      accepts s (slotPage j.val) 2 r = true →
      (r.arg = 0#32 → (slotGet s j.val).st = .loaded → (slotGet s j.val).waitGroup = none →
        ∃ t, exec (.start j r) s = .next t ∧ endsWith s t (slotPage j.val) 2 r 0x0000 ∧ (slotGet t j.val).throttle = 0
          ∧ (slotGet t j.val).st = (if (slotGet s j.val).cores.all (coreSettled s) then .running else .starting))
      ∧ ((r.arg ≠ 0#32 ∨ (slotGet s j.val).st ≠ .loaded) →
        ∃ t, exec (.start j r) s = .next t ∧ endsWith s t (slotPage j.val) 2 r 0x0100 ∧ t.jb = s.jb))
  ∧ (∀ (j : Fin 32) (r : Req) (s : State), accepts s (slotPage j.val) 3 r = true →
      (r.arg = 0#32 → holdsCores (slotGet s j.val).st = true → (slotGet s j.val).waitGroup = none →
        ∃ t, exec (.cancel j r) s = .next t ∧ endsWith s t (slotPage j.val) 3 r 0x0000
          ∧ (slotGet t j.val).st = .cancelled ∧ (slotGet t j.val).cause = 9
          ∧ (∀ g ∈ (slotGet s j.val).cores, coreAssigned t g = false))
      ∧ (r.arg = 0#32 → (slotGet s j.val).st = .faulted →
        ∃ t, exec (.cancel j r) s = .next t ∧ endsWith s t (slotPage j.val) 3 r 0x0000
          ∧ (slotGet t j.val).st = .cancelled ∧ (slotGet t j.val).pendingRestart = false)
      ∧ ((r.arg ≠ 0#32 ∨ (slotGet s j.val).st = .empty ∨ (slotGet s j.val).st = .done ∨ (slotGet s j.val).st = .cancelled) →
        ∃ t, exec (.cancel j r) s = .next t ∧ endsWith s t (slotPage j.val) 3 r 0x0100 ∧ t.jb = s.jb))
  ∧ (∀ (j : Fin 32) (r : Req) (s : State), accepts s (slotPage j.val) 5 r = true →
      (r.arg = 0#32 → (slotGet s j.val).st ≠ .starting → (slotGet s j.val).st ≠ .running → (slotGet s j.val).st ≠ .empty →
        ∃ t, exec (.release j r) s = .next t ∧ endsWith s t (slotPage j.val) 5 r 0x0000
          ∧ slotGet t j.val = { lastResult := (slotGet s j.val).lastResult }
          ∧ ∀ g ∈ (slotGet s j.val).cores, coreAssigned t g = false)
      ∧ ((r.arg ≠ 0#32 ∨ (slotGet s j.val).st = .starting ∨ (slotGet s j.val).st = .running) →
        ∃ t, exec (.release j r) s = .next t ∧ endsWith s t (slotPage j.val) 5 r 0x0100 ∧ t.jb = s.jb))
  ∧ (∀ (j : Fin 32) (cause detail : Byte) (s : State), 1 ≤ cause.toNat → cause.toNat ≤ 8 →
      holdsCores (slotGet s j.val).st = true →
      ∃ t, exec (.jobFault j cause none detail) s = .next t ∧ (slotGet t j.val).st = .faulted
        ∧ (slotGet t j.val).cause = cause.toNat ∧ (slotGet t j.val).fcore = 0xFF ∧ (slotGet t j.val).fdetail = detail.toNat
        ∧ (slotGet t j.val).objs = [] ∧ bitAt (hget t (slotPage j.val)).irqStat 9 = true
        ∧ ∀ g ∈ (slotGet s j.val).cores, coreAssigned t g = false)
  ∧ ∀ (j : Fin 32) (at_ : Nat) (s : State), (slotGet s j.val).pendingRestart = true → (slotGet s j.val).st = .faulted →
      (slotGet s j.val).faultAt = some at_ → at_ + 1000000 ≤ s.ck.dt → diesDown s j.val = 0 →
      mayRestart (slotGet s j.val) = true → accepts s (slotPage j.val) 4 (firmwareReq 0) = true →
      ∃ t, exec (.autoRestart j) s = .next t
        ∧ t.jb.queue = s.jb.queue ++ [{ slot := j.val, load := false, peer := none }] ∧ (slotGet t j.val).faultAt = none
        ∧ ∃ e, jEntry t s.jr.nextSeq = some e ∧ e.func = 16 ∧ e.src = 3 ∧ e.value = 4

/-! ### Stacked memory and Nerius (chapter 14) -/

/-- A frame that port `n` takes in as the next of the open session `x` (R403, R404, R409). -/
def inSequence (s : State) (n : Nat) (f : NerFrame) (x : Session) : Prop :=
  linkIsUp s n = true ∧ portDiscard s n f = none ∧ f.length ≤ 9216 ∧ sessGet s n f.src.toNat = some x
    ∧ f.hdr.seq.toNat = x.rx ∧ x.queue = [] ∧ x.credit.length = 3 ∧ x.owed.length = 3

/-- PATROL_SCRUB, HOST_GRANULES_WRITE and NERIUS_FRAME_DISCARD (R391, R395–R397, R403, R404): a scrub corrects the sector that it
reads and marks the granule of one that it cannot; the host region grows into no held granule; a discarded frame is counted
by the first test that it fails, and does nothing else. -/
def Obligations.ScrubsHostRegionAndDiscards : Prop :=
  (∀ (d : Fin 12) (a : Nat) (s : State), transitOn s = true → a < allGranules * granuleSize → ctrlDie a = d.val →
      draining s (stackPage d.val) = false → offline s (stackPage d.val) = false →
      ∃ t, exec (.patrolScrub d a) s = .next t ∧ a / 32 ∉ t.hbm.soft ∧ t.hbm.data = s.hbm.data ∧ t.hbm.bad = s.hbm.bad
        ∧ (a / 32 ∈ s.hbm.bad → s.hbm.marks.length < 512 → ∃ m ∈ t.hbm.marks, m.1 = a / granuleSize)
        ∧ t.co = s.co ∧ t.jb = s.jb)
  ∧ (∀ (c : Client) (v : Word) (s : State), reachesBlock s c (stackPage 0) = true → v.toNat < 2 ^ 15 →
      (v.toNat ≤ 18432 → (∀ x ∈ s.jb.slots, ∀ g ∈ heldGranules x.2, g < allGranules - v.toNat) →
        ∃ t, exec (.hostGranulesWrite c v) s = .next t ∧ rget t (stackPage 0) Reg.stackCtrl.HOST_GRANULES = v.toNat
          ∧ hostBase t = allGranules - v.toNat ∧ t.hbm.data = s.hbm.data)
      ∧ ((18432 < v.toNat ∨ ∃ x ∈ s.jb.slots, ∃ g ∈ heldGranules x.2, allGranules - v.toNat ≤ g) →
        exec (.hostGranulesWrite c v) s = .next (pgErr (stackPage 0) 0x0100 s)))
  ∧ ∀ (n : Fin 4) (f : NerFrame) (s : State), linkIsUp s n.val = true →
      let counts := fun (c : Fld) => ∃ t, exec (.neriusFrameDiscard n f) s = .next t
        ∧ rget t (neriusPage n.val) c = min 65535 (rget s (neriusPage n.val) c + 1) ∧ t.ner = s.ner ∧ t.jb = s.jb
        ∧ t.co = s.co ∧ t.hbm = s.hbm ∧ t.out = s.out
      (f.length < 64 → counts Reg.nerius.RUNTS)
      ∧ (9600 < f.length → counts Reg.nerius.JABBER)
      ∧ (64 ≤ f.length → f.length ≤ 9600 → f.fcsOk = false → counts Reg.nerius.FCS_ERR)
      ∧ (64 ≤ f.length → f.length ≤ 9600 → f.fcsOk = true → f.dst.toNat ≠ portMac s n.val → counts Reg.nerius.MAC_MISS)
      ∧ (64 ≤ f.length → f.length ≤ 9600 → f.fcsOk = true → f.dst.toNat = portMac s n.val →
          (2 ≤ f.tags ∨ f.etype ≠ 0x88B5) → counts Reg.nerius.NOT_NERIUS)

/-- NERIUS_WRITE, NERIUS_SIGNAL, WACK and SACK in order, for a live slot of the same run (R327, R330, R412, R413): a WRITE puts its
payload where its job die's SRAM or its region stands, and the last one is answered; a SIGNAL changes the object and is
answered; a WACK and a SACK end what waited for their tag. -/
def Rules.PeersWriteSignalAndAcknowledge : Prop :=
  ∀ (n : Fin 4) (f : NerFrame) (x : Session) (j : Nat) (im : Image) (s : State), inSequence s n.val f x → memoriesWf s →
    liveSlot s n.val f = some j → sameRun s f j = true → (slotGet s j).image = some im →
    (f.hdr.op = .write → 1 ≤ x.credit.getD 1 0 →
      (∀ p o, f.hdr.space = 0 → jobDieAt (slotGet s j) im f.hdr.die.toNat f.hdr.address.toNat f.payload.length = some (p, o) →
        ∃ t, exec (.neriusWrite n f) s = .next t ∧ holdsBytes s.co.dsram t.co.dsram (dieAt p o) f.payload
          ∧ (f.hdr.last = true → ∃ g, t.out.getLast? = some (.nerius n.val g) ∧ g.hdr.op = .wack ∧ g.hdr.tag = f.hdr.tag)
          ∧ (f.hdr.last = false → t.out = s.out) ∧ t.hbm = s.hbm)
      ∧ (∀ a, f.hdr.space = 1 → jobPieces (slotGet s j) im writable f.hdr.address.toNat f.payload.length
            = some [(a, f.payload.length)] →
        ∃ t, exec (.neriusWrite n f) s = .next t ∧ holdsBytes s.hbm.data t.hbm.data a f.payload ∧ t.co = s.co))
    ∧ (f.hdr.op = .signal → 1 ≤ x.credit.getD 1 0 → ∀ o, localObj (slotGet s j) f.hdr.obj.toNat = some o →
        ctrlType (objGet s o).1 = 1 → ctrlPair (objGet s o).1 = false → f.hdr.act = false →
        ∃ t, exec (.neriusSignal n f) s = .next t
          ∧ (objGet t o).2 = ((objGet s o).2 + f.hdr.value.toNat) % 2 ^ 32 ∧ (∀ m, m ≠ o → objGet t m = objGet s m)
          ∧ ∃ g, t.out.getLast? = some (.nerius n.val g) ∧ g.hdr.op = .sack ∧ g.hdr.tag = f.hdr.tag)
    ∧ (f.hdr.op = .wack → ∃ t, exec (.wack n f) s = .next t ∧ t.co.sram = s.co.sram
        ∧ ∀ g ∈ (slotGet s j).cores, ∀ q ∈ (coreRun s g).dma0,
            q.tag = some f.hdr.tag.toNat → { q with tag := none } ∈ (coreRun t g).dma0)
    ∧ (f.hdr.op = .sack → ∀ (g : Fin 192) (y : Sig), (slotGet s j).cores = [g.val] → (coreRun s g.val).sigs = [y] →
        y.tag = some f.hdr.tag.toNat → y.dev = some f.hdr.srcDev.toNat →
        ∃ t, exec (.sack n f) s = .next t ∧ (coreRun t g.val).sigs = []
          ∧ rget t (seqPage g.val) Reg.sequencer.RETIRED = (rget s (seqPage g.val) Reg.sequencer.RETIRED + 1) % 2 ^ 64)

/-- HELLO, NERIUS_CREDIT, NAK, ACK_TIMEOUT and CREDIT_SEND_TIMER (R407–R410): a frame in order advances the session, acknowledges and
returns credits; a NAK, or 100 µs without an acknowledgement, sends every unacknowledged frame again in order; what is owed
leaves in a CREDIT frame after 1 µs. -/
def Rules.SessionsAcknowledgeAndReplay : Prop :=
  (∀ (n : Fin 4) (f : NerFrame) (x : Session) (s : State), inSequence s n.val f x → sessionNamed s n.val f.src.toNat = true →
      let left := x.unacked.filter fun u => !seqLe u.frame.hdr.seq.toNat f.hdr.ackSeq.toNat
      (f.hdr.op = .hello → ∃ t y, exec (.hello n f) s = .next t ∧ sessGet t n.val f.src.toNat = some y
        ∧ y.hello = true ∧ y.rx = (x.rx + 1) % 2 ^ 32 ∧ y.unacked = left ∧ t.jb = s.jb)
      ∧ (f.hdr.op = .credit → ∃ t y, exec (.neriusCredit n f) s = .next t ∧ sessGet t n.val f.src.toNat = some y
        ∧ y.rx = (x.rx + 1) % 2 ^ 32 ∧ y.unacked = left ∧ y.tx = x.tx
        ∧ y.credit.getD 0 0 = x.credit.getD 0 0 + f.hdr.creditReq.toNat
        ∧ y.credit.getD 1 0 = x.credit.getD 1 0 + f.hdr.creditRsp.toNat
        ∧ y.credit.getD 2 0 = x.credit.getD 2 0 + f.hdr.creditCtl.toNat
        ∧ y.owed.getD 2 0 = x.owed.getD 2 0 + (f.length + 63) / 64 ∧ t.out = s.out)
      ∧ (f.hdr.op = .nak → left ≠ [] → (∀ u ∈ left, u.replays < 7) →
        ∃ t, exec (.nak n f) s = .next t ∧ t.out = s.out ++ left.map (fun u => .nerius n.val u.frame)
          ∧ rget t (neriusPage n.val) Reg.nerius.REPLAYS
              = min 65535 (rget s (neriusPage n.val) Reg.nerius.REPLAYS + left.length)
          ∧ linkIsUp t n.val = true))
  ∧ ∀ (n : Fin 4) (mac : BitVec 48) (x : Session) (s : State), sessGet s n.val mac.toNat = some x → linkIsUp s n.val = true →
      (∀ u us, x.unacked = u :: us → u.sent + 100000 ≤ s.ck.dt →
        ((∀ v ∈ x.unacked, v.replays < 7) → ∃ t, exec (.ackTimeout n mac) s = .next t
          ∧ t.out = s.out ++ x.unacked.map (fun v => .nerius n.val v.frame) ∧ linkIsUp t n.val = true)
        ∧ ((∃ v ∈ x.unacked, 7 ≤ v.replays) → ∃ t, exec (.ackTimeout n mac) s = .next t
          ∧ rget t (neriusPage n.val) Reg.nerius.LSTATE = 3))
      ∧ (∀ at_, x.oweFrom = some at_ → at_ + 1000 ≤ s.ck.dt → x.queue = [] → 1 ≤ x.credit.getD 2 0 →
        ∃ t g, exec (.creditSendTimer n mac) s = .next t ∧ t.out = s.out ++ [.nerius n.val g] ∧ g.hdr.op = .credit
          ∧ g.hdr.creditReq = BitVec.ofNat 12 (x.owed.getD 0 0) ∧ g.hdr.seq = BitVec.ofNat 32 x.tx
          ∧ ∃ y, sessGet t n.val mac.toNat = some y ∧ y.owed = [0, 0, 0] ∧ y.oweFrom = none)

/-- The header of a Nerius frame (R7, R405, R406): forty octets in network order, from which the same header and length are read. -/
def Rules.HeadersHaveTheirOctets : Prop :=
  (∀ (h : NerHdr) (len : Nat), (headerBytes h len).length = 40)
  ∧ ∀ (h : NerHdr) (len : Nat), headerPlain h = true → len < 2 ^ 16 → headerOf (headerBytes h len) = some (h, len)

/-- ANNOUNCE, GROUP_FAULT_FRAME, NERIUS_RESTART, RESTART_RESULT and RESTART_RESULT_TIMEOUT in order (R380–R382, R406, R414): a matching
announcement is noted, another faults the job; a peer's fault faults it with cause 8; the leader's RESTART waits for the
admission unit; a leader counts its peers' results, and a refusal or 10 ms end the restart. -/
def Obligations.GroupsStartFaultAndRestart : Prop :=
  (∀ (n : Fin 4) (f : NerFrame) (x : Session) (j : Nat) (s : State), inSequence s n.val f x → anySlot s n.val f = some j →
      (f.hdr.op = .announce → holdsCores (slotGet s j).st = true →
        (f.payload.take 56 = announcePayload (slotGet s j) → sameRun s f j = true →
          ∃ t, exec (.announce n f) s = .next t ∧ (f.hdr.srcDev.toNat, f.hdr.run.toNat) ∈ (slotGet t j).announced
            ∧ ((slotGet t j).st = (slotGet s j).st ∨ (slotGet t j).st = .running))
        ∧ ((f.payload.take 56 ≠ announcePayload (slotGet s j) ∨ sameRun s f j = false) →
          ∃ t, exec (.announce n f) s = .next t ∧ (slotGet t j).st = .faulted ∧ (slotGet t j).cause = 7))
      ∧ (f.hdr.op = .fault → holdsCores (slotGet s j).st = true → sameRun s f j = true →
        ∃ t, exec (.groupFaultFrame n f) s = .next t ∧ (slotGet t j).st = .faulted ∧ (slotGet t j).cause = 8
          ∧ (slotGet t j).fdetail = (f.payload.getD 0 0).toNat ∧ (slotGet t j).fdev = f.hdr.srcDev.toNat)
      ∧ (f.hdr.op = .restart → f.hdr.srcDev = 0 → (slotGet s j).st = .faulted →
        ∃ t, exec (.neriusRestart n f) s = .next t
          ∧ t.jb.queue = s.jb.queue ++ [{ slot := j, load := false, peer := some f.hdr.run.toNat }])
      ∧ (f.hdr.op = .restartResult → ∀ w, (slotGet s j).waitGroup = some w → f.hdr.srcDev.toNat ∈ w.devs →
        (beNat (f.payload.take 2) = 0 → (∃ p ∈ w.devs, p ≠ f.hdr.srcDev.toNat) → 2 ≤ f.payload.length →
          ∃ t, exec (.restartResult n f) s = .next t
            ∧ (slotGet t j).waitGroup = some { w with devs := w.devs.filter (· ≠ f.hdr.srcDev.toNat) })
        ∧ (beNat (f.payload.take 2) ≠ 0 → 2 ≤ f.payload.length →
          ∃ t, exec (.restartResult n f) s = .next t ∧ (slotGet t j).waitGroup = none
            ∧ (slotGet t j).st = .faulted ∧ (slotGet t j).lastResult = beNat (f.payload.take 2))))
  ∧ ∀ (j : Fin 32) (w : GroupWait) (c : CmdRun) (s : State), (slotGet s j.val).waitGroup = some w →
      w.since + 10000000 ≤ s.ck.dt → (hget s (slotPage j.val)).cmd = some c →
      ∃ t, exec (.restartResultTimeout j) s = .next t ∧ (slotGet t j.val).st = .faulted
        ∧ (slotGet t j.val).lastResult = 0x010D ∧ (slotGet t j.val).waitGroup = none
        ∧ (hget t (slotPage j.val)).cmd = some { c with final := some 0x010D }

/-- LINK_TRAINING_LOST, LINK_UP, TRAIN_ATTEMPT_FAIL and TRAIN_RETRY (R401, R402, R410, R416): a lost link closes the port's
sessions and faults the live jobs that name it with cause 7; a trained port is UP; 500 ms without lock fail the attempt, and
an enabled port tries again after 1 s. -/
def Obligations.PortsTrainAndFail : Prop :=
  ∀ (n : Fin 4) (s : State),
    (linkIsUp s n.val = true →
      ∃ t, exec (.linkTrainingLost n) s = .next t ∧ rget t (neriusPage n.val) Reg.nerius.LSTATE = 3
        ∧ (∀ x ∈ t.ner.sessions, x.port ≠ n.val)
        ∧ rget t (neriusPage n.val) Reg.nerius.LINK_ERRORS = min 65535 (rget s (neriusPage n.val) Reg.nerius.LINK_ERRORS + 1)
        ∧ ∀ j : Fin 32, slotLive s j.val = true → namesPort s n.val j.val = true →
            (slotGet t j.val).st = .faulted ∧ (slotGet t j.val).cause = 7)
    ∧ (rget s (neriusPage n.val) Reg.nerius.LSTATE = 1 → enActive s (neriusPage n.val) = true →
      ∃ t, exec (.linkUp n) s = .next t ∧ linkIsUp t n.val = true ∧ bitAt (hget t (neriusPage n.val)).irqStat 8 = true
        ∧ t.ner.sessions = s.ner.sessions)
    ∧ (∀ at_, Assoc.get s.ner.since n.val = some at_ → at_ + 500000000 ≤ s.ck.dt →
      rget s (neriusPage n.val) Reg.nerius.LSTATE = 1 →
      ∃ t, exec (.trainAttemptFail n) s = .next t ∧ rget t (neriusPage n.val) Reg.nerius.LSTATE = 0
        ∧ rget t (neriusPage n.val) Reg.nerius.TRAIN_FAILS = min 65535 (rget s (neriusPage n.val) Reg.nerius.TRAIN_FAILS + 1)
        ∧ Assoc.get t.ner.since n.val = some s.ck.dt)
    ∧ ((rget s (neriusPage n.val) Reg.nerius.LSTATE = 0 ∨ rget s (neriusPage n.val) Reg.nerius.LSTATE = 3) →
      (∀ at_, Assoc.get s.ner.since n.val = some at_ → at_ + 1000000000 ≤ s.ck.dt) → enActive s (neriusPage n.val) = true →
      ∃ t, exec (.trainRetry n) s = .next t ∧ rget t (neriusPage n.val) Reg.nerius.LSTATE = 1
        ∧ Assoc.get t.ner.since n.val = some s.ck.dt)

/-! ### The fabric (chapter 01) -/

/-- The way of a transfer over the fabric (R19–R22): along the row to the destination's column, then along that column, each step over
a port that joins the two dies; so its hops are the distance in columns and the distance in rows. A write of at most 64 bytes
through BAR2 inside one 64-byte unit counts one stack write at the controller's die and one event for each hop of its data, under
function 0 (R188, R214; the lane by which it enters is log entry 115's choice). -/
def Rules.TransfersTakeTheirWay : Prop :=
  let apart := fun (x y : Nat) => max x y - min x y
  (∀ a b : Fin 12, hops a.val b.val = apart (meshCol a.val) (meshCol b.val) + apart (meshRow a.val) (meshRow b.val)
      ∧ (a.val :: route a.val b.val).getLast? = some b.val
      ∧ ∀ i < hops a.val b.val, ∃ x y, (a.val :: route a.val b.val)[i]? = some x ∧ (route a.val b.val)[i]? = some y
          ∧ (∃ q < 4, portLink x q = .die y) ∧ (meshRow x ≠ meshRow y → meshCol x = meshCol b.val))
  ∧ ∀ (off : BitVec 36) (data : List Byte) (s : State), linkUp s = true → off.toNat + data.length ≤ 2 ^ 36 →
      let a := rget s bridgePage Reg.bridge.WIN_BASE * granuleSize + off.toNat
      let d := ctrlDie a
      rangeOpen s a data.length = true → 0 < data.length → a % 64 + data.length ≤ 64 →
      ∃ t, exec (.bar2Write off data false) s = .next t ∧ t.en.counted = s.en.counted
        ++ { die := Fin.ofNat 12 d, quad := 0, cls := 16, count := 1, tag := .func 0 }
        :: ((hostEntry d :: route (hostEntry d) d).dropLast.map fun x =>
              { die := Fin.ofNat 12 x, quad := 0, cls := 13, count := 1, tag := .func 0 })

/-! ### The host bridge (chapter 15) -/

/-- BAR2_WRITE, BAR2_READ, UNSUPPORTED_REQUEST and WIN_BASE_WRITE (R422, R425, R426, R430): the window reads and writes the stacked
memory at WIN_BASE granules and the offset; a poisoned write is dropped and counted; what runs past BAR2 or names nothing is
an unsupported request; WIN_BASE takes no more than 77,824 granules. A read of 64 bytes or less within one 64-byte unit has one
completion, and every completion of a longer one covers one such unit. -/
def Rules.WindowReachesStackedMemory : Prop :=
  (∀ (off : BitVec 36) (data : List Byte) (s : State), linkUp s = true → off.toNat + data.length ≤ 2 ^ 36 →
      let a := rget s bridgePage Reg.bridge.WIN_BASE * granuleSize + off.toNat
      (memoriesWf s → rangeOpen s a data.length = true → ∃ t, exec (.bar2Write off data false) s = .next t
        ∧ holdsBytes s.hbm.data t.hbm.data a data ∧ t.co = s.co ∧ t.out = s.out ∧ t.hdr = s.hdr)
      ∧ (rangeOpen s a data.length = false → exec (.bar2Write off data false) s = .next s)
      ∧ ∃ t, exec (.bar2Write off data true) s = .next t ∧ t.hbm = s.hbm ∧ t.out = s.out
          ∧ rget t bridgePage Reg.bridge.RX_POISONED = min 65535 (rget s bridgePage Reg.bridge.RX_POISONED + 1))
  ∧ (∀ (off : BitVec 36) (n : Nat) (s : State), linkUp s = true →
      let a := rget s bridgePage Reg.bridge.WIN_BASE * granuleSize + off.toNat
      (memoriesWf s → off.toNat + n ≤ 2 ^ 36 → rangeOpen s a n = true → ∃ t, exec (.bar2Read off n) s = .next t
        ∧ t.out = s.out ++ readCompletions (fun b k => !(stackRead s b k).2.isEmpty) a
            ((List.range n).map fun i => Mem.read 0x00 s.hbm.data (a + i))
        ∧ t.hbm.data = s.hbm.data ∧ t.hbm.bad = s.hbm.bad)
      ∧ (off.toNat + n ≤ 2 ^ 36 → rangeOpen s a n = false →
          ∃ t bs, exec (.bar2Read off n) s = .next t ∧ bs.length = n ∧ t.hbm = s.hbm ∧ t.rf = s.rf
            ∧ t.out = s.out ++ readCompletions (fun _ _ => true) a bs)
      ∧ (2 ^ 36 < off.toNat + n → exec (.bar2Read off n) s = exec (.unsupportedRequest 0) s))
  ∧ (∀ (bad : Nat → Nat → Bool) (a : Nat) (bs : List Byte), 0 < bs.length → a % 64 + bs.length ≤ 64 →
      readCompletions bad a bs = [.completion (if bad a bs.length then .poisoned else .ok) bs])
  ∧ (∀ (bad : Nat → Nat → Bool) (a : Nat) (bs : List Byte), ∀ o ∈ readCompletions bad a bs,
      ∃ st data, o = .completion st data ∧ 0 < data.length ∧ data.length ≤ 64)
  ∧ (∀ (f : Fin 16) (s : State), linkUp s = true → (f.val = 0 ∨ s.br.vfEnable = true) →
      ∃ t, exec (.unsupportedRequest f) s = .next t ∧ t.out = s.out ++ [.completion .unsupported []]
        ∧ rget t bridgePage Reg.bridge.UR_SENT = min 65535 (rget s bridgePage Reg.bridge.UR_SENT + 1) ∧ t.hbm = s.hbm)
  ∧ ∀ (c : Client) (v : Word) (s : State), reachesBlock s c bridgePage = true →
      (v.toNat % 2 ^ 17 ≤ 77824 → ∃ t, exec (.winBaseWrite c v) s = .next t
        ∧ rget t bridgePage Reg.bridge.WIN_BASE = v.toNat % 2 ^ 17 ∧ t.hdr = s.hdr ∧ t.hbm = s.hbm)
      ∧ (77824 < v.toNat % 2 ^ 17 → exec (.winBaseWrite c v) s = .next (pgErr bridgePage 0x0100 s))

/-- PCIE_LINK_UP, MSIX_UNMASK and PCIE_CONFIG_WRITE (R420, R436, R437, R446, R447): the link shows its rate and width; a vector that is
unmasked sends its pending message; the configuration bits take their values, and with VF Enable cleared every VF is gone; recovery
mode has no virtual function (R166). -/
def Rules.LinkVectorsAndConfigurationChange : Prop :=
  (∀ (rate : Fin 4) (width : Fin 17) (s : State), hubRuns s = true → rate.val ≠ 0 → width.val ∈ [1, 2, 4, 8, 16] →
      ∃ t, exec (.pcieLinkUp rate width) s = .next t ∧ rget t bridgePage Reg.bridge.RATE = rate.val
        ∧ rget t bridgePage Reg.bridge.WIDTH = width.val ∧ t.br = s.br ∧ t.hdr = s.hdr)
  ∧ ∀ (f : Fin 16) (s : State), linkUp s = true → hasFunction s f.val = true →
      (∀ v : Fin 64, (f.val = 0 ∨ v.val < 16) →
        ∃ t, exec (.msixUnmask f v) s = .next t ∧ (f.val, v.val) ∈ t.br.unmasked
          ∧ ((f.val, v.val) ∈ s.br.pba → f.val ∈ s.br.msixOn →
              t.out = s.out ++ [.msix f.val v.val] ∧ (f.val, v.val) ∉ t.br.pba)
          ∧ (((f.val, v.val) ∉ s.br.pba ∨ f.val ∉ s.br.msixOn) → t.out = s.out ∧ t.br.pba = s.br.pba))
      ∧ (∀ on, ∃ t, exec (.pcieConfigWrite f (.msixEnable on)) s = .next t ∧ (f.val ∈ t.br.msixOn ↔ on = true)
          ∧ ∀ g, g ≠ f.val → (g ∈ t.br.msixOn ↔ g ∈ s.br.msixOn))
      ∧ (∀ v : Fin 64, ∃ t, exec (.pcieConfigWrite f (.msixMask v)) s = .next t ∧ (f.val, v.val) ∉ t.br.unmasked
          ∧ ∀ x, x ≠ (f.val, v.val) → (x ∈ t.br.unmasked ↔ x ∈ s.br.unmasked))
      ∧ (∀ n, ∃ t, exec (.pcieConfigWrite f (.maxReadRequest n)) s = .next t ∧ Assoc.get t.br.mrrs f.val = some n
          ∧ t.out = s.out)
      ∧ (f.val = 0 → ∀ on, (on = true → recovery s = false) →
          ∃ t, exec (.pcieConfigWrite f (.vfEnable on)) s = .next t ∧ t.br.vfEnable = on
          ∧ (on = false → ∀ v : Fin 15, v.val + 1 ∉ t.br.msixOn ∧ ∀ x ∈ t.br.xfers, x.1 ≠ v.val + 1)
          ∧ t.jb = s.jb ∧ t.views = s.views ∧ t.en = s.en)
      ∧ (f.val = 0 → recovery s = true → exec (.pcieConfigWrite f (.vfEnable true)) s = .next s)

/-- XFER and DMA_COMPLETION_TIMEOUT (R433, R442–R444): a channel moves LEN bytes between host memory and the place that its
registers name, adds 1 to its COUNTER, and ends with OK; a place that its client may not use, a host error, poison (which goes out marked) and
missing host data end it with their codes and no post-add; for a transfer to the device the read requests go out. -/
def Rules.TransfersMoveTheirBytes : Prop :=
  (∀ (f : Fin 16) (r : Req) (h : HostCpl) (data : List Byte) (s : State), accepts s (dmaPage f.val) 1 r = true → memoriesWf s →
      let p := dmaPage f.val
      let x := xferOf s f.val
      let go := fun t => exec (.xfer f r h data) s = .next t
      let adds := fun (t : State) => ∀ o, postObj s x = some o → ctrlPair (objGet s o).1 = false →
        (objGet t o).2 = ((objGet s o).2 + 1) % 2 ^ 32
      let asked := hostReads s f.val x.host x.len
      (r.arg ≠ 0#32 → ∃ t, go t ∧ endsWith s t p 1 r 0x0100 ∧ t.hbm = s.hbm ∧ t.co = s.co ∧ t.out = s.out)
      ∧ (r.arg = 0#32 → ∀ c, xferCheck s f.val x = .error c →
          ∃ t, go t ∧ endsWith s t p 1 r c ∧ t.hbm = s.hbm ∧ t.co = s.co ∧ t.out = s.out
            ∧ rget t p Reg.bridgeDma.BYTES_DONE = 0)
      ∧ ∀ at_, r.arg = 0#32 → xferCheck s f.val x = .ok at_ → xferOpen s at_ = true →
          (x.dir = 1 → (xferRead s at_ x.len).2 = false →
            ∃ t, go t ∧ endsWith s t p 1 r 0x0000 ∧ .hostWrite f.val x.host (xferRead s at_ x.len).1 ∈ t.out
              ∧ rget t p Reg.bridgeDma.BYTES_DONE = x.len ∧ t.hbm.data = s.hbm.data ∧ t.co.sram = s.co.sram ∧ adds t)
          ∧ (x.dir = 1 → (xferRead s at_ x.len).2 = true →
            ∃ t, go t ∧ endsWith s t p 1 r 0x010C ∧ rget t p Reg.bridgeDma.BYTES_DONE = 0 ∧ t.sy = s.sy
              ∧ .hostPoison f.val x.host (xferRead s at_ x.len).1 ∈ t.out)
          ∧ (x.dir = 0 → h = .ok → x.len ≤ data.length →
            ∃ t, go t ∧ endsWith s t p 1 r 0x0000 ∧ rget t p Reg.bridgeDma.BYTES_DONE = x.len ∧ adds t
              ∧ (∀ o ∈ asked, o ∈ t.out)
              ∧ (∀ a n, at_ = .stack [(a, n)] → n = x.len → holdsBytes s.hbm.data t.hbm.data a (data.take x.len))
              ∧ (∀ g a, at_ = .core g a → holdsBytes s.co.sram t.co.sram (coreAt g a) (data.take x.len)))
          ∧ (x.dir = 0 → h = .ok → data.length < x.len →
            ∃ t, go t ∧ t.br.xfers = s.br.xfers ++ [(f.val, s.ck.dt)] ∧ (hget t p).cmd = some (cmdOf s 1 r)
              ∧ rget t p Reg.bridgeDma.BYTES_DONE = data.length ∧ t.sy = s.sy)
          ∧ (x.dir = 0 → h ≠ .ok →
            ∃ t, go t ∧ endsWith s t p 1 r 0x010C ∧ t.sy = s.sy
              ∧ rget t p Reg.bridgeDma.BYTES_DONE = min data.length x.len))
  ∧ ∀ (f : Fin 16) (at_ : Nat) (c : CmdRun) (s : State), s.br.xfers.find? (fun x => x.1 == f.val) = some (f.val, at_) →
      at_ + 50000000 ≤ s.ck.dt → (hget s (dmaPage f.val)).cmd = some c →
      ∃ t, exec (.dmaCompletionTimeout f) s = .next t ∧ (hget t (dmaPage f.val)).cmd = some { c with final := some 0x010D }
        ∧ rget t bridgePage Reg.bridge.CPL_TIMEOUTS = min 65535 (rget s bridgePage Reg.bridge.CPL_TIMEOUTS + 1)
        ∧ ∀ x ∈ t.br.xfers, x.1 ≠ f.val

/-- VF_FLR and PF0_FLR (R445, R446): a function's reset aborts its transfer and takes its MSI-X state and command contexts, and its
accesses that still wait; PF0's clears VF Enable, aborts every channel and resets WIN_BASE and ROUTE; jobs, bindings, objects and energy accounts stand. -/
def Rules.FunctionResetsTakeTheirState : Prop :=
  (∀ (v : Fin 15) (s : State), linkUp s = true → s.br.vfEnable = true →
      ∃ t, exec (.vfFlr v) s = .next t ∧ v.val + 1 ∉ t.br.msixOn ∧ (∀ x ∈ t.br.unmasked, x.1 ≠ v.val + 1)
        ∧ (∀ x ∈ t.br.pba, x.1 ≠ v.val + 1) ∧ (∀ x ∈ t.br.xfers, x.1 ≠ v.val + 1)
        ∧ (∀ (p : Page) (c : Client), c.index = v.val + 1 → cget t p c = {})
        ∧ (∀ (p : Page) (c : Client), c.index ≠ v.val + 1 → cget t p c = cget s p c)
        ∧ ((s.br.xfers.any fun x => x.1 == v.val + 1) = true → ∀ c, (hget s (dmaPage (v.val + 1))).cmd = some c →
            (hget t (dmaPage (v.val + 1))).cmd = some { c with final := some 0x010B })
        ∧ t.jr.deferred = s.jr.deferred.filter (fun w => decide (w.client.index ≠ v.val + 1))
        ∧ t.jr.slots = s.jr.slots ∧ t.jr.nextSeq = s.jr.nextSeq ∧ t.jr.unsettled = s.jr.unsettled
        ∧ t.jb = s.jb ∧ t.views = s.views ∧ t.sy = s.sy ∧ t.en = s.en ∧ t.rf = s.rf)
  ∧ ∀ s : State, linkUp s = true →
      ∃ t, exec .pf0Flr s = .next t ∧ t.br.vfEnable = false ∧ (∀ f : Fin 16, f.val ∉ t.br.msixOn ∧ ∀ x ∈ t.br.xfers, x.1 ≠ f.val)
        ∧ rget t bridgePage Reg.bridge.WIN_BASE = 0
        ∧ (∀ i : Fin 4, rget t bridgePage Reg.bridge.ROUTE_0 i.val = 4 * i.val)
        ∧ rget t bridgePage Reg.bridge.RATE = rget s bridgePage Reg.bridge.RATE
        ∧ (∀ w ∈ t.jr.deferred, w.client.isVf = false) ∧ (∀ w ∈ s.jr.deferred, w.client.isVf = false → w ∈ t.jr.deferred)
        ∧ t.jr.slots = s.jr.slots ∧ t.jr.nextSeq = s.jr.nextSeq
        ∧ t.jb = s.jb ∧ t.views = s.views ∧ t.sy = s.sy ∧ t.en = s.en ∧ t.hbm = s.hbm

/-! ### The gateway (chapter 16) -/

/-- CAN_FRAME_RX, ETH_FRAME_RX, MODBUS_ADU_RX, RAW_UART_RX, PMBUS_POLL, PMBUS_ALERT_READ and CAN_BUS_OFF_RECOVERY (R453, R454, R457,
R458): a frame without error is counted and enters the gateway with K0, KIND and its payload; the first test that it fails
drops it under that test's code; a controller returns from bus off with its error counters at zero. -/
def Rules.FramesEnterTheGateway : Prop :=
  (∀ (q : Fin 4) (f : CanFrame) (s : State), canOnBus s q.val = true → portTakes s q.val = true → canWellFormed f = true →
      (f.fdf = false ∨ rget s (portPage q.val) Reg.canPort.FD_EN = 1) →
      exec (.canFrameRx q f) s = .next (gwFrame
        { k0 := f.ident.toNat + 2 ^ 29 * f.ide.toNat + 2 ^ 30 * f.fdf.toNat + 2 ^ 31 * f.brs.toNat, kind := f.fdf.toNat
          port := q.val, payload := f.payload, time := s.ck.dt } (radd (portPage q.val) Reg.port.RX_FRAMES 1 s)))
  ∧ (∀ (q : Fin 4) (s : State), portActive s q.val = true → rget s (portPage q.val) Reg.canPort.BUS_OFF = 1 →
      ∃ t, exec (.canBusOffRecovery q) s = .next t ∧ rget t (portPage q.val) Reg.canPort.BUS_OFF = 0
        ∧ rget t (portPage q.val) Reg.canPort.TEC = 0 ∧ rget t (portPage q.val) Reg.canPort.REC = 0 ∧ t.out = s.out)
  ∧ (∀ (f : EthFrame) (s : State), portTakes s 4 = true →
      let drops := fun k => exec (.ethFrameRx f) s = .next (gwDrop 4 k (radd (portPage 4) Reg.port.RX_FRAMES 1 s))
      let most := if f.tags = [] then 1518 else 1522
      let sound := 64 ≤ f.length ∧ f.length ≤ most ∧ f.fcsOk = true
      (f.length < 64 → drops 1) ∧ (most < f.length → drops 2)
      ∧ (64 ≤ f.length → f.length ≤ most → f.fcsOk = false → drops 3)
      ∧ (sound → 2 ≤ f.tags.length → drops 6)
      ∧ (sound → f.tags.length < 2 → f.etype = 0x8808 → drops 7)
      ∧ (sound → f.tags.length < 2 → f.etype ≠ 0x8808 → ethAccepts s f.dst.toNat = false → exec (.ethFrameRx f) s = .next s)
      ∧ (sound → f.tags = [] → f.etype ≠ 0x8808 → f.etype ≠ 0x88B6 → ethAccepts s f.dst.toNat = true →
          isPtp s f.etype.toNat f.payload = false → rget s ethPage Reg.ethPort.IP_ADDR = 0 →
          exec (.ethFrameRx f) s = .next (gwFrame { k0 := f.etype.toNat, kind := 2, port := 4, payload := f.payload
                                                    time := s.ck.dt, mac := f.src.toNat }
            (radd (portPage 4) Reg.port.RX_FRAMES 1 s))))
  ∧ (∀ (u : Fin 2) (bs : List Byte) (s : State), portTakes s (5 + u.val) = true → 0 < bs.length →
      let q := 5 + u.val
      let s1 := radd (portPage q) Reg.port.RX_FRAMES 1 s
      let body := bs.take (bs.length - 2)
      let good := crcModbus body = leNat (bs.drop (bs.length - 2))
      (rget s (portPage q) Reg.uartPort.MODE = 0 →
        (bs.length ≤ 3 → exec (.modbusAduRx u bs) s = .next (gwDrop q 4 s1))
        ∧ (257 ≤ bs.length → exec (.modbusAduRx u bs) s = .next (gwDrop q 5 s1))
        ∧ (3 < bs.length → bs.length < 257 → ¬ good → exec (.modbusAduRx u bs) s = .next (gwDrop q 3 s1))
        ∧ (3 < bs.length → bs.length < 257 → good → exec (.modbusAduRx u bs) s
            = .next (gwFrame { k0 := leNat (bs.take 2), kind := 3, port := q, payload := body, time := s.ck.dt } s1)))
      ∧ (rget s (portPage q) Reg.uartPort.MODE = 1 →
        (256 < bs.length → exec (.rawUartRx u bs) s = .next (gwDrop q 5 s1))
        ∧ (bs.length ≤ 256 → exec (.rawUartRx u bs) s
            = .next (gwFrame { k0 := leNat (bs.take 1), kind := 4, port := q, payload := bs, time := s.ck.dt } s1))))
  ∧ ∀ (b : Fin 2) (r : PmbResult) (s : State), portTakes s (7 + b.val) = true → r.data.length ≤ 255 →
      let q := 7 + b.val
      let got := fun (pec : Bool) k0 (s : State) =>
        let s1 := radd (portPage q) Reg.port.RX_FRAMES 1 s
        if r.acked = false then gwDrop q 7 s1
        else if pec = true ∧ r.pecOk = false then gwDrop q 3 s1
        else gwFrame { k0 := k0, kind := 5, port := q, payload := r.data, time := s.ck.dt } s1
      exec (.pmbusAlertRead b r) s
          = .next (got true (r.addr.toNat + 2 ^ 8 * r.command.toNat + 2 ^ 16 * r.proto.toNat) s)
      ∧ ∀ e : Fin 32, pollDue s q e.val = true →
          let w := rget s (portPage q) Reg.pmbPort.POLL e.val
          bitsOf w 16 4 ≤ 2 → exec (.pmbusPoll b e r) s
            = .next (got (bitAt w 20) (w % 2 ^ 7 + 2 ^ 8 * bitsOf w 8 8 + 2 ^ 16 * bitsOf w 16 4)
                { s with gw := { s.gw with polls := Assoc.set s.gw.polls (q, e.val) s.ck.dt } })

/-- A drop is counted at its ingress port under its code. A route that is not VALID, or drops, drops the frame with NO_ROUTE; one longer than MAX_LEN with ROUTE_LEN; a frame whose
VALID route names an active egress queues a copy of the route's class where the class's guaranteed cells have room, and COUNT
rises (R462–R464, R468, R474). -/
def Rules.FramesFollowTheirRoute : Prop :=
  (∀ (p k : Nat) (s : State), p ≤ 8 → 1 ≤ k → k ≤ 16 →
      rget (gwDrop p k s) (portPage p) Reg.port.DROP k = min 4294967295 (rget s (portPage p) Reg.port.DROP k + 1)
        ∧ (gwDrop p k s).gw = s.gw)
  ∧ ∀ (f : GwFrame) (r : Nat) (s : State), f.port ≤ 8 → r < 4096 →
      treeNode s (rget s gwPage Reg.gateway.ROOT f.port) = 4 * r + 2 → (routeGet s r).length = 8 →
      let w := fun i => (routeGet s r).getD i 0
      let t := gwFrame f s
      let counted := (routeGet t r).getD 7 0 = min 4294967295 ((routeGet s r).getD 7 0 + 1)
      let dropped := fun k => rget t (portPage f.port) Reg.port.DROP k
          = min 4294967295 (rget s (portPage f.port) Reg.port.DROP k + 1) ∧ t.gw.copies = s.gw.copies
      (bitAt (w 0) 0 = false → dropped 8 ∧ t.gw = s.gw)
      ∧ (bitAt (w 0) 0 = true → bitAt (w 0) 1 = true → dropped 8 ∧ counted)
      ∧ (bitAt (w 0) 0 = true → bitAt (w 0) 1 = false → bitAt (w 0) 6 = false → bitAt (w 1) 0 = false →
          bitsOf (w 3) 0 11 < f.payload.length → dropped 11 ∧ counted)
      ∧ (bitAt (w 0) 0 = true → bitAt (w 0) 1 = false → bitAt (w 0) 6 = false → bitAt (w 1) 0 = false →
          f.payload.length ≤ bitsOf (w 3) 0 11 → ∀ q, 10 ≤ q → egressList (w 0) f.port = [q] → portTakes s q = true →
          let c := bitsOf (w 0) 3 3
          let n := (f.payload.length + 32 + 127) / 128
          usedGuar s c + n ≤ rget s gwPage Reg.gateway.GUAR c →
          counted ∧ ∃ x, t.gw.copies = s.gw.copies ++ [x] ∧ x.egress = q ∧ x.cls = c ∧ x.route = r ∧ x.frame = f ∧ x.cells = n)

/-- EGRESS_SEND and SLOW_DELIVER (R459, R466, R469–R471): the next copy of a round leaves its queue and is counted, in its port's
format; a CAN controller sends the frame it holds; the service cores get a 32-byte descriptor and the payload. -/
def Rules.CopiesLeaveInTheirFormat : Prop :=
  (∀ (q : Fin 13) (x : GwCopy) (rd : Nat × Nat) (s : State), portActive s q.val = true → nextCopy s q.val = some (x, rd) →
      x.egress = q.val →
      let sent := fun (t : State) => t.gw.copies = s.gw.copies.erase x
        ∧ rget t gwPage Reg.gateway.FORWARDED = min (2 ^ 64 - 1) (rget s gwPage Reg.gateway.FORWARDED + 1)
        ∧ rget t (portPage q.val) Reg.port.TX_FRAMES = min 4294967295 (rget s (portPage q.val) Reg.port.TX_FRAMES + 1)
      let b := x.frame.payload
      ((q.val = 5 ∨ q.val = 6) → ∃ t, exec (.egressSend q) s = .next t ∧ sent t
        ∧ t.out = s.out ++ [.uart q.val (if rget s (portPage q.val) Reg.uartPort.MODE = 0 then b ++ leBytes 2 (crcModbus b) else b)])
      ∧ ((q.val = 7 ∨ q.val = 8) → ∃ t, exec (.egressSend q) s = .next t ∧ sent t ∧ t.out = s.out ++ [.pmb q.val b])
      ∧ (q.val = 4 → ∃ t dst src tags, exec (.egressSend q) s = .next t ∧ sent t
        ∧ t.out = s.out ++ [.eth dst src tags 0x88B6 ([1, BitVec.ofNat 8 x.frame.kind, BitVec.ofNat 8 x.frame.port,
              BitVec.ofNat 8 x.frame.auth.toNat] ++ beBytes 4 x.frame.k0 ++ beBytes 4 x.frame.time ++ beBytes 2 b.length
            ++ [0, 0] ++ b)]))
  ∧ (∀ (q : Fin 4) (x : GwCopy) (f : CanFrame) (s : State), heldCopy s q.val = some x → x.egress = q.val → x.can = some f →
      canMayStart s q.val f = true →
      ∃ t, exec (.egressSend ⟨q.val, by omega⟩) s = .next t ∧ .can q.val f ∈ t.out
        ∧ rget t (portPage q.val) Reg.canPort.TEC = (rget s (portPage q.val) Reg.canPort.TEC - 1) % 256)
  ∧ ∀ (x : GwCopy) (rd : Nat × Nat) (s : State), gwActive s = true → serviceUp s = true → nextCopy s 9 = some (x, rd) → x.egress = 9 →
      1000000 ≤ bucketNow s 128 5000 32 → x.words ≠ [] →
      siteCommandOk s x.frame.k0 x.frame.auth x.frame.keyIn x.frame.payload = false →
      ∃ t d, exec .slowDeliver s = .next t ∧ t.gw.seen = s.gw.seen ++ [d ++ x.frame.payload] ∧ d.length = 32
        ∧ d.take 16 = (frameKeys s x.frame).flatMap (leBytes 4) ∧ t.gw.copies = s.gw.copies.erase x
        ∧ exec (.egressSend 9) s = (if portActive s 9 then .next t else .next s)

/-- ROUTE_SET, ROUTE_GET, ROOT_SET and GW_SAVE (R464, R478, R481): a staged entry that the rules allow stands at its route with COUNT
zero, and the rest of the table stays; an entry is read into the staging words; a root takes its node; the whole configuration
goes to flash as a record with the next generation. -/
def Rules.RoutesAreSetReadAndSaved : Prop :=
  (∀ (r : Req) (s : State), accepts s gwPage 1 r = true →
      let a := r.arg.toNat
      (a < 4096 → routeBad (routeStage s) = false →
        ∃ t, exec (.routeSet r) s = .next t ∧ endsWith s t gwPage 1 r 0x0000 ∧ routeGet t a = (routeStage s).take 7 ++ [0]
          ∧ (∀ b, b ≠ a → routeGet t b = routeGet s b) ∧ t.gw.nodes = s.gw.nodes ∧ t.gw.copies = s.gw.copies)
      ∧ ((4096 ≤ a ∨ routeBad (routeStage s) = true) →
        ∃ t, exec (.routeSet r) s = .next t ∧ endsWith s t gwPage 1 r 0x0100 ∧ t.gw = s.gw))
  ∧ (∀ (r : Req) (s : State), accepts s gwPage 2 r = true →
      let a := r.arg.toNat
      (a < 4096 → (routeGet s a).length = 8 →
        ∃ t, exec (.routeGet r) s = .next t ∧ endsWith s t gwPage 2 r 0x0000 ∧ t.gw = s.gw
          ∧ ∀ i : Fin 8, rget t gwPage Reg.gateway.RT_W i.val = (routeGet s a).getD i.val 0 % 2 ^ 32)
      ∧ (4096 ≤ a → ∃ t, exec (.routeGet r) s = .next t ∧ endsWith s t gwPage 2 r 0x0100 ∧ t.rf = s.rf))
  ∧ (∀ (r : Req) (s : State), accepts s gwPage 3 r = true →
      let a := r.arg.toNat
      (a < 2 ^ 19 → a % 16 ≤ 12 → ∃ t, exec (.rootSet r) s = .next t ∧ endsWith s t gwPage 3 r 0x0000
          ∧ rget t gwPage Reg.gateway.ROOT (a % 16) = a / 16 ∧ t.gw = s.gw
          ∧ ∀ i : Fin 13, i.val ≠ a % 16 → rget t gwPage Reg.gateway.ROOT i.val = rget s gwPage Reg.gateway.ROOT i.val)
      ∧ ((2 ^ 19 ≤ a ∨ 12 < a % 16) → ∃ t, exec (.rootSet r) s = .next t ∧ endsWith s t gwPage 3 r 0x0100 ∧ t.rf = s.rf))
  ∧ ∀ (r : Req) (s : State), accepts s gwPage 4 r = true → memoriesWf s →
      let ok := r.arg = 0#32 ∧ rget s spiPage Reg.spiNor.SFDP_OK = 1
      (¬ ok → ∃ t, exec (.gwSave r) s = .next t ∧ endsWith s t gwPage 4 r 0x0100 ∧ t.bt = s.bt)
      ∧ (ok → ∀ slot gen, (match gwNewest s with
            | some x => slot = 1 - x.1 ∧ gen = (x.2 + 1) % 2 ^ 32
            | none => slot = 0 ∧ gen = 1) →
          let a := rget s gwPage Reg.gateway.ARCHIVE + slot * 2 ^ 19
          let rec_ := gwRecord gen (wordsBytes (gwConfig s))
          ∃ t, exec (.gwSave r) s = .next t ∧ endsWith s t gwPage 4 r 0x0000 ∧ rget t gwPage Reg.gateway.CFG_GEN = gen
            ∧ (∀ i < rec_.length, Mem.read 0xFF t.bt.flash (a + i) = rec_.getD i 0) ∧ s.jr.nextSeq ∈ t.jr.committed
            ∧ t.gw = s.gw)

/-! ### The site bus (chapter 17) -/

/-- A well-formed reference frame of rank `r` for this layout (R491, R492). -/
def referenceForm (s : State) (r : Nat) (f : CanFrame) : Prop :=
  f.ide = false ∧ f.fdf = true ∧ f.payload.length = 48 ∧ r < 8 ∧ f.ident.toNat = sbReg s Reg.siteBus.REF_ID + r
    ∧ beNat (sliceB f.payload 0 1) = 16 + r ∧ beNat (sliceB f.payload 2 1) = sbReg s Reg.siteBus.SLOTS_M1
    ∧ beNat (sliceB f.payload 4 2) = sbReg s Reg.siteBus.SLOT_LEN

/-- REFERENCE_RX, REF_MISSED and MASTER_LISTEN_EXPIRE (R492–R495, R498): a reference that verifies is counted and anchors global
time at the previous one's stamp; one that does not changes nothing; three missed ones lose synchronisation; a potential
master that hears none in two cycles becomes master at its own device time. -/
def Rules.ReferencesSetGlobalTime : Prop :=
  (∀ (f : CanFrame) (r : Nat) (s : State), sbActive s = true → referenceForm s r f →
      let verified := canVerify (sbReg s Reg.siteBus.SB_KEY) (sbReg s Reg.siteBus.FV_BASE + 1 + r) f s
      (verified = none → exec (.referenceRx f) s = .next s)
      ∧ ∀ p s1, verified = some (p, s1) →
          ∃ t, exec (.referenceRx f) s = .next t
            ∧ sbReg t Reg.siteBus.REF_RX = min 65535 (sbReg s Reg.siteBus.REF_RX + 1)
            ∧ sbReg t Reg.siteBus.MASTER_RANK = r ∧ t.sb.missed = 0 ∧ t.sb.listen = none ∧ t.sb.prev = some s.ck.dt
            ∧ (r < sbReg s Reg.siteBus.RANK → sbMaster t = false)
            ∧ (sbMaster s = false → t.sb.stamp = some (s.ck.dt, beNat (sliceB p 6 4))
              ∧ ∀ d c, s.sb.stamp = some (d, c) → (c + 1) % 2 ^ 32 = beNat (sliceB p 6 4) →
                  t.sb.anchorGt = (beNat (sliceB p 10 8) : Int) ∧ t.sb.anchorDt = d ∧ (s.sb.st = 1 → t.sb.st = 2)))
  ∧ (∀ s : State, sbActive s = true → slotNow s ≠ 0 → s.sb.closed ≠ some (cycleNow s) →
      ∃ t, exec .refMissed s = .next t ∧ t.sb.closed = some (cycleNow s)
        ∧ (s.sb.seen = some (cycleNow s) → t.sb.missed = s.sb.missed ∧ t.rf = s.rf)
        ∧ (s.sb.seen ≠ some (cycleNow s) →
            sbReg t Reg.siteBus.REF_MISSED = min 65535 (sbReg s Reg.siteBus.REF_MISSED + 1) ∧ t.sb.missed = s.sb.missed + 1
            ∧ (2 ≤ s.sb.missed → sbMaster s = false → t.sb.st = 1)
            ∧ ((s.sb.missed < 2 ∨ sbMaster s = true) → t.sb.st = s.sb.st)))
  ∧ ∀ (at_ : Nat) (s : State), sbActive s = true → s.sb.listen = some at_ → at_ + 2 * cycleNs s ≤ s.ck.dt →
      ∃ t, exec .masterListenExpire s = .next t ∧ sbMaster t = true ∧ t.sb.listen = none ∧ t.sb.anchorGt = s.ck.dt
        ∧ t.sb.anchorDt = s.ck.dt ∧ t.sb.rate = 0

/-- REFERENCE_TX and OWN_SLOT_TX (R491, R497, R500, R502): the reference of a cycle, and the frame of an own slot, go out in their
window; an attempt outside it fails with kind 4, is counted, and its frame is gone; lost arbitration in an own slot is an
intrusion. -/
def Rules.SlotsCarryTheirFrames : Prop :=
  (∀ (s : State), sbActive s = true → rget s sbPage Reg.siteBus.MASTER_CAP = 1 → (sbState s = 3 ∨ sbMaster s = true) →
      s.sb.txCycle ≠ some (cycleNow s) → canOnBus s (sbPort s) = true → canReg s (sbPort s) Reg.canPort.LISTEN_ONLY = 0 →
      let fits := slotNow s = 0 ∧ windowFits s (frameNs s (sbPort s) (fdFrame 0 (List.replicate 48 0))) = true
      (fits → (cmacKey s (sbReg s Reg.siteBus.SB_KEY) 6).isSome = true →
        ∃ t f, exec (.referenceTx .sent) s = .next t ∧ .can (sbPort s) f ∈ t.out ∧ f.payload.head? = some (BitVec.ofNat 8 (16 + sbReg s Reg.siteBus.RANK)) ∧ f.ide = false
          ∧ f.ident = BitVec.ofNat 29 (sbReg s Reg.siteBus.REF_ID + sbReg s Reg.siteBus.RANK)
          ∧ sbMaster t = true ∧ t.sb.txCycle = some (cycleNow s) ∧ t.sb.prev = some s.ck.dt)
      ∧ (¬ fits → ∀ e, ∃ t, exec (.referenceTx e) s = .next t ∧ t.sb.txCycle = some (cycleNow s)
          ∧ sbReg t Reg.siteBus.TX_FAIL = min 65535 (sbReg s Reg.siteBus.TX_FAIL + 1)
          ∧ sbReg t Reg.siteBus.LAST_FAIL_SLOT = 0 ∧ sbReg t Reg.siteBus.LAST_FAIL_KIND = 4 ∧ sbMaster t = sbMaster s))
  ∧ ∀ (k : Byte) (x : GwCopy) (f : CanFrame) (s : State), ownCopy s k.toNat = some x → x.can = some f → sbSynced s = true →
      slotType s k.toNat = 2 → k.toNat < slotCount s → k.toNat ≤ slotNow s → (k.toNat, cycleNow s) ∉ s.sb.own →
      canOnBus s (sbPort s) = true → canReg s (sbPort s) Reg.canPort.LISTEN_ONLY = 0 →
      let fits := slotNow s = k.toNat ∧ windowFits s (frameNs s (sbPort s) f) = true
      let failed := fun (t : State) (kind : Nat) => sbReg t Reg.siteBus.TX_FAIL = min 65535 (sbReg s Reg.siteBus.TX_FAIL + 1)
        ∧ sbReg t Reg.siteBus.LAST_FAIL_SLOT = k.toNat ∧ sbReg t Reg.siteBus.LAST_FAIL_KIND = kind
        ∧ bitAt (sbReg t Reg.siteBus.OWN_FAIL (k.toNat / 32)) (k.toNat % 32) = true
      (fits → ∃ t, exec (.ownSlotTx k .sent) s = .next t ∧ .can (sbPort s) f ∈ t.out
          ∧ t.gw.copies = s.gw.copies.erase x ∧ (k.toNat, cycleNow s) ∈ t.sb.own)
      ∧ (fits → ∃ t, exec (.ownSlotTx k .lostArbitration) s = .next t ∧ failed t 2 ∧ t.gw.copies = s.gw.copies.erase x
          ∧ sbReg t Reg.siteBus.INTRUSIONS = min 65535 (sbReg s Reg.siteBus.INTRUSIONS + 1))
      ∧ (¬ fits → ∀ e, ∃ t, exec (.ownSlotTx k e) s = .next t ∧ failed t 4 ∧ t.gw.copies = s.gw.copies.erase x
          ∧ (k.toNat, cycleNow s) ∈ t.sb.own)

/-- POWER_STATE_RX and PS_HOLD_EXPIRE (R506, R507): an authentic frame for this module sets the site cap for its hold time, or with
RELEASE ends it; another is counted as rejected; when the hold closes, the fallback cap applies. -/
def Rules.PowerStateFramesSetTheSiteCap : Prop :=
  (∀ (f : CanFrame) (auth : Bool) (key : Fin 128) (s : State), gwActive s = true →
      let b := fun i n => beNat (sliceB f.payload i n)
      let id := sbReg s Reg.siteBus.PS_ID
      let ok := id ≤ canK0 f % 2 ^ 30 ∧ canK0 f % 2 ^ 30 ≤ id + 7 ∧ auth = true ∧ key.val = sbReg s Reg.siteBus.SB_KEY
        ∧ 12 ≤ f.payload.length ∧ b 0 1 = 1 ∧ b 4 4 ≤ 40000 ∧ bitAt (b 8 4) (sbReg s Reg.siteBus.MODULE_NO) = true
      (ok → ∃ t, exec (.powerStateRx f auth key) s = .next t
          ∧ sbReg t Reg.siteBus.PS_ACCEPTED = min 65535 (sbReg s Reg.siteBus.PS_ACCEPTED + 1)
          ∧ (bitAt (b 1 1) 0 = true → rget t weirPage Reg.weir.SITE_CAP_VALID = 0 ∧ t.sb.hold = none)
          ∧ (bitAt (b 1 1) 0 = false → rget t weirPage Reg.weir.SITE_CAP_VALID = 1 ∧ rget t weirPage Reg.weir.SITE_CAP = b 4 4
              ∧ t.sb.hold = (if b 2 2 = 0 then none else some (s.ck.dt + 1000000 * b 2 2))))
      ∧ (¬ ok → ∃ t, exec (.powerStateRx f auth key) s = .next t ∧ t.sb = s.sb
          ∧ sbReg t Reg.siteBus.PS_REJECTED = min 65535 (sbReg s Reg.siteBus.PS_REJECTED + 1)
          ∧ rget t weirPage Reg.weir.SITE_CAP = rget s weirPage Reg.weir.SITE_CAP))
  ∧ ∀ (at_ : Nat) (s : State), hubRuns s = true → s.sb.hold = some at_ → at_ ≤ s.ck.dt →
      ∃ t, exec .psHoldExpire s = .next t ∧ t.sb.hold = none ∧ rget t weirPage Reg.weir.SITE_CAP_VALID = 1
        ∧ rget t weirPage Reg.weir.SITE_CAP = sbReg s Reg.siteBus.PS_FALLBACK % 2 ^ 31

/-- SITE_BUS_COMMAND, MGMT_COMMAND and COMMAND_REPLY (R508, R509): an authentic command frame or datagram does what the command
itself does in the site bus's context, with a reply queued; a datagram that fails a test is counted and does nothing; the
oldest reply whose command has ended leaves with the command's tag and result, authenticated. -/
def Rules.RemoteCommandsRunAndAreAnswered : Prop :=
  (∀ (f : CanFrame) (auth : Bool) (key : Fin 128) (s : State), gwActive s = true → serviceUp s = true →
      let w := fun i => beNat (sliceB f.payload i 4)
      let r : Req := { client := .siteBus, source := .canFd, arg := BitVec.ofNat 32 (w 12), tag := BitVec.ofNat 32 (w 16) }
      let queued := fun p => { s with sb := { s.sb with replies := s.sb.replies ++ [{ page := p, tag := r.tag.toNat, via := none }] } }
      (siteCommandOk s (canK0 f) auth key.val f.payload = false → exec (.siteBusCommand f auth key) s = .next s)
      ∧ (siteCommandOk s (canK0 f) auth key.val f.payload = true →
          (jcPage s (w 4) = some (.page gwPage) → w 8 = 3 → exec (.siteBusCommand f auth key) s = exec (.rootSet r) (queued gwPage))
          ∧ (jcPage s (w 4) = some (.page auxPage) → w 8 = 1 → exec (.siteBusCommand f auth key) s = exec (.auxSet r) (queued auxPage))))
  ∧ (∀ (mac : BitVec 48) (ip : Word) (port : BitVec 16) (b : List Byte) (s : State), portActive s 4 = true → serviceUp s = true →
      ipAddr s ≠ 0 → mgmtUdp s ≠ 0 →
      let w := fun i n => beNat (sliceB b i n)
      let r : Req := { client := .siteBus, source := .mgmtEthernet, arg := BitVec.ofNat 32 (w 12 4), tag := BitVec.ofNat 32 (w 16 4) }
      (mgmtReject s b ≠ none → ∃ t, exec (.mgmtCommand mac ip port b) s = .next t ∧ t.sb = s.sb ∧ t.jr = s.jr ∧ t.hdr = s.hdr
        ∧ rget t ethPage Reg.ethPort.MGMT_REJECTED = min 65535 (rget s ethPage Reg.ethPort.MGMT_REJECTED + 1))
      ∧ (mgmtReject s b = none → jcPage s (w 4 4) = some (.page gwPage) → w 8 4 = 3 →
          let s1 := ksUse (sbReg s Reg.siteBus.CMD_KEY) (fvSet (sbReg s Reg.siteBus.FV_BASE + 12) (w 20 8) s)
          exec (.mgmtCommand mac ip port b) s = exec (.rootSet r) { s1 with sb := { s1.sb with
            replies := s1.sb.replies ++ [{ page := gwPage, tag := r.tag.toNat, via := some (mac.toNat, (ip.toNat, port.toNat)) }] } }))
  ∧ ∀ (x : SbReply) (s : State), serviceUp s = true → s.sb.replies.find? (·.result.isSome) = some x →
      (cmacKey s (sbReg s Reg.siteBus.CMD_KEY) 6).isSome = true →
      let words := beBytes 4 x.tag ++ beBytes 4 (x.result.getD 0)
      (x.via = none → canMayStart s (sbPort s) { fdFrame (sbReg s Reg.siteBus.CMD_ID + 1) [] with payload := List.replicate 20 0 } = true →
        ∃ t f, exec .commandReply s = .next t ∧ t.out = s.out ++ [.can (sbPort s) f]
          ∧ f.ident = BitVec.ofNat 29 (sbReg s Reg.siteBus.CMD_ID + 1) ∧ sliceB f.payload 4 8 = words
          ∧ t.sb.replies = s.sb.replies.erase x)
      ∧ (∀ m i p, x.via = some (m, (i, p)) → portActive s 4 = true →
        ∃ t b, exec .commandReply s = .next t ∧ t.out = s.out ++ [.udp m i p b] ∧ sliceB b 4 8 = words
          ∧ t.sb.replies = s.sb.replies.erase x)

/-- WAKE_VERIFY, WAKE_FRAME_RX, WAKE_ACK_TX, WAKE_SEND, WAKE_SEND_REPEAT and WAKE_ACK_RX (R511–R513): a wake frame that verifies is
acknowledged, and one kept from DRY that does not returns the device to DRY; WAKE_SEND sends up to WAKE_TRIES frames, ends OK
with the last acknowledgement, and TIMEOUT without. -/
def Rules.WakesAreVerifiedSentAndAcknowledged : Prop :=
  (∀ (port : Nat) (f : CanFrame) (s : State), s.ck.kept = some (port, f) → hubRuns s = true → s.bt.running = true →
      let sender := beNat (sliceB f.payload 1 1)
      let verified := canVerify (sbReg s Reg.siteBus.SB_KEY) (sbReg s Reg.siteBus.FV_BASE + 16 + sender) f s
      (sender < 32 → verified.isSome = true → ∃ t, exec .wakeVerify s = .next t ∧ t.ck.kept = none
          ∧ t.sb.acks = s.sb.acks ++ [(port, 1)] ∧ sbReg t Reg.siteBus.WAKE_SENDER = sender ∧ t.pw = s.pw)
      ∧ ((32 ≤ sender ∨ verified = none) → rget s timePage Reg.time.XTAL32_OK = 1 → rget s powerPage Reg.powerState.DIE_ON = 0 →
          s.pw.falling = [] → ∃ t, exec .wakeVerify s = .next t ∧ t.ck.kept = none ∧ t.pw.mode = .dry ∧ t.pw.dryWhy = .command))
  ∧ (∀ (port : Fin 4) (f : CanFrame) (s : State), canOnBus s port.val = true → wakePattern s port.val f = true →
      let sender := beNat (sliceB f.payload 1 1)
      let verified := canVerify (sbReg s Reg.siteBus.SB_KEY) (sbReg s Reg.siteBus.FV_BASE + 16 + sender) f s
      (sender < 32 → verified.isSome = true →
        ∃ t, exec (.wakeFrameRx port f) s = .next t ∧ t.sb.acks = s.sb.acks ++ [(port.val, 0)] ∧ t.out = s.out)
      ∧ ((32 ≤ sender ∨ verified = none) → exec (.wakeFrameRx port f) s = .next s))
  ∧ (∀ (q cause : Nat) (more : List (Nat × Nat)) (s : State), s.sb.acks = (q, cause) :: more →
      canMayStart s q { fdFrame (sbReg s Reg.siteBus.WAKE_ID + 1) [] with payload := List.replicate 12 0 } = true →
      (cmacKey s (sbReg s Reg.siteBus.SB_KEY) 6).isSome = true →
      ∃ t f, exec .wakeAckTx s = .next t ∧ t.out = s.out ++ [.can q f] ∧ t.sb.acks = more
        ∧ f.payload.take 3 = [1, BitVec.ofNat 8 (sbReg s Reg.siteBus.MODULE_NO), BitVec.ofNat 8 cause])
  ∧ (∀ (r : Req) (s : State), accepts s sbPage 1 r = true →
      (r.arg = 0#32 → ∃ t, exec (.wakeSend r) s = .next t ∧ endsWith s t sbPage 1 r 0x0100 ∧ t.sb.wake = s.sb.wake ∧ t.out = s.out)
      ∧ (r.arg ≠ 0#32 → wakeOnBus s = false → 0 < sbReg s Reg.siteBus.WAKE_TRIES →
          ∃ t w, exec (.wakeSend r) s = .next t ∧ t.sb.wake = some w ∧ w.mask = r.arg.toNat ∧ w.sent = 1 ∧ w.last = s.ck.dt
            ∧ sbReg t Reg.siteBus.ACK_MASK = 0 ∧ (hget t sbPage).cmd = some (cmdOf s 1 r)))
  ∧ (∀ (w : WakeRun) (c : CmdRun) (s : State), s.sb.wake = some w → (hget s sbPage).cmd = some c → c.final = none →
      wakeOnBus s = false → w.last + 5000000 ≤ s.ck.dt →
      (w.sent < sbReg s Reg.siteBus.WAKE_TRIES →
        ∃ t x, exec .wakeSendRepeat s = .next t ∧ t.sb.wake = some x ∧ x.mask = w.mask ∧ x.sent = w.sent + 1 ∧ x.last = s.ck.dt
          ∧ (hget t sbPage).cmd = some c)
      ∧ (sbReg s Reg.siteBus.WAKE_TRIES ≤ w.sent → 0 < w.sent →
        ∃ t, exec .wakeSendRepeat s = .next t ∧ t.sb.wake = none ∧ (hget t sbPage).cmd = some { c with final := some 0x010D }
          ∧ bitAt (hget t sbPage).irqStat 11 = true))
  ∧ ∀ (f : CanFrame) (w : WakeRun) (c : CmdRun) (s : State), s.sb.wake = some w → (hget s sbPage).cmd = some c → c.final = none →
      gwActive s = true → f.ident.toNat = sbReg s Reg.siteBus.WAKE_ID + 1 → f.ide = false → f.fdf = true → f.payload.length = 12 →
      f.payload.head? = some 1 →
      let m := beNat (sliceB f.payload 1 1)
      m < 32 → (canVerify (sbReg s Reg.siteBus.SB_KEY) (sbReg s Reg.siteBus.FV_BASE + 48 + m) f s).isSome = true →
      ∃ t, exec (.wakeAckRx f) s = .next t ∧ bitAt (sbReg t Reg.siteBus.ACK_MASK) m = true
        ∧ ((∀ i : Fin 32, bitAt w.mask i.val = true → i.val = m ∨ bitAt (sbReg s Reg.siteBus.ACK_MASK) i.val = true) →
            t.sb.wake = none ∧ (hget t sbPage).cmd = some { c with final := some 0x0000 })
        ∧ ((∃ i : Fin 32, bitAt w.mask i.val = true ∧ i.val ≠ m ∧ bitAt (sbReg s Reg.siteBus.ACK_MASK) i.val = false) →
            t.sb.wake = some w ∧ (hget t sbPage).cmd = some c)

/-! ### Site I/O (chapter 18) -/

/-- AUX_SET and AUX_CLEAR (R516, R517, R520, R524, R527, R537): named channels take their demand, a rise starting INRUSH with a
fresh timer, or GRANT_OFF without a grant, and a fall turning off; a channel of the site channel, a latched fault, a latched EPO or a bad configuration is
BAD_ARG, and a demand beyond AUX_GRANT NO_GRANT; AUX_CLEAR returns faulted channels to OFF. -/
def Rules.AuxCommandsSetAndClearDemands : Prop :=
  (∀ (r : Req) (s : State), accepts s auxPage 1 r = true →
      let a := r.arg.toNat
      let named := fun (n : Fin 8) => bitAt a n.val = true
      let on := fun (n : Fin 8) => bitAt a (8 + n.val)
      let bad := 2 ^ 16 ≤ a ∨ ∃ n, named n ∧ auxSetBad s n.val (on n) = true
      let demand := maskOf 8 fun n => if bitAt a n then bitAt a (8 + n) else demanded s n
      let short := (∃ n, named n ∧ on n = true) ∧ auxFits s demand = false
      (bad → ∃ t, exec (.auxSet r) s = .next t ∧ endsWith s t auxPage 1 r 0x0100 ∧ t.rf = s.rf ∧ t.io = s.io)
      ∧ (¬ bad → short → ∃ t, exec (.auxSet r) s = .next t ∧ endsWith s t auxPage 1 r 0x0101 ∧ t.rf = s.rf ∧ t.io = s.io)
      ∧ (¬ bad → ¬ short → ∃ t, exec (.auxSet r) s = .next t ∧ endsWith s t auxPage 1 r 0x0000
          ∧ ∀ n : Fin 8,
            (named n → on n = true → demanded t n.val = true
              ∧ (demanded s n.val = false → (hget s auxPage).en = true → chState s n.val = 0 → s.we.ramp.contains auxPage = false →
                  (auxGrant s ≠ 0 → chState t n.val = 1 ∧ auxRun t n.val = { used := 0, since := s.ck.dt })
                  ∧ (auxGrant s = 0 → chState t n.val = 5)))
            ∧ (named n → on n = false → chState s n.val ≠ 6 → demanded t n.val = false ∧ chState t n.val = 0)
            ∧ (¬ named n → demanded t n.val = demanded s n.val ∧ chState t n.val = chState s n.val)))
  ∧ ∀ (r : Req) (s : State), accepts s auxPage 2 r = true →
      let a := r.arg.toNat
      (256 ≤ a → ∃ t, exec (.auxClear r) s = .next t ∧ endsWith s t auxPage 2 r 0x0100 ∧ t.rf = s.rf ∧ t.io = s.io)
      ∧ (a < 256 → ∃ t, exec (.auxClear r) s = .next t ∧ endsWith s t auxPage 2 r 0x0000
          ∧ ∀ n : Fin 8,
            (bitAt a n.val = true → chState s n.val = 6 → chState t n.val = 0 ∧ demanded t n.val = false)
            ∧ ((bitAt a n.val = false ∨ chState s n.val ≠ 6) →
                chState t n.val = chState s n.val ∧ demanded t n.val = demanded s n.val))

/-- INRUSH_SETTLED, INRUSH_TIMEOUT, AUX_LIMIT_ENTER, AUX_LIMITING_END, AUX_OVERLOAD and AUX_SHORT (R517–R520): a channel's own current
and timers move it between INRUSH, STEADY and LIMITING, or latch FAULT with its cause; the other channels stay. -/
def Rules.AuxChannelsFollowTheirCurrent : Prop :=
  ∀ (n : Fin 8) (i : Nat) (s : State),
    let others := fun (t : State) => ∀ m : Fin 8, m ≠ n → chState t m.val = chState s m.val
    let faults := fun (t : State) (cause : Nat) => chState t n.val = 6 ∧ rget t auxPage Reg.aux.CAUSE n.val = cause
      ∧ bitAt (hget t auxPage).irqStat 8 = true ∧ others t
    (chState s n.val = 1 → 1000000 ≤ inrushNs s n.val →
        ∃ t, exec (.inrushSettled n) s = .next t ∧ chState t n.val = 3 ∧ others t)
    ∧ (chState s n.val = 1 → 1000000 * rget s auxPage Reg.aux.INRUSH_MS n.val ≤ inrushNs s n.val →
        (i ≤ chSteady s n.val → ∃ t, exec (.inrushTimeout n i) s = .next t ∧ chState t n.val = 3 ∧ others t)
        ∧ (chSteady s n.val < i → ∃ t, exec (.inrushTimeout n i) s = .next t ∧ faults t 2))
    ∧ (chState s n.val = 3 → chSteady s n.val < i → ∃ t, exec (.auxLimitEnter n i) s = .next t ∧ chState t n.val = 4
        ∧ (auxRun t n.val).since = s.ck.dt ∧ chNow t n.val = min 65535 i ∧ others t)
    ∧ (chState s n.val = 4 → i ≤ chSteady s n.val → ∃ t, exec (.auxLimitingEnd n i) s = .next t ∧ chState t n.val = 3
        ∧ chNow t n.val = min 65535 i ∧ others t)
    ∧ (chState s n.val = 4 → (auxRun s n.val).since + 10000000 ≤ s.ck.dt →
        ∃ t, exec (.auxOverload n) s = .next t ∧ faults t 3)
    ∧ (chState s n.val ≠ 0 → chState s n.val ≠ 6 → chShort s n.val ≤ i →
        ∃ t, exec (.auxShort n i) s = .next t ∧ faults t 1 ∧ (n.val, s.ck.dt) ∈ t.io.fired
          ∧ rget t auxPage Reg.aux.SHORTS n.val = min 65535 (rget s auxPage Reg.aux.SHORTS n.val + 1))

/-- AUX_GRANT_EXCESS, AUX_ESCALATE and AUX_RELEASE_CHECK (R522, R523): a combined current above AUX_GRANT holds every channel in
INRUSH; an excess that stands for 500 ns turns channels off in their order, only as many as it takes; with room again one
channel is released in each microsecond. -/
def Rules.AuxAllotmentHoldsAndReleases : Prop :=
  ∀ (is : List Nat) (s : State),
    let s1 := setCurrents is s
    let same := fun (t : State) (n : Nat) => chState t n = chState s n
    (auxOver s1 = false →
      (∃ t, exec (.auxGrantExcess is) s = .next t ∧ t.io.excess = none ∧ ∀ n : Fin 8, same t n.val)
      ∧ ∃ t, exec (.auxEscalate is) s = .next t ∧ t.io.excess = none ∧ ∀ n : Fin 8, same t n.val)
    ∧ (auxOver s1 = true →
      (∃ t, exec (.auxGrantExcess is) s = .next t
        ∧ (∀ n : Fin 8, chState t n.val = if chState s n.val = 1 then 2 else chState s n.val)
        ∧ t.io.excess = (if auxOver t then some (s.io.excess.getD s.ck.dt) else none))
      ∧ ∀ at_, s.io.excess = some at_ → at_ + 500 ≤ s.ck.dt →
          ∃ t, exec (.auxEscalate is) s = .next t ∧ t.io.excess = none
            ∧ (∀ n : Fin 8, same t n.val ∨ (chState t n.val = 5 ∧ (chState s n.val = 2 ∨ chState s n.val = 3 ∨ chState s n.val = 4)))
            ∧ (auxOver t = true → ∀ n : Fin 8, chState t n.val ≠ 2 ∧ chState t n.val ≠ 3 ∧ chState t n.val ≠ 4)
            ∧ ∀ n, (offOrder s1 4 ++ offOrder s1 3 ++ offOrder s1 2).head? = some n → chState t n = 5)
    ∧ (duePeriod 1000 s.io.relAt s = true → auxOver s1 = false →
      let room := auxGrant s - auxSum s1
      let held := (onOrder s1 2).find? fun n => decide (chInrush s n - chHold s n ≤ room)
      let off := (onOrder s1 5).find? fun n => decide (0 < auxGrant s) && decide (chInrush s n ≤ room)
      ∃ t, exec (.auxReleaseCheck is) s = .next t ∧ t.io.relAt = some s.ck.dt
        ∧ (∀ n, held = some n → chState t n = 1 ∧ (auxRun t n).used = (auxRun s n).used ∧ ∀ m : Fin 8, m.val ≠ n → same t m.val)
        ∧ (∀ n, held = none → off = some n → chState t n = 1 ∧ (auxRun t n).used = 0 ∧ ∀ m : Fin 8, m.val ≠ n → same t m.val)
        ∧ (held = none → off = none → ∀ m : Fin 8, same t m.val))

/-- What an accepted tamper of a cause does (R592, R594, R595): TAMPERED latches with the first cause; level VOLATILE wipes every
key from key RAM; level FULL also orders the epoch advance and the overwrite. -/
def tampersFor (s t : State) (cause : Nat) : Prop :=
  rget t keyPage Reg.keyStore.TAMPERED = 1
  ∧ rget t tamperPage Reg.tamper.TAMPERS = min 65535 (rget s tamperPage Reg.tamper.TAMPERS + 1)
  ∧ (tampered s = false → rget t tamperPage Reg.tamper.TAMPER_CAUSE = cause)
  ∧ bitAt (hget t tamperPage).irqStat 8 = true
  ∧ (s.fuseOn.tamperResp = 0 → t.sec.slots = s.sec.slots)
  ∧ (1 ≤ s.fuseOn.tamperResp → ∀ n, (ksGet t n).st ≠ .valid)
  ∧ (2 ≤ s.fuseOn.tamperResp → t.sec.advance = true ∧ t.sec.erase = true)

/-- DUAL_CHANNEL_DISAGREE, EPO_ACCEPT, TAMPER_ASSERTION_ACCEPT, DISCREPANCY_FAULT and CLEAR_READY (R530–R534): a disagreement starts
the timer; an agreement inside it is accepted, an EPO latching and its gates going off, a tamper assertion being the tamper
cause 1; a disagreement that outlasts it is a latched fault, with the same effects; both wires inactive for the discrepancy
time make the pair ready for clearing. In DRY an accepted change wakes the device. -/
def Rules.DualInputsAreAcceptedOrFault : Prop :=
  (∀ (p : Bool) (s : State), islandOn s = true →
      ((pairGet s p).a = (pairGet s p).b → ∃ t, exec (.dualChannelDisagree p) s = .next t
        ∧ (pairGet t p).a ≠ (pairGet t p).b ∧ (pairGet t p).timing = some s.ck.dt ∧ (pairGet t p).ready = false
        ∧ (pairGet t p).accepted = (pairGet s p).accepted ∧ pairGet t (!p) = pairGet s (!p))
      ∧ (∀ at_, (pairGet s p).calm = some at_ → (pairGet s p).fault = true → (pairGet s p).a = false → (pairGet s p).b = false →
          discTicks s p ≤ ticksSince s at_ → exec (.clearReady p) s = .next (pairSet p { pairGet s p with ready := true } s)))
  ∧ (∀ (b : Bool) (s : State), hubRuns s = true →
      (insideWindow s false = true → s.io.epo.accepted ≠ b → ∃ t, exec (.epoAccept b) s = .next t
        ∧ t.io.epo.accepted = b ∧ t.io.epo.a = b ∧ t.io.epo.b = b ∧ t.io.epo.timing = none
        ∧ rget t dualPage Reg.dualIn.EPO_TIME = s.ck.dt % 2 ^ 64 ∧ bitAt (hget t dualPage).irqStat 8 = true
        ∧ t.io.epoLatched = (b || s.io.epoLatched)
        ∧ (b = true → ∀ n : Fin 8, bitAt (rget s auxPage Reg.aux.EPO_MASK) n.val = true →
            demanded t n.val = false ∧ (chState s n.val ≠ 6 → chState t n.val = 0) ∧ (chState s n.val = 6 → chState t n.val = 6)))
      ∧ (insideWindow s true = true → s.io.tamp.accepted ≠ b → ∃ t, exec (.tamperAssertionAccept b) s = .next t
        ∧ t.io.tamp.accepted = b ∧ t.io.tamp.timing = none ∧ rget t dualPage Reg.dualIn.TAMP_TIME = s.ck.dt % 2 ^ 64
        ∧ bitAt (rget t tamperPage Reg.tamper.MON_STAT) 1 = (b || s.io.tamp.fault) ∧ (b = true → tampersFor s t 1)
        ∧ (b = false → t.sec = s.sec)))
  ∧ (∀ (at_ : Nat) (s : State), hubRuns s = true →
      (s.io.epo.timing = some at_ → discTicks s false ≤ ticksSince s at_ → ∃ t, exec (.discrepancyFault false) s = .next t
        ∧ t.io.epo.fault = true ∧ t.io.epo.timing = none ∧ t.io.epoLatched = true ∧ bitAt (hget t dualPage).irqStat 9 = true
        ∧ rget t dualPage Reg.dualIn.EPO_DFAULTS = min 65535 (rget s dualPage Reg.dualIn.EPO_DFAULTS + 1))
      ∧ (s.io.tamp.timing = some at_ → discTicks s true ≤ ticksSince s at_ → ∃ t, exec (.discrepancyFault true) s = .next t
        ∧ t.io.tamp.fault = true ∧ t.io.tamp.timing = none ∧ tampersFor s t 1
        ∧ bitAt (rget t tamperPage Reg.tamper.MON_STAT) 1 = true
        ∧ rget t dualPage Reg.dualIn.TAMP_DFAULTS = min 65535 (rget s dualPage Reg.dualIn.TAMP_DFAULTS + 1)))
  ∧ ∀ (b : Bool) (s : State), s.pw.mode = .dry → wakeEn s 4 = true → insideWindow s false = true → s.io.epo.accepted ≠ b →
      ∃ t, exec (.epoAccept b) s = .next t ∧ wakesBy s t 4 ∧ t.io.epo.accepted = b

/-- EPO_RESET, DISC_CLEAR and ALERT_HOLD_EXPIRE (R532, R533, R536): EPO_LATCHED falls only with both EPO wires inactive and no fault; a
discrepancy fault clears only once its pair is ready; ALERT_N is low while a masked source stands and for at least 10 ms. -/
def Rules.LatchesAndAlertAreReleased : Prop :=
  (∀ (r : Req) (s : State), accepts s dualPage 1 r = true →
      let ok := r.arg = 0#32 ∧ s.io.epo.a = false ∧ s.io.epo.b = false ∧ s.io.epo.fault = false
      (ok → ∃ t, exec (.epoReset r) s = .next t ∧ endsWith s t dualPage 1 r 0x0000 ∧ t.io.epoLatched = false ∧ t.io.epo = s.io.epo)
      ∧ (¬ ok → ∃ t, exec (.epoReset r) s = .next t ∧ endsWith s t dualPage 1 r 0x0100 ∧ t.io = s.io))
  ∧ (∀ (r : Req) (s : State), accepts s dualPage 2 r = true →
      let a := r.arg.toNat
      let ok := a < 4 ∧ (a % 2 = 1 → s.io.epo.ready = true) ∧ (2 ≤ a → s.io.tamp.ready = true)
      (ok → ∃ t, exec (.discClear r) s = .next t ∧ endsWith s t dualPage 2 r 0x0000
          ∧ t.io.epo = (if a % 2 = 1 then { s.io.epo with fault := false, ready := false } else s.io.epo)
          ∧ t.io.tamp = (if 2 ≤ a then { s.io.tamp with fault := false, ready := false } else s.io.tamp)
          ∧ t.io.epoLatched = s.io.epoLatched
          ∧ bitAt (rget t tamperPage Reg.tamper.MON_STAT) 1 = (t.io.tamp.accepted || t.io.tamp.fault))
      ∧ (¬ ok → ∃ t, exec (.discClear r) s = .next t ∧ endsWith s t dualPage 2 r 0x0100 ∧ t.io = s.io))
  ∧ ∀ s : State,
      let stands := alertSrc s &&& rget s dualPage Reg.dualIn.ALERT_MASK ≠ 0
      (stands → ∃ t, exec .alertHoldExpire s = .next t ∧ t.io.alertLow = true)
      ∧ (¬ stands → s.io.alertAt + 10000000 ≤ s.ck.dt → ∃ t, exec .alertHoldExpire s = .next t ∧ t.io.alertLow = false)
      ∧ (¬ stands → s.ck.dt < s.io.alertAt + 10000000 → exec .alertHoldExpire s = .next s)

/-- The lands (R624, R625): every signal of the site and control field has its land, and no two lands of the grid carry one signal
or one wire of a lane or channel. -/
def Rules.LandsCarryOneSignalEach : Prop :=
  siteSignals.length = 80 ∧ siteSignals.Nodup
  ∧ (∀ k < 80, landAt (5 + k / 24) (k % 24 + 1) = .site k)
  ∧ ∀ r c r' c' : Nat, 1 ≤ r → r ≤ 72 → 1 ≤ c → c ≤ 72 → 1 ≤ r' → r' ≤ 72 → 1 ≤ c' → c' ≤ 72 → landAt r c = landAt r' c' →
      landAt r c = .gnd ∨ landAt r c = .unconnected ∨ landAt r c = .v48In ∨ (r = r' ∧ c = c')

/-! ### The site channel and the Castle table (chapter 19) -/

/-- A cause of R565 arises: it is latched, and the hub has castled; a hub that had not counts it and leaves LIVE. -/
def castlesFor (s t : State) (bit : Nat) : Prop :=
  bitAt (siteReg t Reg.siteChannel.CAUSE_LATCH) bit = true ∧ castled t = true
  ∧ (castled s = false → siteReg t Reg.siteChannel.CASTLES = min 65535 (siteReg s Reg.siteChannel.CASTLES + 1) ∧ siteState t ≠ 3)

/-- Stage `st` of frame `f` completes now inside its window, or its window is settled already (R554). -/
def inWindow (s : State) (f : PipeFrame) (st : Nat) : Prop :=
  st ∈ f.settled ∨ (winOpen s f st ≤ s.ck.dt ∧ s.ck.dt < winClose s f st)

/-- CSI_FRAME_START, TEST_PATTERN_INJECT, FRAME_TIMEOUT, PREPROCESS_WRITE and STAGE_WINDOW_CLOSE (R547, R548, R550, R554): a good frame
enters the pipeline under the next number, and one that starts at or after the close of its window finds the window's frame error
made; a frame error is counted and castles; the test lines are compared; the input block
goes to both reserved cores, which start; a window that closes without its event castles. -/
def Rules.FramesPassThePipeline : Prop :=
  (∀ s : State, pipeRuns s = true → takesWork s sitePage = false → ∀ f, exec (.csiFrameStart f) s = .next s)
  ∧ (∀ s : State, (frameLate s = false → frameTimeout s = s) ∧ (frameLate s = true → castlesFor s (frameTimeout s) 3))
  ∧ (∀ (f : CamFrame) (s : State), pipeRuns s = true → takesWork s sitePage = true →
      let u := frameTimeout s
      let n := (siteReg s Reg.siteChannel.FRAMES + 1) % 2 ^ 32
      (camBad u f = false → ∃ t x, exec (.csiFrameStart f) s = .next t ∧ siteReg t Reg.siteChannel.FRAMES = n
        ∧ t.sc.pipe = s.sc.pipe ++ [x] ∧ x.num = n ∧ x.origin = s.ck.dt ∧ x.clean = !watchedBad s ∧ x.pre = none ∧ x.settled = []
        ∧ x.lines = f.lines.map (·.map (· % (if rget s sitePage Reg.siteChannel.RAW16 = 1 then 2 ^ 16 else 2 ^ 14)))
        ∧ t.sc.lastCounter = some f.counter.toNat ∧ castled t = castled u)
      ∧ (camBad u f = true → ∃ t, exec (.csiFrameStart f) s = .next t ∧ siteReg t Reg.siteChannel.FRAMES = n
        ∧ t.sc.pipe = s.sc.pipe ∧ siteReg t Reg.siteChannel.CLEAN = 0
        ∧ siteReg t Reg.siteChannel.FRAME_ERRS = min 65535 (siteReg u Reg.siteChannel.FRAME_ERRS + 1) ∧ castlesFor u t 3))
  ∧ (∀ (lines : List (List Nat)) (f : PipeFrame) (s : State), s.sc.pipe.find? (fun f => !f.inject) = some f →
      ∃ t, exec (.testPatternInject lines) s = .next t
        ∧ (∀ g ∈ t.sc.pipe, g.num = f.num → g.inject = true ∧ g.bad = decide (lines ≠ testLines s f.num))
        ∧ (inWindow s f 0 → castled t = castled s)
        ∧ (¬ inWindow s f 0 → castlesFor s t 5))
  ∧ (∀ (at_ : Nat) (s : State), pipeRuns s = true → s.sc.lastOrigin = some at_ → s.sc.timeoutSeen = false →
      at_ + 1000000 * siteReg s Reg.siteChannel.FRAME_TIMEOUT ≤ s.ck.dt →
      ∃ t, exec .frameTimeout s = .next t ∧ t.sc.timeoutSeen = true ∧ castlesFor s t 3
        ∧ siteReg t Reg.siteChannel.FRAME_ERRS = min 65535 (siteReg s Reg.siteChannel.FRAME_ERRS + 1))
  ∧ (∀ (f : PipeFrame) (s : State), pipeRuns s = true → preNext s.sc.pipe = some f →
      let u := ageSources s
      (f.bad = true → ∃ t, exec .preprocessWrite s = .next t ∧ (∀ g ∈ t.sc.pipe, g.num ≠ f.num) ∧ castlesFor u t 3)
      ∧ (f.bad = false → memoriesWf s →
        let a := 16 * siteReg s Reg.siteChannel.IN_BASE
        let bs := (inputBlock u f).take (coreSize - a)
        ∃ t, exec .preprocessWrite s = .next t
          ∧ (∀ i < bs.length, Mem.read 0x00 t.co.sram (coreAt 0 (a + i)) = bs.getD i 0
              ∧ Mem.read 0x00 t.co.sram (coreAt 96 (a + i)) = bs.getD i 0)
          ∧ rget t (seqPage 0) Reg.sequencer.STATE = 1 ∧ rget t (seqPage 96) Reg.sequencer.STATE = 1
          ∧ (∀ g ∈ t.sc.pipe, g.num = f.num → g.pre = some s.ck.dt) ∧ (inWindow s f 1 → castled t = castled u)))
  ∧ ∀ (st : Fin 6) (f : PipeFrame) (s : State), pipeRuns s = true → s.sc.pipe = [f] → st.val ∉ f.settled →
      winClose s f st.val ≤ s.ck.dt →
      ∃ t g, exec (.stageWindowClose st) s = .next t ∧ t.sc.pipe = [g] ∧ g.num = f.num ∧ st.val ∈ g.settled ∧ g.clean = false
        ∧ siteReg t Reg.siteChannel.WINDOW_ERRS = min 65535 (siteReg s Reg.siteChannel.WINDOW_ERRS + 1) ∧ castlesFor s t 5

/-- TELEMETRY_RX and SOURCE_AGE_EXPIRE (R551–R553): a frame finds every source that has aged by its stamp failed; it is its source's by port and key; one that fails a test makes the source
not OK with the cause, and castles where the source says so; a repeat is counted; a good frame's data and stamp are taken.
A source without a fresh frame in AGE_MS fails with AGE. -/
def Rules.TelemetryIsCheckedEndToEnd : Prop :=
  let fails := fun (s t : State) (i cause : Nat) => siteReg t Reg.siteChannel.SRC_OK i = 0
    ∧ siteReg t Reg.siteChannel.LAST_FAIL i = cause ∧ bitAt (hget t sitePage).irqStat 10 = true
    ∧ (if cause = 4 then (srcRun t i).aged else (srcRun t i).failed) = true
    ∧ (rget s sitePage Reg.siteChannel.CASTLE_ON_FAIL i = 1 → castlesFor s t 4)
  (∀ s : State, (∀ i : Fin 32, sourceAged s i.val = false) → ageSources s = s)
  ∧ (∀ (port : Fin 13) (k0 : Word) (bs : List Byte) (s : State), hubRuns s = true → scEnabled s = true →
      let u := ageSources s
      let mine := (List.range 32).find? fun i =>
        decide (siteReg s Reg.siteChannel.SRC_VALID i = 1 ∧ siteReg s Reg.siteChannel.SRC_PORT i = port.val
          ∧ siteReg s Reg.siteChannel.SRC_KEYV i = k0.toNat % 2 ^ 30)
      let go := fun t => exec (.telemetryRx port k0 bs) s = .next t
      (mine = none → ∃ t, go t ∧ siteReg t Reg.siteChannel.UNMATCHED = min 65535 (siteReg s Reg.siteChannel.UNMATCHED + 1)
        ∧ t.sc = u.sc)
      ∧ ∀ i, mine = some i →
        let r := srcRun u i
        let d := (beNat (sliceB bs 0 2) + 2 ^ 16 - r.counter) % 2 ^ 16
        let late := 2 ^ 31 ≤ (beNat (sliceB bs 2 4) + 2 ^ 32 - r.time) % 2 ^ 32
        let taken := fun (t : State) => (srcRun t i).data = bs ∧ (srcRun t i).stamp = s.ck.dt ∧ (srcRun t i).seen = true
          ∧ (srcRun t i).counter = beNat (sliceB bs 0 2) ∧ (srcRun t i).time = beNat (sliceB bs 2 4)
        (e2eGood s i bs = false → ∃ t, go t ∧ fails u t i 1 ∧ (srcRun t i).data = r.data)
        ∧ (e2eGood s i bs = true → r.seen = false → ∃ t, go t ∧ taken t
            ∧ siteReg t Reg.siteChannel.SRC_OK i = siteReg u Reg.siteChannel.SRC_OK i)
        ∧ (e2eGood s i bs = true → r.seen = true → d = 0 → ∃ t, go t ∧ t.sc = u.sc
            ∧ siteReg t Reg.siteChannel.REPEATS = min 65535 (siteReg s Reg.siteChannel.REPEATS + 1))
        ∧ (e2eGood s i bs = true → r.seen = true → d ≠ 0 → late → ∃ t, go t ∧ fails u t i 2 ∧ (srcRun t i).data = r.data)
        ∧ (e2eGood s i bs = true → r.seen = true → d ≠ 0 → ¬ late → siteReg s Reg.siteChannel.MAX_DELTA i < d →
            ∃ t, go t ∧ fails u t i 3 ∧ (srcRun t i).data = bs)
        ∧ (e2eGood s i bs = true → r.seen = true → d ≠ 0 → ¬ late → d ≤ siteReg s Reg.siteChannel.MAX_DELTA i →
            (r.failed = false → r.aged = false →
              ∃ t, go t ∧ taken t ∧ siteReg t Reg.siteChannel.SRC_OK i = siteReg u Reg.siteChannel.SRC_OK i)
            ∧ (r.failed = false → r.aged = true → d = 1 → ∃ t, go t ∧ taken t ∧ siteReg t Reg.siteChannel.SRC_OK i = 1)
            ∧ (r.failed = true → r.aged = false → r.begun = true → r.good = 1 →
              ∃ t, go t ∧ taken t ∧ siteReg t Reg.siteChannel.SRC_OK i = 1)))
  ∧ ∀ (i : Fin 32) (s : State), scEnabled s = true → siteReg s Reg.siteChannel.SRC_VALID i.val = 1 → (srcRun s i.val).seen = true →
      (srcRun s i.val).aged = false →
      (srcRun s i.val).stamp + 1000000 * siteReg s Reg.siteChannel.AGE_MS i.val ≤ s.ck.dt →
      ∃ t, exec (.sourceAgeExpire i) s = .next t ∧ fails s t i.val 4

/-- COMPARE, PUBLISH and RESULT_AGE_EXPIRE (R557, R559, R560, R565, R566): actions that differ, or that the rules forbid, castle, and the
frame is gone; agreed actions in LIVE are applied, in SHADOW shown only, and take the outputs back from the table when the
conditions for uncastling hold; a result that grows too old castles, and a frame published at or after that close, or after that of a
source's age, finds the castling made. -/
def Rules.ActionsAreComparedAndPublished : Prop :=
  (∀ (f : PipeFrame) (s : State), s.sc.pipe.find? (fun f => f.endA && f.endB && f.action.isNone) = some f →
      let at_ := 16 * siteReg s Reg.siteChannel.OUT_BASE
      let a := coreRead s 0 at_ 64
      let b := coreRead s 96 at_ 64
      let gone := fun (t : State) => ∀ g ∈ t.sc.pipe, g.num ≠ f.num
      (a.2 = [] → b.2 = [] → a.1 ≠ b.1 → ∃ t, exec .compare s = .next t ∧ gone t ∧ castlesFor s t 6
        ∧ siteReg t Reg.siteChannel.MISMATCHES = min 65535 (siteReg s Reg.siteChannel.MISMATCHES + 1))
      ∧ (a.2 = [] → b.2 = [] → a.1 = b.1 → actionGood s f.num a.1 = false →
          ∃ t, exec .compare s = .next t ∧ gone t ∧ castlesFor s t 7)
      ∧ (a.2 = [] → b.2 = [] → a.1 = b.1 → actionGood s f.num a.1 = true →
          ∃ t, exec .compare s = .next t ∧ (∀ g ∈ t.sc.pipe, g.num = f.num → g.action = some a.1)
            ∧ (inWindow s f 4 → castled t = castled s))
      ∧ ((a.2 ≠ [] ∨ b.2 ≠ []) → siteState s ≠ 0 →
          ∃ t, exec .compare s = .next t ∧ t.sc.pipe = [] ∧ siteState t = 1 ∧ castlesFor s t 8))
  ∧ (∀ s : State, (∀ i : Fin 32, sourceAged s i.val = false) → resultAged s = false →
      ageResult (if scEnabled s then ageSources s else s) = s)
  ∧ (∀ (f : PipeFrame) (b : List Byte) (s0 : State), s0.sc.pipe.find? (fun f => f.action.isSome) = some f → f.action = some b →
      inWindow s0 f 5 →
      let s := ageResult (if scEnabled s0 then ageSources s0 else s0)
      let w := fun i n => leNat (sliceB b i n)
      let gone := fun (t : State) => ∀ g ∈ t.sc.pipe, g.num ≠ f.num
      let applied := fun (t : State) => t.sc.inForce = some f.origin
        ∧ (w 4 4 = 0xFFFFFFFF → rget t weirPage Reg.weir.SC_CAP_VALID = 0)
        ∧ (w 4 4 ≠ 0xFFFFFFFF → rget t weirPage Reg.weir.SC_CAP_VALID = 1 ∧ rget t weirPage Reg.weir.SC_CAP = w 4 4 % 2 ^ 31)
      (siteState s = 3 → ∃ t, exec .publish s0 = .next t ∧ gone t ∧ applied t ∧ siteState t = 3)
      ∧ (siteState s ≠ 3 → siteReg s Reg.siteChannel.AUTO_UNCASTLE = 0 → s.sc.armed = false →
          ∃ t, exec .publish s0 = .next t ∧ gone t ∧ (∀ i : Fin 8, siteReg t Reg.siteChannel.SHADOW_ACTIONS i.val = w (4 * i.val) 4)
            ∧ siteState t = siteState s ∧ castled t = castled s ∧ t.sc.inForce = s.sc.inForce
            ∧ rget t weirPage Reg.weir.SC_CAP = rget s weirPage Reg.weir.SC_CAP)
      ∧ (siteState s = 2 → s.sc.pipe.find? (·.num == f.num) = some f → f.clean = true → watchedBad s = false →
          powerCondition s = false → maintCondition s = false → scEnabled s = true → s.sc.armed = true →
          siteReg s Reg.siteChannel.CLEAN < 255 → siteReg s Reg.siteChannel.UNCASTLE_FRAMES ≤ siteReg s Reg.siteChannel.CLEAN + 1 →
          s.sc.castledAt + 1000000 * siteReg s Reg.siteChannel.CASTLE_MIN ≤ s.ck.dt →
          ∃ t, exec .publish s0 = .next t ∧ gone t ∧ applied t ∧ siteState t = 3 ∧ castled t = false))
  ∧ ∀ (at_ : Nat) (s : State), siteState s = 3 → s.sc.inForce = some at_ →
      at_ + 1000000 * siteReg s Reg.siteChannel.AGE_LIMIT ≤ s.ck.dt → ∃ t, exec .resultAgeExpire s = .next t ∧ castlesFor s t 9

/-- CASTLE_EVALUATE and CASTLE_PS_INJECT (R561–R563): once in each millisecond every VALID rule takes one step of its debounce, and
the table's outputs are shown, in force while the hub is castled; while castled, the table's power-state frame goes out once
in each PS_PERIOD. -/
def Rules.TheTableEvaluatesAndInjects : Prop :=
  (∀ s : State, protRuns s = true → duePeriod 1000000 s.sc.lastEval s = true →
      let u := if scEnabled s then ageSources s else s
      ∃ t, exec .castleEvaluate s = .next t ∧ t.sc.lastEval = some s.ck.dt
        ∧ rget t castlePage Reg.castle.CAP_OUT = tableCap t % 2 ^ 16
        ∧ (∀ n : Fin 8, bitAt (rget t castlePage Reg.castle.AUX_OUT) n.val = tableAux t n.val)
        ∧ (castled u = true → rget t weirPage Reg.weir.SC_CAP_VALID = 1 ∧ rget t weirPage Reg.weir.SC_CAP = tableCap t % 2 ^ 31)
        ∧ ∀ r : Fin 64,
            let was := Assoc.getD s.sc.rules r.val (false, 0)
            let valid := bitAt (ruleWord s r.val 0) 11 = true
            (¬ valid → ruleActive t r.val = false)
            ∧ (valid → ruleCondition u r.val = was.1 → ruleActive t r.val = was.1)
            ∧ (valid → ruleCondition u r.val ≠ was.1 → bitsOf (ruleWord s r.val 0) 16 8 ≤ was.2 → ruleActive t r.val = !was.1)
            ∧ (valid → ruleCondition u r.val ≠ was.1 → was.2 < bitsOf (ruleWord s r.val 0) 16 8 → ruleActive t r.val = was.1))
  ∧ ∀ s : State, protRuns s = true → castled s = true → rget s castlePage Reg.castle.PS_PERIOD ≠ 0 → psDue s = true →
      ∃ t, exec .castlePsInject s = .next t ∧ t.sc.lastPs = some s.ck.dt
        ∧ t = gwInject 10 1 (psPayload 0 (rget s castlePage Reg.castle.PS_HOLD) (rget s castlePage Reg.castle.CAP_OUT)
            (rget s castlePage Reg.castle.PS_MASK)) { s with sc := { s.sc with lastPs := some s.ck.dt } }

/-- SITE_LOAD, CASTLE, UNCASTLE and SC_RELOAD (R543–R545, R565, R566, R568): the reserved cores get the images of the newest valid
record and the pipeline runs in SHADOW, without one the hub castles; CASTLE castles; UNCASTLE is accepted in SHADOW while
castled; SC_RELOAD castles and goes back to LOADING, or ends with AUTH_FAIL. -/
def Rules.TheSiteChannelLoadsAndCastles : Prop :=
  (∀ s : State, siteState s = 1 → siteDiesUp s = true → siteGrants s = true →
      (∀ a, siteRecord s = some a → memoriesWf s →
        let base := a + 64 + 8 * recField s a 0x10 4
        let na := recField s a 0x14 4
        ∃ t, exec .siteLoad s = .next t ∧ siteState t = 2 ∧ t.sc.loadedA = true ∧ t.sc.loadedB = true
          ∧ t.sc.streamA = recField s a 0x1C 4 ∧ t.sc.streamB = recField s a 0x20 4
          ∧ (s.sc.loadedA = false → ∀ i < coreSize, Mem.read 0x00 t.co.sram (coreAt 0 i)
              = if i < na then Mem.read 0xFF s.bt.flash (base + i) else 0x00)
          ∧ (s.sc.loadedB = false → ∀ i < coreSize, Mem.read 0x00 t.co.sram (coreAt 96 i)
              = if i < recField s a 0x18 4 then Mem.read 0xFF s.bt.flash (base + na + i) else 0x00)
          ∧ ∀ c, (hget s sitePage).cmd = some c → c.opcode = 3 → c.final = none →
              (hget t sitePage).cmd = some { c with final := some 0x0000 })
      ∧ (siteRecord s = none → bitAt (siteReg s Reg.siteChannel.CAUSE_LATCH) 2 = false →
        ∃ t, exec .siteLoad s = .next t ∧ castlesFor s t 2 ∧ siteState t = 1
          ∧ ∀ c, (hget s sitePage).cmd = some c → c.opcode = 3 → c.final = none →
              (hget t sitePage).cmd = some { c with final := some 0x0109 }))
  ∧ (∀ (r : Req) (s : State), accepts s sitePage 1 r = true →
      ∃ t, exec (.castle r) s = .next t ∧ endsWith s t sitePage 1 r 0x0000 ∧ castlesFor s t 0
        ∧ (castled s = false → siteReg t Reg.siteChannel.LAST_CAUSE = 0 ∧ t.sc.castledAt = s.ck.dt ∧ t.sc.inForce = none))
  ∧ (∀ (r : Req) (s : State), accepts s sitePage 2 r = true →
      (castled s = true → siteState s = 2 → ∃ t, exec (.uncastle r) s = .next t ∧ endsWith s t sitePage 2 r 0x0000
        ∧ t.sc = { s.sc with armed := true })
      ∧ ((castled s = false ∨ siteState s ≠ 2) → ∃ t, exec (.uncastle r) s = .next t ∧ endsWith s t sitePage 2 r 0x0100
        ∧ t.sc = s.sc))
  ∧ ∀ (r : Req) (s : State), accepts s sitePage 3 r = true →
      (∀ a, siteRecord s = some a → siteState s ≠ 0 → ∃ t, exec (.scReload r) s = .next t
        ∧ castled t = true
        ∧ siteState t = 1 ∧ t.sc.loadedA = false ∧ t.sc.loadedB = false ∧ t.sc.pipe = []
        ∧ (hget t sitePage).cmd = some (cmdOf s 3 r))
      ∧ (siteRecord s = none → ∃ t, exec (.scReload r) s = .next t ∧ castlesFor s t 0 ∧ endsWith s t sitePage 3 r 0x0109)

/-! ### Fuses, keys and tamper (chapter 20) -/

/-- FUSE_PROGRAM (R570, R571, R597): the staged bits of a programmable field are blown in the bank; a value that would clear a bit, a
field that COMMISSIONED closes, an SVN floor above the running image, a tampered device or a low supply is BAD_ARG. -/
def Rules.FusesAreProgrammedByTheRules : Prop :=
  ∀ (r : Req) (s : State), accepts s fusePage 1 r = true →
    let code := r.arg.toNat
    let v := fuseStaged s code
    let bad := fuseWidth code = 0 ∨ fuseGet s.fuse code ||| v ≠ v ∨ (code ∈ [2, 3, 4, 5, 6, 11] ∧ s.fuse.commission = 1)
      ∨ (code = 9 ∧ rget s bootPage Reg.boot.FW_SVN < (bitsSet 128 v).length) ∨ tampered s = true ∨ v48 s < 4000
    (bad → ∃ t, exec (.fuseProgram r) s = .next t ∧ endsWith s t fusePage 1 r 0x0100 ∧ t.fuse = s.fuse)
    ∧ (¬ bad → ∃ t, exec (.fuseProgram r) s = .next t ∧ endsWith s t fusePage 1 r 0x0000 ∧ fuseGet t.fuse code = v
        ∧ (∀ k, k ≠ code → fuseGet t.fuse k = fuseGet s.fuse k) ∧ t.fuse.epoch = s.fuse.epoch ∧ t.fuseOn = s.fuseOn
        ∧ s.jr.nextSeq ∈ t.jr.committed)

/-- Slot `n` holds a new key (R576, R585): VALID under the staged attributes with its origin and the next generation; a persistent
key's commit word names the other cell, and the old cell still stands. -/
def keyPlaced (s t : State) (n attr origin : Nat) : Prop :=
  (ksGet t n).st = .valid ∧ (ksGet t n).attr = putBits attr 14 2 origin ∧ (ksGet t n).gen = ((ksGet s n).gen + 1) % 2 ^ 30
  ∧ (attrPersist attr = true → commitGet t n = commitWord true (((ksGet s n).gen + 1) % 2 ^ 30) (1 - commitGet s n % 2)
      ∧ cellGet t n (commitGet s n % 2) = cellGet s n (commitGet s n % 2))
  ∧ ∀ m, m ≠ n → (ksGet t m).st = (ksGet s m).st ∧ (ksGet t m).key = (ksGet s m).key ∧ (ksGet t m).attr = (ksGet s m).attr

/-- No key changes. -/
def keysStand (s t : State) : Prop :=
  ∀ m, (ksGet t m).st = (ksGet s m).st ∧ (ksGet t m).key = (ksGet s m).key ∧ (ksGet t m).gen = (ksGet s m).gen
    ∧ commitGet t m = commitGet s m

/-- KEY_GEN, KEY_IMPORT, KEY_DERIVE, KEY_AGREE and KEY_DELETE (R576, R581–R585, R588, R597, R602): each writes its one slot with its
origin when its slots, attributes and buffer allow it, and otherwise ends with BAD_ARG, NO_GRANT, AUTH_FAIL or FAULTED and no
key changed; KEY_DELETE empties a slot under the next generation. -/
def Rules.KeysAreMadeAndDeleted : Prop :=
  ∀ (r : Req) (s : State),
    let a := stagedAttr s r.client
    let n := argS r
    (accepts s keyPage 1 r = true →
      let bad := writeBarred s = true ∨ attrOk a = false ∨ r.arg.toNat ≠ n + (argReplace r).toNat * 2 ^ 15
        ∨ mayPlace s n (argReplace r) = false
      (bad → ∃ t, exec (.keyGen r) s = .next t ∧ endsWith s t keyPage 1 r 0x0100 ∧ keysStand s t)
      ∧ (¬ bad → typePk (attrType a) = true → grantOk s keyPage = false →
          ∃ t, exec (.keyGen r) s = .next t ∧ endsWith s t keyPage 1 r 0x0101 ∧ keysStand s t)
      ∧ (¬ bad → (typePk (attrType a) = true → grantOk s keyPage = true) → entropyBad s = true →
          ∃ t, exec (.keyGen r) s = .next t ∧ endsWith s t keyPage 1 r 0x010C ∧ keysStand s t)
      ∧ (¬ bad → (typePk (attrType a) = true → grantOk s keyPage = true) → entropyBad s = false →
          ∃ t, exec (.keyGen r) s = .next t ∧ endsWith s t keyPage 1 r 0x0000 ∧ keyPlaced s t n a 0
            ∧ (ksGet t n).key.length = keyLen (attrType a)))
    ∧ (accepts s keyPage 2 r = true → writeBarred s = false → r.arg.toNat = n + (argReplace r).toNat * 2 ^ 15 →
        mayPlace s n (argReplace r) = true →
      let b := bufBytes s r.client 116
      let w := blobField b 0x0C 1
      let attr := blobField b 8 4
      (transportGood s b = false → ∃ t, exec (.keyImport r) s = .next t ∧ endsWith s t keyPage 2 r 0x0109 ∧ keysStand s t)
      ∧ (transportGood s b = true → wrapOk s r.client w = false →
          ∃ t, exec (.keyImport r) s = .next t ∧ endsWith s t keyPage 2 r 0x0100 ∧ keysStand s t)
      ∧ (transportGood s b = true → wrapOk s r.client w = true → blobOpen (ksGet s w).key b = none →
          ∃ t, exec (.keyImport r) s = .next t ∧ endsWith s t keyPage 2 r 0x0109 ∧ keysStand s t)
      ∧ (∀ k, transportGood s b = true → wrapOk s r.client w = true → blobOpen (ksGet s w).key b = some k →
          (∀ x ∈ k.drop (keyLen (attrType attr)), x = 0) → entropyBad s = false →
          ∃ t, exec (.keyImport r) s = .next t ∧ endsWith s t keyPage 2 r 0x0000 ∧ keyPlaced s t n attr 1
            ∧ (ksGet t n).key = k.take (keyLen (attrType attr))))
    ∧ (∀ lc, accepts s keyPage 4 r = true → labelContext (bufBytes s r.client 512) 0 = some lc →
      let bad := writeBarred s = true ∨ r.arg.toNat ≠ n + argT r * 2 ^ 8 ∨ slotUsable s r.client n = false ∨ slotBit s n 8 = false
        ∨ derivedOk a = false
      (bad → ∃ t, exec (.keyDerive r) s = .next t ∧ endsWith s t keyPage 4 r 0x0100 ∧ keysStand s t)
      ∧ (¬ bad → entropyBad s = false → ∃ t, exec (.keyDerive r) s = .next t ∧ endsWith s t keyPage 4 r 0x0000
          ∧ keyPlaced s t (argT r) a 2
          ∧ (ksGet t (argT r)).key = Crypto.kdf (ksGet s n).key lc.1 lc.2 (8 * keyLen (attrType a))))
    ∧ (∀ lc, accepts s keyPage 5 r = true → labelContext (bufBytes s r.client 512) 96 = some lc →
      let bad := writeBarred s = true ∨ r.arg.toNat ≠ n + argT r * 2 ^ 8 ∨ slotUsable s r.client n = false
        ∨ attrType (ksGet s n).attr ≠ 4 ∨ derivedOk a = false
      let shared := Crypto.p384Shared (scalar (ksGet s n).key) ((bufBytes s r.client 512).take 96)
      (bad → ∃ t, exec (.keyAgree r) s = .next t ∧ endsWith s t keyPage 5 r 0x0100 ∧ keysStand s t)
      ∧ (¬ bad → grantOk s keyPage = false → ∃ t, exec (.keyAgree r) s = .next t ∧ endsWith s t keyPage 5 r 0x0101 ∧ keysStand s t)
      ∧ (¬ bad → grantOk s keyPage = true → shared = none →
          ∃ t, exec (.keyAgree r) s = .next t ∧ endsWith s t keyPage 5 r 0x0100 ∧ keysStand s t)
      ∧ (∀ z, ¬ bad → grantOk s keyPage = true → shared = some z → entropyBad s = false →
          ∃ t, exec (.keyAgree r) s = .next t ∧ endsWith s t keyPage 5 r 0x0000 ∧ keyPlaced s t (argT r) a 3
            ∧ (ksGet t (argT r)).key = Crypto.kdf z lc.1 lc.2 (8 * keyLen (attrType a))))
    ∧ (accepts s keyPage 6 r = true →
      (r.arg.toNat = n → ∃ t, exec (.keyDelete r) s = .next t ∧ endsWith s t keyPage 6 r 0x0000
          ∧ (ksGet t n).st = .empty ∧ (ksGet t n).key = [] ∧ (ksGet t n).gen = ((ksGet s n).gen + 1) % 2 ^ 30
          ∧ (attrPersist (ksGet s n).attr = true →
              commitGet t n = commitWord false (((ksGet s n).gen + 1) % 2 ^ 30) (commitGet s n % 2))
          ∧ ∀ m, m ≠ n → ksGet t m = ksGet s m)
      ∧ (r.arg.toNat ≠ n → ∃ t, exec (.keyDelete r) s = .next t ∧ endsWith s t keyPage 6 r 0x0100 ∧ keysStand s t))

/-- KEY_EXPORT, ATTEST, CHALLENGE and GET_PUB (R583, R589–R591, R602): the buffer of the client holds the blob, the signed statement,
the response or the public key from byte 0, the slot's USES rises, and no key changes; a slot that may not be so used is
BAD_ARG. -/
def Rules.KeysAreUsedIntoTheBuffer : Prop :=
  ∀ (r : Req) (s : State),
    let n := argS r
    let w := argT r
    let c := r.client
    let holds := fun (t : State) (b : List Byte) => bufBytes t c b.length = b ∧ keysStand s t
    (accepts s keyPage 3 r = true →
      let bad := r.arg.toNat ≠ n + w * 2 ^ 8 ∨ slotUsable s c n = false ∨ attrExport (ksGet s n).attr = false ∨ wrapOk s c w = false
      (bad → ∃ t, exec (.keyExport r) s = .next t ∧ endsWith s t keyPage 3 r 0x0100 ∧ t.rf = s.rf ∧ t.sec = s.sec)
      ∧ (¬ bad → entropyBad s = true → ∃ t, exec (.keyExport r) s = .next t ∧ endsWith s t keyPage 3 r 0x010C ∧ t.sec = s.sec)
      ∧ (¬ bad → entropyBad s = false → ∃ t iv, exec (.keyExport r) s = .next t ∧ endsWith s t keyPage 3 r 0x0000
          ∧ iv.length = 12 ∧ holds t (blobSeal (ksGet s w).key
              (blobHead 1 (ksGet s n).attr w (ksGet s n).gen 0 (targetBytes s c) iv) (ksGet s n).key iv)))
    ∧ (accepts s keyPage 7 r = true →
      (bitAt r.arg.toNat 8 = true → r.arg.toNat = n + 256 → grantOk s keyPage = true → entropyBad s = false →
          ∃ t k, exec (.attest r) s = .next t ∧ endsWith s t keyPage 7 r 0x0000
            ∧ holds t (statement s (bufBytes s c 32) none
                ++ Crypto.ecdsaSign (attestKey s) (Crypto.sha384 (statement s (bufBytes s c 32) none)) k))
      ∧ (r.arg.toNat = n → (slotUsable s c n = false ∨ attrOrigin (ksGet s n).attr = 1 ∨ attrExport (ksGet s n).attr = true) →
          ∃ t, exec (.attest r) s = .next t ∧ endsWith s t keyPage 7 r 0x0100 ∧ t.rf = s.rf ∧ t.sec = s.sec)
      ∧ (r.arg.toNat = n → slotUsable s c n = true → attrOrigin (ksGet s n).attr ≠ 1 → attrExport (ksGet s n).attr = false →
          (grantOk s keyPage = false → ∃ t, exec (.attest r) s = .next t ∧ endsWith s t keyPage 7 r 0x0101 ∧ t.sec = s.sec)
          ∧ (grantOk s keyPage = true → entropyBad s = false → ∃ t k, exec (.attest r) s = .next t ∧ endsWith s t keyPage 7 r 0x0000
              ∧ holds t (statement s (bufBytes s c 32) (some n)
                  ++ Crypto.ecdsaSign (attestKey s) (Crypto.sha384 (statement s (bufBytes s c 32) (some n))) k)
              ∧ (ksGet t n).uses = min 4294967295 ((ksGet s n).uses + 1))))
    ∧ (accepts s keyPage 8 r = true →
      let ok := r.arg.toNat = n ∧ slotUsable s c n = true ∧ ksHas s n 2 11 = true
      (¬ ok → ∃ t, exec (.challenge r) s = .next t ∧ endsWith s t keyPage 8 r 0x0100 ∧ t.rf = s.rf ∧ t.sec = s.sec)
      ∧ (ok → ∃ t, exec (.challenge r) s = .next t ∧ endsWith s t keyPage 8 r 0x0000
          ∧ holds t (Crypto.hmac384 (ksGet s n).key (challengeBytes s n (bufBytes s c 32)))
          ∧ (ksGet t n).uses = min 4294967295 ((ksGet s n).uses + 1)))
    ∧ (accepts s keyPage 11 r = true →
      let ok := r.arg.toNat = n ∧ slotUsable s c n = true ∧ typePk (attrType (ksGet s n).attr) = true
      (¬ ok → ∃ t, exec (.getPub r) s = .next t ∧ endsWith s t keyPage 11 r 0x0100 ∧ t.rf = s.rf ∧ t.sec = s.sec)
      ∧ (ok → grantOk s keyPage = false → ∃ t, exec (.getPub r) s = .next t ∧ endsWith s t keyPage 11 r 0x0101 ∧ t.sec = s.sec)
      ∧ (ok → grantOk s keyPage = true → ∃ t, exec (.getPub r) s = .next t ∧ endsWith s t keyPage 11 r 0x0000
          ∧ holds t (Crypto.p384Public (scalar (ksGet s n).key))
          ∧ (ksGet t n).uses = min 4294967295 ((ksGet s n).uses + 1)))

/-- TAMPER_MONITOR_TRIP, BIST_RUN, ZEROIZE, TAMPER_CLEAR, EPOCH_ADVANCE, KEY_COPY_OVERWRITE, ENTROPY_FAIL and ENTROPY_RECOVER (R588,
R592–R600, R602): each monitor is a tamper of its cause, two failed tests in a row are cause 6, ZEROIZE is cause 8; the epoch
advances by one bit, and the stored copies are zeroed; TAMPER_CLEAR loads the wiped slots again from their good copies. -/
def Rules.TampersWipeAdvanceAndClear : Prop :=
  (∀ (m : Monitor) (s : State),
      (hubRuns s = true → ∃ t, exec (.tamperMonitorTrip m) s = .next t ∧ tampersFor s t (monCause m)
        ∧ bitAt (rget t tamperPage Reg.tamper.MON_STAT) (monCause m) = true)
      ∧ (s.pw.mode = .dry → ∃ t, exec (.tamperMonitorTrip m) s = .next t ∧ tampersFor s t (monCause m) ∧ wakesBy s t 5)
      ∧ (hubRuns s = true → bistDue s m = true →
          let before := (bistGet s m).elim 0 (·.2)
          (∃ t, exec (.bistRun m true false) s = .next t ∧ bistGet t m = some (s.ck.dt, 0)
            ∧ bitAt (rget t tamperPage Reg.tamper.MON_STAT) (monCause m) = false ∧ tampered t = tampered s)
          ∧ (∃ t, exec (.bistRun m true true) s = .next t ∧ tampersFor s t (monCause m))
          ∧ (before = 0 → ∃ t, exec (.bistRun m false false) s = .next t ∧ bistGet t m = some (s.ck.dt, 1)
            ∧ rget t tamperPage Reg.tamper.BIST_FAILS = min 65535 (rget s tamperPage Reg.tamper.BIST_FAILS + 1)
            ∧ tampered t = tampered s)
          ∧ (before ≠ 0 → ∃ t, exec (.bistRun m false false) s = .next t ∧ tampersFor s t 6
            ∧ rget t tamperPage Reg.tamper.BIST_FAILS = min 65535 (rget s tamperPage Reg.tamper.BIST_FAILS + 1))))
  ∧ (∀ (r : Req) (s : State), accepts s keyPage 9 r = true →
      let wiped := fun (t : State) => tampered t = true ∧ ∀ n, (ksGet t n).st ≠ .valid
      (r.arg.toNat = 0 → ∃ t, exec (.zeroize r) s = .next t ∧ endsWith s t keyPage 9 r 0x0000 ∧ wiped t ∧ t.fuse = s.fuse)
      ∧ (r.arg.toNat = 1 → ∃ t, exec (.zeroize r) s = .next t ∧ (hget t keyPage).cmd = some (cmdOf s 9 r) ∧ wiped t
          ∧ t.sec.advance = true ∧ t.sec.erase = true)
      ∧ (2 ≤ r.arg.toNat → ∃ t, exec (.zeroize r) s = .next t ∧ endsWith s t keyPage 9 r 0x0100 ∧ t.sec = s.sec))
  ∧ (∀ (r : Req) (s : State), accepts s keyPage 10 r = true →
      let ok := r.arg = 0#32 ∧ tamperQuiet s = true
      (¬ ok → ∃ t, exec (.tamperClear r) s = .next t ∧ endsWith s t keyPage 10 r 0x0100 ∧ t.sec = s.sec ∧ tampered t = tampered s)
      ∧ (ok → ∃ t, exec (.tamperClear r) s = .next t ∧ endsWith s t keyPage 10 r 0x0000 ∧ tampered t = false
          ∧ rget t tamperPage Reg.tamper.TAMPER_CAUSE = 0 ∧ t.sec.latch = none
          ∧ ∀ n attr key, bitAt (commitGet s n) 31 = true → (ksGet s n).st = .zeroized → cellTest s n = .good attr key →
              (ksGet t n).st = .valid ∧ (ksGet t n).key = key ∧ (ksGet t n).attr = attr))
  ∧ (∀ s : State, s.sec.advance = true → islandOn s = true → reservoirCharged s = true →
      ∃ t, exec .epochAdvance s = .next t ∧ t.sec.advance = false ∧ epochCount t = min 128 (epochCount s + 1)
        ∧ bitsKept s.fuse.epoch t.fuse.epoch
        ∧ ∀ c, (hget s keyPage).cmd = some c → c.opcode = 9 → c.final = none →
            (hget t keyPage).cmd = some { c with final := some 0x0000 })
  ∧ (∀ s : State, s.sec.erase = true → hubRuns s = true → s.ev.tamperQ = [] →
      ∃ t, exec .keyCopyOverwrite s = .next t ∧ t.sec.erase = false ∧ (∀ n, commitGet t n = 0)
        ∧ (∀ n c, cellGet t n c = List.replicate 128 0) ∧ t.sec.slots = s.sec.slots)
  ∧ ∀ s : State, islandOn s = true →
      (∀ p, ∃ t, exec (.entropyFail p) s = .next t ∧ rget t keyPage Reg.keyStore.ENTROPY_FAIL = 1 ∧ t.sec = s.sec)
      ∧ ∃ t, exec .entropyRecover s = .next t ∧ rget t keyPage Reg.keyStore.ENTROPY_FAIL = 0 ∧ t.sec = s.sec

/-! ### The event recorder (chapter 21) -/

/-- EVENT_RAISE (R608, R610, R611, R615, R616, R618): an event becomes one record with its severity, in the TAMPER queue or in the
intake queue, behind what the DRY buffer still holds; beyond its limit it is folded into its last record; in DRY it waits in the island's buffer, or is counted as
lost there. -/
def Rules.EventsBecomeRecords : Prop :=
  ∀ (e : Event) (s : State), knownCode e.code.toNat = true →
    let code := e.code.toNat
    let sev := severityOf code (hardCause e.detailA.toNat)
    let key := (code, e.die.toNat, e.inst.toNat)
    let is := fun (r : Rec) => r.code = code ∧ r.sev = sev ∧ r.die = e.die.toNat ∧ r.inst = e.inst.toNat ∧ r.a = e.detailA.toNat
      ∧ r.b = e.detailB.toNat ∧ r.repeats = 0 ∧ r.deferred = false ∧ r.limited = false
    let live := hubRuns s = true ∧ s.ev.dry = [] ∧ s.ev.dryLost = 0
    (hubRuns s = true → ∃ t, exec (.eventRaise e) s = .next t ∧ t.ev.dry = [] ∧ t.ev.dryLost = 0)
    ∧ (live → sev = 3 → s.ev.tamperQ.length < 8 →
        ∃ t r, exec (.eventRaise e) s = .next t ∧ t.ev.tamperQ = s.ev.tamperQ ++ [r] ∧ is r ∧ t.ev.intake = s.ev.intake)
    ∧ (live → sev ≠ 3 → Assoc.get s.ev.windows key = none → s.ev.intake.length < 64 →
        ∃ t r, exec (.eventRaise e) s = .next t ∧ r ∈ t.ev.intake ∧ is r ∧ t.ev.intake.length = s.ev.intake.length + 1
          ∧ (∀ x ∈ s.ev.intake, x ∈ t.ev.intake) ∧ t.rf = s.rf)
    ∧ (∀ w u, live → sev ≠ 3 → Assoc.get s.ev.windows key = some w → dieTime s e.die.toNat < w.opened + (limitOf s code).2 →
        (limitOf s code).1 ≤ w.count → w.last = some u → (∃ x ∈ s.ev.intake, x.uid = u) →
        ∃ t, exec (.eventRaise e) s = .next t ∧ t.rf = s.rf
          ∧ t.ev.intake = s.ev.intake.map fun r => if r.uid = u then foldRec r else r)
    ∧ (s.pw.mode = .dry → s.ev.dry.length < 16 →
        ∃ t r, exec (.eventRaise e) s = .next t ∧ t.ev.dry = s.ev.dry ++ [{ at_ := s.ck.dt, next := s.ck.dt + tickNs s, body := r }] ∧ is r ∧ t.ev.intake = s.ev.intake)
    ∧ (s.pw.mode = .dry → 16 ≤ s.ev.dry.length → (∀ x ∈ s.ev.dry, x.body.code ≠ code) →
        exec (.eventRaise e) s = .next { s with ev := { s.ev with dryLost := s.ev.dryLost + 1 } })

/-- EVENT_RECORD_WRITE, OP_SECONDS_CHECKPOINT and DRY_BUFFER_FLUSH (R606, R607, R609, R610, R613, R614, R618): the TAMPER queue is
written first; a record enters the running log under the next number with its CHECK, displacing a record no more severe when the
log is full, and the first-fault log while a slot is open to it; the DRY buffer goes to the recorder with DEFERRED set. -/
def Rules.RecordsEnterTheLogs : Prop :=
  (∀ (r : Rec) (s : State), mayWrite s = true →
      ((s.ev.tamperQ.head? = some r) ∨ (s.ev.tamperQ = [] ∧ s.ev.intake.head? = some r)) →
      let seqd := { r with stamp := s.ev.nextSeq, check := recCheck { r with stamp := s.ev.nextSeq } }
      let room := if r.sev = 3 then 4096 else 4032
      ∃ t, exec .eventRecordWrite s = .next t ∧ t.ev.nextSeq = s.ev.nextSeq + 1 ∧ t.ev.lastWrite = some s.ck.dt
        ∧ (s.ev.tamperQ ≠ [] → t.ev.tamperQ = s.ev.tamperQ.tail ∧ t.ev.intake = s.ev.intake)
        ∧ (s.ev.tamperQ = [] → t.ev.tamperQ = [] ∧ t.ev.intake = s.ev.intake.tail)
        ∧ (s.ev.ring.length < 16384 → t.ev.ring = s.ev.ring ++ [seqd])
        ∧ (16384 ≤ s.ev.ring.length → (∃ x ∈ s.ev.ring, x.sev ≤ r.sev) → t.ev.ring.length = s.ev.ring.length
            ∧ t.ev.ring.getLast? = some seqd
            ∧ rget t eventPage Reg.eventLog.OVERWRITES = min 4294967295 (rget s eventPage Reg.eventLog.OVERWRITES + 1))
        ∧ (16384 ≤ s.ev.ring.length → (∀ x ∈ s.ev.ring, r.sev < x.sev) → t.ev.ring = s.ev.ring
            ∧ rget t eventPage Reg.eventLog.LOST = min 4294967295 (rget s eventPage Reg.eventLog.LOST + 1))
        ∧ (rget s eventPage Reg.eventLog.FF_MIN_SEV ≤ r.sev → s.ev.ff.length < room → ∃ x, t.ev.ff = s.ev.ff ++ [x]
            ∧ x.stamp = s.ev.opSec % 2 ^ 32 + s.jr.cycles % 2 ^ 32 * 2 ^ 32 ∧ x.check = recCheck x ∧ x.code = r.code ∧ x.sev = r.sev)
        ∧ ((r.sev < rget s eventPage Reg.eventLog.FF_MIN_SEV ∨ room ≤ s.ev.ff.length) → t.ev.ff = s.ev.ff)
        ∧ (2 ≤ r.sev → bitAt (hget t eventPage).irqStat 8 = true))
  ∧ (∀ s : State, hubRuns s = true → s.ev.opSaved + 60 ≤ s.ev.opSec →
      exec .opSecondsCheckpoint s = .next { s with ev := { s.ev with opSaved := s.ev.opSec } })
  ∧ ∀ s : State, hubRuns s = true →
      (s.ev.dry = [] → s.ev.dryLost ≠ 0 → ∃ t, exec .dryBufferFlush s = .next t ∧ t.ev.dryLost = 0
        ∧ rget t eventPage Reg.eventLog.LOST = min 4294967295 (rget s eventPage Reg.eventLog.LOST + s.ev.dryLost))
      ∧ (∀ (at_ next : Nat) (r : Rec), s.ev.dry = [{ at_ := at_, next := next, body := r }] → s.ev.dryLost = 0 → r.sev ≠ 3 →
          Assoc.get s.ev.windows (r.code, r.die, r.inst) = none → s.ev.intake.length < 64 →
          ∃ t x, exec .dryBufferFlush s = .next t ∧ t.ev.dry = [] ∧ x ∈ t.ev.intake ∧ x.deferred = true ∧ x.code = r.code
            ∧ x.a = r.a ∧ t.ev.intake.length = s.ev.intake.length + 1)

/-- FF_FETCH, RL_FETCH and FF_CLEAR (R619, R620, R622): a fetch puts the record's eight words, with its check, into the buffer of the
reading client alone; a running-log fetch takes the held record with the smallest number from the one asked for on; FF_CLEAR empties
the first-fault log unless the device is tampered. -/
def Rules.LogsAreFetchedAndCleared : Prop :=
  let shows := fun (s t : State) (c : Client) (x : Option Rec) =>
    rgetC t c eventPage Reg.eventLog.RD_STAT = (match x with
      | some r => if r.check = recCheck r then 0 else 2
      | none => 1)
    ∧ (∀ i : Fin 8, rgetC t c eventPage Reg.eventLog.RD_W i.val = (match x with
      | some r => (recWords r).getD i.val 0
      | none => 0))
    ∧ (∀ (d : Client) (i : Fin 8), d.index ≠ c.index →
        rgetC t d eventPage Reg.eventLog.RD_W i.val = rgetC s d eventPage Reg.eventLog.RD_W i.val) ∧ t.ev = s.ev
  (∀ (c : Client) (v : Word) (s : State), reachesBlock s c eventPage = true →
      (∃ t, exec (.ffFetch c v) s = .next t ∧ shows s t c (s.ev.ff[v.toNat % 4096]?))
      ∧ ∃ t, exec (.rlFetch c v) s = .next t
          ∧ shows s t c (ringFrom s (v.toNat * 2 ^ 32 + rgetC s c eventPage Reg.eventLog.RD_RL_SEQ_LO)))
  ∧ (∀ (s : State) (n : Nat), (ringFrom s n = none ↔ ∀ x ∈ s.ev.ring, x.stamp < n)
      ∧ ∀ r, ringFrom s n = some r → r ∈ s.ev.ring ∧ n ≤ r.stamp ∧ ∀ x ∈ s.ev.ring, n ≤ x.stamp → r.stamp ≤ x.stamp)
  ∧ ∀ (r : Req) (s : State), accepts s eventPage 1 r = true →
      let ok := r.arg = 0#32 ∧ tampered s = false
      (ok → ∃ t, exec (.ffClear r) s = .next t ∧ endsWith s t eventPage 1 r 0x0000 ∧ t.ev.ff = [] ∧ t.ev.ring = s.ev.ring
          ∧ rget t eventPage Reg.eventLog.FF_FULL = 0 ∧ rget t eventPage Reg.eventLog.TFULL = 0)
      ∧ (¬ ok → ∃ t, exec (.ffClear r) s = .next t ∧ endsWith s t eventPage 1 r 0x0100 ∧ t.ev = s.ev)

/-! ### Frames: what the commands of a family leave as it was -/

/-- The registers of every page stand, for every client, but for those of these blocks. -/
def Rules.registersStand (bs : List Block) (s t : State) : Prop :=
  ∀ (p : Page) (f : Fld) (i : Nat), p.blk ∉ bs → rget t p f i = rget s p f i ∧ ∀ c : Client, rgetC t c p f i = rgetC s c p f i

/-- The rows of the header family that this frame covers. -/
def Rules.isHeaderRow : Instr → Bool
  | .quiesceReq .. | .irqStatClear .. | .pgErrClear .. | .lockSet .. => true
  | _ => false

/-- The rows of the journal family that this frame covers. -/
def Rules.isJournalRow : Instr → Bool
  | .commandComplete .. | .journalFetch .. => true
  | _ => false

/-- The rows of the log fetch family that this frame covers. -/
def Rules.isLogFetchRow : Instr → Bool
  | .ffFetch .. | .rlFetch .. => true
  | _ => false

/-- The rows of the supply family that this frame covers. -/
def Rules.isSupplyRow : Instr → Bool
  | .brownoutClear .. | .v48MinWrite .. | .dieActive .. | .dieUp .. => true
  | _ => false

/-- The rows of the clock family that this frame covers. -/
def Rules.isClockRow : Instr → Bool
  | .wakeOscCalibrate .. | .canActivityEdge .. | .listenWindowClose .. | .refclkCheck .. | .refclkRetry .. | .deviceTimeHandover ..
  | .synthRelock .. | .alarmWrite .. | .ptpSyncTx .. | .servoTimeout .. => true
  | _ => false

/-- Frames of chapters 2 to 5: commands on a header, the journal, the logs, the supply and the clocks: none of them
changes the parts of the state that are named here, nor a register of a page whose block is not listed (what each
changes, the statements of its chapter say). -/
def Obligations.HeaderAndClockCommandsLeaveTheRest : Prop :=
  (∀ (i : Instr) (s t : State), Rules.isHeaderRow i = true → exec i s = .next t →
      t.pending = s.pending ∧ t.dir = s.dir ∧ t.ctx = s.ctx ∧ t.jr = { s.jr with deferred := t.jr.deferred } ∧ t.pw = s.pw ∧ t.ck = s.ck ∧ t.bt = s.bt ∧ t.we = s.we
      ∧ t.en = s.en ∧ t.fq = s.fq ∧ t.fuse = s.fuse ∧ t.fuseOn = s.fuseOn ∧ t.views = s.views ∧ t.tenants = s.tenants ∧ t.shedPin = s.shedPin ∧ t.co = s.co
      ∧ t.sy = s.sy ∧ t.jb = s.jb ∧ t.hbm = s.hbm ∧ t.ner = s.ner ∧ t.io = s.io ∧ t.sc = s.sc ∧ t.gw = s.gw ∧ t.sb = s.sb
      ∧ t.sec = s.sec
      ∧ Rules.registersStand [.eventLog] s t)
  ∧ (∀ (i : Instr) (s t : State), Rules.isJournalRow i = true → exec i s = .next t →
      t.pending = s.pending ∧ t.dir = s.dir ∧ t.pw = s.pw ∧ t.ck = s.ck ∧ t.we = s.we ∧ t.en = s.en ∧ t.fq = s.fq ∧ t.fuse = s.fuse
      ∧ t.fuseOn = s.fuseOn ∧ t.views = s.views ∧ t.tenants = s.tenants ∧ t.shedPin = s.shedPin ∧ t.co = s.co ∧ t.sy = s.sy ∧ t.hbm = s.hbm ∧ t.ner = s.ner
      ∧ t.io = s.io ∧ t.sc = s.sc ∧ t.gw = s.gw ∧ t.sec = s.sec
      ∧ Rules.registersStand [.eventLog, .boot, .journal] s t)
  ∧ (∀ (i : Instr) (s t : State), Rules.isLogFetchRow i = true → exec i s = .next t →
      t.pending = s.pending ∧ t.dir = s.dir ∧ t.ctx = s.ctx ∧ t.jr = { s.jr with deferred := t.jr.deferred } ∧ t.pw = s.pw ∧ t.ck = s.ck ∧ t.bt = s.bt ∧ t.we = s.we
      ∧ t.en = s.en ∧ t.fq = s.fq ∧ t.fuse = s.fuse ∧ t.fuseOn = s.fuseOn ∧ t.views = s.views ∧ t.tenants = s.tenants ∧ t.shedPin = s.shedPin ∧ t.co = s.co
      ∧ t.sy = s.sy ∧ t.jb = s.jb ∧ t.hbm = s.hbm ∧ t.ner = s.ner ∧ t.io = s.io ∧ t.sc = s.sc ∧ t.gw = s.gw ∧ t.sb = s.sb
      ∧ t.sec = s.sec
      ∧ Rules.registersStand [.eventLog] s t)
  ∧ (∀ (i : Instr) (s t : State), Rules.isSupplyRow i = true → exec i s = .next t →
      t.pending = s.pending ∧ t.dir = s.dir ∧ t.ck = s.ck ∧ t.bt = s.bt ∧ t.en = s.en ∧ t.fuse = s.fuse ∧ t.fuseOn = s.fuseOn ∧ t.views = s.views
      ∧ t.tenants = s.tenants ∧ t.shedPin = s.shedPin ∧ t.co = s.co ∧ t.sy = s.sy ∧ t.hbm = s.hbm ∧ t.ner = s.ner ∧ t.sc = s.sc
      ∧ t.io = { s.io with alertLow := t.io.alertLow, alertAt := t.io.alertAt } ∧ t.gw = s.gw ∧ t.sec = s.sec
      ∧ Rules.registersStand [.powerState, .eventLog, .dieModel] s t)
  ∧ (∀ (i : Instr) (s t : State), Rules.isClockRow i = true → exec i s = .next t →
      t.pending = s.pending ∧ t.dir = s.dir ∧ t.ctx = s.ctx ∧ t.jr = { s.jr with deferred := t.jr.deferred } ∧ t.bt = s.bt
      ∧ t.we = { s.we with room := t.we.room, total := t.we.total } ∧ t.en = s.en ∧ t.fuse = s.fuse ∧ t.fuseOn = s.fuseOn ∧ t.views = s.views ∧ t.tenants = s.tenants ∧ t.shedPin = s.shedPin ∧ t.hbm = s.hbm ∧ t.ner = s.ner ∧ t.sc = s.sc ∧ t.gw = s.gw
      ∧ t.sb = s.sb ∧ t.sec = s.sec
      ∧ Rules.registersStand [.wake, .dieFreq, .sequencer, .eventLog, .time, .boot] s t)

/-- The rows of the image family that this frame covers. -/
def Rules.isImageRow : Instr → Bool
  | .fwUpdate .. | .fwInitTimeout .. | .fwConfirm .. | .fwReject .. | .flRead .. | .flErase ..
  | .flProgram .. | .flashBusyTimeout .. | .tapReset .. | .tapInstructionLoad .. | .deferredMarkerWrite .. => true
  | _ => false

/-- Frame of chapter 6: commands of the boot page, the boot flash and the TAP: none of them
changes the parts of the state that are named here, nor a register of a page whose block is not listed (what each
changes, the statements of its chapter say). -/
def Obligations.ImageCommandsLeaveTheRest : Prop :=
  (∀ (i : Instr) (s t : State), Rules.isImageRow i = true → exec i s = .next t →
      t.pending = s.pending ∧ t.dir = s.dir ∧ t.pw = s.pw ∧ t.ck = s.ck ∧ t.we = s.we ∧ t.en = s.en ∧ t.fq = s.fq ∧ t.fuse = s.fuse
      ∧ t.fuseOn = s.fuseOn ∧ t.views = s.views ∧ t.tenants = s.tenants ∧ t.shedPin = s.shedPin ∧ t.co = s.co ∧ t.sy = s.sy ∧ t.hbm = s.hbm ∧ t.ner = s.ner
      ∧ t.io = s.io ∧ t.sc = s.sc ∧ t.sec = s.sec
      ∧ Rules.registersStand [.eventLog, .boot, .gateway, .spiNor] s t)

/-- The rows of the Weir family that this frame covers; room for the site channel's page starts the channel, and stands by itself. -/
def Rules.isWeirRow : Instr → Bool
  | .rampRoomEnable p => decide (p.blk ≠ .siteChannel)
  | .grantEpoch .. | .creditRequest .. | .modelFault .. | .modelFaultClear .. | .arrayPowerGate .. | .retentionSlice ..
  | .quadrantWakeComplete .. | .shedAssert .. | .shedRelease .. | .shedMinExpire .. | .setHostCap .. => true
  | _ => false

/-- The rows of the energy record family that this frame covers. -/
def Rules.isEnergyRecordRow : Instr → Bool
  | .intervalRecordReady .. | .energyCheckpoint .. | .closeNow .. => true
  | _ => false

/-- The rows of the Spate family that this frame covers. -/
def Rules.isSpateRow : Instr → Bool
  | .spateEvaluate .. | .railSettled .. | .opHoursCheckpoint .. | .measOverdue .. | .ageingMeasureStart .. | .droopDetect ..
  | .droopRecover .. | .longDroop .. | .thermalStep .. | .thermalTrip .. | .tripClear .. | .derate ..
  | .spateHoldTemperature .. => true
  | _ => false

/-- Frames of chapters 7 to 9: the Weir, the energy records, the Spate and the heat path: none of them
changes the parts of the state that are named here, nor a register of a page whose block is not listed (what each
changes, the statements of its chapter say). -/
def Obligations.EnergyCommandsLeaveTheRest : Prop :=
  (∀ (i : Instr) (s t : State), Rules.isWeirRow i = true → exec i s = .next t →
      t.pending = s.pending ∧ t.dir = s.dir ∧ t.pw = s.pw ∧ t.bt = s.bt ∧ t.en = s.en ∧ t.fuse = s.fuse ∧ t.fuseOn = s.fuseOn ∧ t.views = s.views
      ∧ t.tenants = s.tenants ∧ t.co = s.co ∧ t.sy = s.sy ∧ t.hbm = s.hbm ∧ t.sc = s.sc ∧ t.gw = s.gw ∧ t.sec = s.sec
      ∧ Rules.registersStand [.aux, .dieFreq, .core, .weir, .arrayGroup, .eventLog, .nerius] s t)
  ∧ (∀ (p : Page) (s t : State), p.blk = .siteChannel → exec (.rampRoomEnable p) s = .next t →
      t.pending = s.pending ∧ t.dir = s.dir ∧ t.jr = s.jr ∧ t.pw = s.pw ∧ t.ck = s.ck ∧ t.bt = s.bt ∧ t.fuse = s.fuse
      ∧ t.fuseOn = s.fuseOn ∧ t.views = s.views ∧ t.tenants = s.tenants ∧ t.shedPin = s.shedPin ∧ t.hbm = s.hbm)
  ∧ (∀ (i : Instr) (s t : State), Rules.isEnergyRecordRow i = true → exec i s = .next t →
      t.pending = s.pending ∧ t.dir = s.dir ∧ t.pw = s.pw ∧ t.ck = s.ck ∧ t.bt = s.bt ∧ t.we = s.we ∧ t.fq = s.fq ∧ t.fuse = s.fuse
      ∧ t.fuseOn = s.fuseOn ∧ t.views = s.views ∧ t.tenants = s.tenants ∧ t.shedPin = s.shedPin ∧ t.co = s.co ∧ t.sy = s.sy ∧ t.jb = s.jb ∧ t.hbm = s.hbm
      ∧ t.ner = s.ner ∧ t.io = s.io ∧ t.sc = s.sc ∧ t.gw = s.gw ∧ t.sec = s.sec
      ∧ Rules.registersStand [.eventLog] s t)
  ∧ (∀ (i : Instr) (s t : State), Rules.isSpateRow i = true → exec i s = .next t →
      t.pending = s.pending ∧ t.dir = s.dir ∧ t.pw = s.pw ∧ t.ck = s.ck ∧ t.bt = s.bt ∧ t.fuse = s.fuse ∧ t.fuseOn = s.fuseOn ∧ t.views = s.views
      ∧ t.tenants = s.tenants ∧ t.shedPin = s.shedPin ∧ t.hbm = s.hbm ∧ t.sc = s.sc ∧ t.gw = s.gw ∧ t.sec = s.sec
      ∧ Rules.registersStand [.dieFreq, .sequencer, .eventLog, .aux, .weir, .heat, .core] s t)

/-- The rows of the sequencer family that this frame covers. -/
def Rules.isSequencerRow : Instr → Bool
  | .descriptorComplete .. | .wait .. | .loop .. => true
  | _ => false

/-- The rows of the slot family that this frame covers. -/
def Rules.isSlotRow : Instr → Bool
  | .bindSlot .. | .unbindSlot .. | .load .. | .restart .. | .jobFault .. | .patrolScrub ..
  | .hostGranulesWrite .. => true
  | _ => false

/-- The rows of the job family that this frame covers. -/
def Rules.isJobRow : Instr → Bool
  | .start .. | .cancel .. | .release .. | .autoRestart .. | .admissionDecide .. => true
  | _ => false

/-- Frames of chapters 10 to 13: the sequencer's own operations and the commands of jobs: none of them
changes the parts of the state that are named here, nor a register of a page whose block is not listed (what each
changes, the statements of its chapter say). -/
def Obligations.CoreAndJobCommandsLeaveTheRest : Prop :=
  (∀ (i : Instr) (s t : State), Rules.isSequencerRow i = true → exec i s = .next t →
      t.pending = s.pending ∧ t.out = s.out ∧ t.fresh = s.fresh ∧ t.dir = s.dir ∧ t.hdr = s.hdr ∧ t.ctx = s.ctx ∧ t.jr = s.jr ∧ t.pw = s.pw
      ∧ t.ck = s.ck ∧ t.bt = s.bt ∧ t.ev = s.ev ∧ t.we = s.we ∧ t.en = s.en ∧ t.fq = s.fq ∧ t.fuse = s.fuse ∧ t.fuseOn = s.fuseOn
      ∧ t.br = s.br ∧ t.views = s.views ∧ t.tenants = s.tenants ∧ t.shedPin = s.shedPin ∧ t.jb = s.jb ∧ t.hbm = s.hbm ∧ t.ner = s.ner ∧ t.io = s.io
      ∧ t.sc = s.sc ∧ t.gw = s.gw ∧ t.sb = s.sb ∧ t.sec = s.sec
      ∧ Rules.registersStand [.sequencer, .core] s t)
  ∧ (∀ (i : Instr) (s t : State), Rules.isSlotRow i = true → exec i s = .next t →
      t.pending = s.pending ∧ t.dir = s.dir ∧ t.pw = s.pw ∧ t.ck = s.ck ∧ t.bt = s.bt ∧ t.we = s.we ∧ t.fuse = s.fuse ∧ t.fuseOn = s.fuseOn
      ∧ t.tenants = s.tenants ∧ t.shedPin = s.shedPin ∧ t.io = s.io ∧ t.sc = s.sc ∧ t.gw = s.gw ∧ t.sec = s.sec
      ∧ Rules.registersStand [.eventLog, .core, .dieFreq, .sequencer, .stackCtrl, .dieModel] s t)
  ∧ (∀ (i : Instr) (s t : State), Rules.isJobRow i = true → exec i s = .next t →
      t.pending = s.pending ∧ t.dir = s.dir ∧ t.ck = s.ck ∧ t.bt = s.bt ∧ t.fuse = s.fuse ∧ t.fuseOn = s.fuseOn ∧ t.views = s.views ∧ t.shedPin = s.shedPin
      ∧ t.io = s.io ∧ t.sc = s.sc ∧ t.gw = s.gw ∧ t.sec = s.sec
      ∧ Rules.registersStand [.eventLog, .sequencer, .core, .dieFreq, .powerState, .admission, .stackCtrl] s t)

/-- The rows of the link family that this frame covers. -/
def Rules.isLinkRow : Instr → Bool
  | .restartResultTimeout .. | .ackTimeout .. | .creditSendTimer .. | .linkTrainingLost .. | .linkUp .. | .trainAttemptFail ..
  | .trainRetry .. => true
  | _ => false

/-- The rows of the bridge family that this frame covers. -/
def Rules.isBridgeRow : Instr → Bool
  | .bar2Write .. | .bar2Read .. | .unsupportedRequest .. | .winBaseWrite .. | .msixUnmask .. | .dmaCompletionTimeout ..
  | .vfFlr .. | .pf0Flr .. | .hostLinkReset .. | .pcieLinkUp .. | .pcieConfigWrite .. => true
  | _ => false

/-- The rows of the ingress family that this frame covers. -/
def Rules.isIngressRow : Instr → Bool
  | .canFrameRx .. | .ethFrameRx .. | .modbusAduRx .. | .rawUartRx .. | .pmbusPoll .. | .pmbusAlertRead ..
  | .canBusOffRecovery .. => true
  | _ => false

/-- The rows of the route family that this frame covers. -/
def Rules.isRouteRow : Instr → Bool
  | .routeSet .. | .routeGet .. | .rootSet .. | .gwSave .. => true
  | _ => false

/-- The rows of the site bus family that this frame covers. -/
def Rules.isSiteBusRow : Instr → Bool
  | .referenceTx .. | .refMissed .. | .masterListenExpire .. | .ownSlotTx .. | .powerStateRx .. | .psHoldExpire ..
  | .commandReply .. | .wakeFrameRx .. | .wakeAckTx .. | .wakeSend .. | .wakeSendRepeat .. | .wakeAckRx .. => true
  | _ => false

/-- Frames of chapters 14 to 17: the link's timers, the host bridge, the gateway and the site bus: none of them
changes the parts of the state that are named here, nor a register of a page whose block is not listed (what each
changes, the statements of its chapter say). -/
def Obligations.LinkAndGatewayCommandsLeaveTheRest : Prop :=
  (∀ (i : Instr) (s t : State), Rules.isLinkRow i = true → exec i s = .next t →
      t.pending = s.pending ∧ t.dir = s.dir ∧ t.ctx = s.ctx ∧ t.jr = s.jr ∧ t.pw = s.pw ∧ t.ck = s.ck ∧ t.bt = s.bt ∧ t.we = s.we
      ∧ t.fuse = s.fuse ∧ t.fuseOn = s.fuseOn ∧ t.views = s.views ∧ t.tenants = s.tenants ∧ t.shedPin = s.shedPin ∧ t.hbm = s.hbm ∧ t.io = s.io ∧ t.sc = s.sc
      ∧ t.gw = s.gw ∧ t.sb = s.sb ∧ t.sec = s.sec
      ∧ Rules.registersStand [.core, .dieFreq, .sequencer, .eventLog, .nerius] s t)
  ∧ (∀ (i : Instr) (s t : State), Rules.isBridgeRow i = true → exec i s = .next t →
      t.pending = s.pending ∧ t.dir = s.dir ∧ t.jr = { s.jr with deferred := t.jr.deferred, writing := t.jr.writing }
      ∧ t.pw = s.pw ∧ t.ck = s.ck ∧ t.bt = s.bt ∧ t.we = s.we ∧ t.en = { s.en with counted := t.en.counted } ∧ t.fq = s.fq ∧ t.fuse = s.fuse ∧ t.fuseOn = s.fuseOn ∧ t.views = s.views ∧ t.tenants = s.tenants ∧ t.shedPin = s.shedPin ∧ t.co = s.co ∧ t.sy = s.sy
      ∧ t.jb = s.jb ∧ t.ner = s.ner ∧ t.io = s.io ∧ t.sc = s.sc ∧ t.gw = s.gw ∧ t.sb = s.sb ∧ t.sec = s.sec
      ∧ Rules.registersStand [.stackCtrl, .bridge, .eventLog, .bridgeDma, .boot, .dieModel] s t)
  ∧ (∀ (i : Instr) (s t : State), Rules.isIngressRow i = true → exec i s = .next t →
      t.pending = s.pending ∧ t.dir = s.dir ∧ t.ctx = s.ctx ∧ t.jr = s.jr ∧ t.pw = s.pw ∧ t.ck = s.ck ∧ t.bt = s.bt ∧ t.we = s.we
      ∧ t.en = s.en ∧ t.fq = s.fq ∧ t.fuse = s.fuse ∧ t.fuseOn = s.fuseOn ∧ t.views = s.views ∧ t.tenants = s.tenants ∧ t.shedPin = s.shedPin ∧ t.co = s.co
      ∧ t.sy = s.sy ∧ t.jb = s.jb ∧ t.hbm = s.hbm ∧ t.ner = s.ner ∧ t.io = s.io ∧ t.sc = s.sc
      ∧ Rules.registersStand [.canPort, .ethPort, .uartPort, .pmbPort, .gateway, .eventLog] s t)
  ∧ (∀ (i : Instr) (s t : State), Rules.isRouteRow i = true → exec i s = .next t →
      t.pending = s.pending ∧ t.dir = s.dir ∧ t.pw = s.pw ∧ t.ck = s.ck ∧ t.we = s.we ∧ t.en = s.en ∧ t.fq = s.fq ∧ t.fuse = s.fuse
      ∧ t.fuseOn = s.fuseOn ∧ t.views = s.views ∧ t.tenants = s.tenants ∧ t.shedPin = s.shedPin ∧ t.co = s.co ∧ t.sy = s.sy ∧ t.jb = s.jb ∧ t.hbm = s.hbm
      ∧ t.ner = s.ner ∧ t.io = s.io ∧ t.sc = s.sc ∧ t.sec = s.sec
      ∧ Rules.registersStand [.eventLog, .gateway] s t)
  ∧ (∀ (i : Instr) (s t : State), Rules.isSiteBusRow i = true → exec i s = .next t →
      t.pending = s.pending ∧ t.dir = s.dir ∧ t.pw = s.pw ∧ t.ck = s.ck ∧ t.bt = s.bt ∧ t.en = s.en ∧ t.fq = s.fq ∧ t.fuse = s.fuse
      ∧ t.fuseOn = s.fuseOn ∧ t.views = s.views ∧ t.tenants = s.tenants ∧ t.shedPin = s.shedPin ∧ t.co = s.co ∧ t.sy = s.sy ∧ t.hbm = s.hbm ∧ t.ner = s.ner
      ∧ t.io = s.io ∧ t.sc = s.sc
      ∧ Rules.registersStand [.canPort, .ethPort, .uartPort, .pmbPort, .eventLog, .siteBus, .gateway, .weir] s t)

/-- The rows of the site I/O family that this frame covers. -/
def Rules.isSiteIORow : Instr → Bool
  | .auxSet .. | .auxClear .. | .inrushSettled .. | .inrushTimeout .. | .auxLimitEnter .. | .auxLimitingEnd ..
  | .auxOverload .. | .auxShort .. | .auxGrantExcess .. | .auxEscalate .. | .auxReleaseCheck .. | .dualChannelDisagree ..
  | .clearReady .. | .epoReset .. | .discClear .. | .alertHoldExpire .. => true
  | _ => false

/-- The rows of the site channel family that this frame covers. -/
def Rules.isSiteChannelRow : Instr → Bool
  | .csiFrameStart .. | .testPatternInject .. | .frameTimeout .. | .telemetryRx .. | .sourceAgeExpire .. | .stageWindowClose ..
  | .publish .. | .resultAgeExpire .. | .castleEvaluate .. | .castlePsInject .. | .castle .. | .uncastle .. => true
  | _ => false

/-- Frames of chapters 18 and 19: site I/O and the site channel: none of them
changes the parts of the state that are named here, nor a register of a page whose block is not listed (what each
changes, the statements of its chapter say). -/
def Obligations.SiteCommandsLeaveTheRest : Prop :=
  (∀ (i : Instr) (s t : State), Rules.isSiteIORow i = true → exec i s = .next t →
      t.pending = s.pending ∧ t.dir = s.dir ∧ t.pw = s.pw ∧ t.ck = s.ck ∧ t.bt = s.bt ∧ t.we = s.we ∧ t.en = s.en ∧ t.fq = s.fq
      ∧ t.fuse = s.fuse ∧ t.fuseOn = s.fuseOn ∧ t.views = s.views ∧ t.tenants = s.tenants ∧ t.shedPin = s.shedPin ∧ t.co = s.co ∧ t.sy = s.sy ∧ t.jb = s.jb
      ∧ t.hbm = s.hbm ∧ t.ner = s.ner ∧ t.sc = s.sc ∧ t.gw = s.gw ∧ t.sec = s.sec
      ∧ Rules.registersStand [.eventLog, .aux, .tamper] s t)
  ∧ (∀ (i : Instr) (s t : State), Rules.isSiteChannelRow i = true → exec i s = .next t →
      t.pending = s.pending ∧ t.dir = s.dir ∧ t.pw = s.pw ∧ t.ck = s.ck ∧ t.bt = s.bt ∧ t.en = s.en ∧ t.fq = s.fq ∧ t.fuse = s.fuse
      ∧ t.fuseOn = s.fuseOn ∧ t.views = s.views ∧ t.tenants = s.tenants ∧ t.shedPin = s.shedPin ∧ t.co = s.co ∧ t.sy = s.sy ∧ t.hbm = s.hbm ∧ t.ner = s.ner
      ∧ Rules.registersStand [.castle, .weir, .siteChannel, .canPort, .ethPort, .uartPort, .pmbPort, .gateway, .eventLog, .aux] s t)

/-- The rows of the key family that this frame covers. -/
def Rules.isKeyRow : Instr → Bool
  | .keyGen .. | .keyImport .. | .keyExport .. | .keyDerive .. | .keyAgree .. | .keyDelete ..
  | .attest .. | .challenge .. | .getPub .. | .zeroize .. | .tamperClear .. => true
  | _ => false

/-- The rows of the tamper response family that this frame covers. -/
def Rules.isTamperResponseRow : Instr → Bool
  | .epochAdvance .. | .keyCopyOverwrite .. | .entropyFail .. | .entropyRecover .. => true
  | _ => false

/-- The rows of the fuse family that this frame covers. -/
def Rules.isFuseRow : Instr → Bool
  | .fuseProgram .. => true
  | _ => false

/-- The rows of the event family that this frame covers. -/
def Rules.isEventRow : Instr → Bool
  | .eventRaise .. | .eventRecordWrite .. | .opSecondsCheckpoint .. | .dryBufferFlush .. | .ffClear .. => true
  | _ => false

/-- Frames of chapters 20 and 21: keys, the tamper response, the fuse bank and the event recorder: none of them
changes the parts of the state that are named here, nor a register of a page whose block is not listed (what each
changes, the statements of its chapter say). -/
def Obligations.KeyAndEventCommandsLeaveTheRest : Prop :=
  (∀ (i : Instr) (s t : State), Rules.isKeyRow i = true → exec i s = .next t →
      t.pending = s.pending ∧ t.dir = s.dir ∧ t.pw = s.pw ∧ t.ck = s.ck ∧ t.bt = s.bt ∧ t.we = s.we ∧ t.en = s.en ∧ t.fq = s.fq
      ∧ t.fuse = s.fuse ∧ t.fuseOn = s.fuseOn ∧ t.views = s.views ∧ t.tenants = s.tenants ∧ t.shedPin = s.shedPin ∧ t.co = s.co ∧ t.sy = s.sy ∧ t.jb = s.jb
      ∧ t.hbm = s.hbm ∧ t.ner = s.ner ∧ t.io = s.io ∧ t.sc = s.sc ∧ t.gw = s.gw
      ∧ Rules.registersStand [.eventLog, .keyStore, .tamper] s t)
  ∧ (∀ (i : Instr) (s t : State), Rules.isTamperResponseRow i = true → exec i s = .next t →
      t.pending = s.pending ∧ t.out = s.out ∧ t.dir = s.dir ∧ t.ctx = s.ctx ∧ t.jr = s.jr ∧ t.pw = s.pw ∧ t.ck = s.ck ∧ t.bt = s.bt
      ∧ t.we = s.we ∧ t.en = s.en ∧ t.fq = s.fq ∧ t.fuseOn = s.fuseOn ∧ t.br = s.br ∧ t.views = s.views ∧ t.tenants = s.tenants ∧ t.shedPin = s.shedPin
      ∧ t.co = s.co ∧ t.sy = s.sy ∧ t.jb = s.jb ∧ t.hbm = s.hbm ∧ t.ner = s.ner ∧ t.io = s.io ∧ t.sc = s.sc ∧ t.gw = s.gw
      ∧ t.sb = s.sb
      ∧ Rules.registersStand [.keyStore, .eventLog] s t)
  ∧ (∀ (i : Instr) (s t : State), Rules.isFuseRow i = true → exec i s = .next t →
      t.pending = s.pending ∧ t.dir = s.dir ∧ t.pw = s.pw ∧ t.ck = s.ck ∧ t.bt = s.bt ∧ t.we = s.we ∧ t.en = s.en ∧ t.fq = s.fq
      ∧ t.fuseOn = s.fuseOn ∧ t.views = s.views ∧ t.tenants = s.tenants ∧ t.shedPin = s.shedPin ∧ t.co = s.co ∧ t.sy = s.sy ∧ t.jb = s.jb ∧ t.hbm = s.hbm
      ∧ t.ner = s.ner ∧ t.io = s.io ∧ t.sc = s.sc ∧ t.gw = s.gw ∧ t.sec = s.sec
      ∧ Rules.registersStand [.eventLog] s t)
  ∧ (∀ (i : Instr) (s t : State), Rules.isEventRow i = true → exec i s = .next t →
      t.pending = s.pending ∧ t.dir = s.dir ∧ t.pw = s.pw ∧ t.ck = s.ck ∧ t.bt = s.bt ∧ t.we = s.we ∧ t.en = s.en ∧ t.fq = s.fq
      ∧ t.fuse = s.fuse ∧ t.fuseOn = s.fuseOn ∧ t.views = s.views ∧ t.tenants = s.tenants ∧ t.shedPin = s.shedPin ∧ t.co = s.co ∧ t.sy = s.sy ∧ t.jb = s.jb
      ∧ t.hbm = s.hbm ∧ t.ner = s.ner ∧ t.io = s.io ∧ t.sc = s.sc ∧ t.gw = s.gw ∧ t.sec = s.sec
      ∧ Rules.registersStand [.eventLog] s t)

/-! ### Completions that stand by themselves -/

/-- COMMAND_ACCEPT_DEFERRED and JOURNAL_FETCH (R72, R81, R94): the oldest waiting PG_CMD write is accepted once 10 µs have passed, its
entry takes the next number and its own effect follows, shown whole for FF_CLEAR; one that the gate refuses ends with its code;
a fetch of a held entry shows the entry and VALID, one of a number not yet drawn NOT_YET, and one of a number gone GONE. -/
def Rules.WaitingCommandsAndFetchesComplete : Prop :=
  (∀ (w : Waiting) (op : Nat) (r : Req) (host : HostCpl) (data : List Byte) (s : State), s.jr.deferred = [w] →
      w.act = .cmd op r host data → hubRuns s = true → tooSoon s = false → s.jr.writing = none →
      let s0 := { s with jr := { s.jr with deferred := [] } }
      (gate s w.page r.client op = none → jRetry s r.client.index (addrOf s w.page 0x030) r.tag.toNat = none →
        foreignSlot s r.client w.page = false →
        ∃ t, exec .commandAcceptDeferred s = .next t ∧ t = effectOf w.page op r host data (accepted s0 w.page op r)
          ∧ (w.page = eventPage → op = 1 → r.arg = 0#32 → tampered s = false →
              t.ev.ff = [] ∧ t.ev.ring = s.ev.ring ∧ t.jr.deferred = [] ∧ t.jr.nextSeq = s.jr.nextSeq + 1
                ∧ jEntry t s.jr.nextSeq = some (entryOf s w.page op r) ∧ endsWith s t eventPage 1 r 0x0000))
      ∧ (∀ code, gate s w.page r.client op = some code →
        ∃ t, exec .commandAcceptDeferred s = .next t ∧ t.jr = s0.jr ∧ (hget t w.page).errCode = code
          ∧ (cget t w.page r.client).result = code + 65536 * ((cget s w.page r.client).result / 65536)))
  ∧ ∀ (c : Client) (hi : Word) (s : State), reachesBlock s c journalPage = true →
      let q := hi.toNat % 2 ^ 15 * 2 ^ 32 + rgetC s c journalPage Reg.journal.RD_SEQ_LO
      let shows := fun (stat : Nat) (ws : List Nat) => ∃ t, exec (.journalFetch c hi) s = .next t ∧ t.jr = s.jr
        ∧ rgetC t c journalPage Reg.journal.RD_STAT = stat ∧ ∀ i : Fin 8, rgetC t c journalPage Reg.journal.RD_W i.val = ws.getD i.val 0
      (∀ e, jEntry s q = some e → e.kind ≠ .void → 0 < q → jOldest s ≤ q → q < s.jr.nextSeq → s.jr.writing ≠ some q →
          (∀ x ∈ entryWords e, x < 2 ^ 32) → shows 0 (entryWords e))
      ∧ (s.jr.nextSeq ≤ q → shows 2 [])
      ∧ (q < s.jr.nextSeq → (q < jOldest s ∨ q = 0) → shows 1 [])

/-- SITE_BUS_COMMAND and MGMT_COMMAND (R508, R509): a frame or datagram that is in order, and whose command the page accepts, queues a
reply and does what the command does, shown whole for ROOT_SET; a frame that is not the module's authentic command does
nothing. -/
def Rules.RemoteCommandsComplete : Prop :=
  let does := fun (s t : State) (r : Req) (via : Option (Nat × (Nat × Nat))) =>
    rget t gwPage Reg.gateway.ROOT (r.arg.toNat % 16) = r.arg.toNat / 16
      ∧ (hget t gwPage).cmd = some { cmdOf s 3 r with final := some 0x0000 }
      ∧ ∃ x ∈ t.sb.replies, x.page = gwPage ∧ x.tag = r.tag.toNat ∧ x.via = via ∧ x.seq = some s.jr.nextSeq
  (∀ (f : CanFrame) (auth : Bool) (key : Fin 128) (s : State), gwActive s = true → serviceUp s = true →
      let w := fun i => beNat (sliceB f.payload i 4)
      let r : Req := { client := .siteBus, source := .canFd, arg := BitVec.ofNat 32 (w 12), tag := BitVec.ofNat 32 (w 16) }
      (siteCommandOk s (canK0 f) auth key.val f.payload = false →
        ∃ t, exec (.siteBusCommand f auth key) s = .next t ∧ t = s)
      ∧ (siteCommandOk s (canK0 f) auth key.val f.payload = true → jcPage s (w 4) = some (.page gwPage) → w 8 = 3 →
          r.arg.toNat < 2 ^ 19 → r.arg.toNat % 16 ≤ 12 → accepts s gwPage 3 r = true → s.sb.replies = [] →
          ∃ t, exec (.siteBusCommand f auth key) s = .next t ∧ does s t r none ∧ t.gw = s.gw))
  ∧ ∀ (mac : BitVec 48) (ip : Word) (port : BitVec 16) (b : List Byte) (s : State), portActive s 4 = true → serviceUp s = true →
      ipAddr s ≠ 0 → mgmtUdp s ≠ 0 →
      let w := fun i n => beNat (sliceB b i n)
      let r : Req := { client := .siteBus, source := .mgmtEthernet, arg := BitVec.ofNat 32 (w 12 4), tag := BitVec.ofNat 32 (w 16 4) }
      (mgmtReject s b ≠ none → ∃ t, exec (.mgmtCommand mac ip port b) s = .next t ∧ t.sb = s.sb
        ∧ rget t ethPage Reg.ethPort.MGMT_REJECTED = min 65535 (rget s ethPage Reg.ethPort.MGMT_REJECTED + 1))
      ∧ (mgmtReject s b = none → jcPage s (w 4 4) = some (.page gwPage) → w 8 4 = 3 →
          r.arg.toNat < 2 ^ 19 → r.arg.toNat % 16 ≤ 12 → accepts s gwPage 3 r = true → s.sb.replies = [] →
          ∃ t, exec (.mgmtCommand mac ip port b) s = .next t
            ∧ does s t r (some (mac.toNat, (ip.toNat, port.toNat))) ∧ t.gw = s.gw)

/-- AUX_SET, AUX_CLEAR and the nine commands of the aux channels' own currents and allotment (R516–R524, R537): where the channel is in
the state that the rule names, the command takes it to the next one; the rest of the table of channels stands. -/
def Rules.AuxFormsComplete : Prop :=
  (∀ (n : Fin 8) (r : Req) (s : State), accepts s auxPage 1 r = true → r.arg.toNat = 2 ^ n.val →
      auxSetBad s n.val false = false → chState s n.val ≠ 6 →
      ∃ t, exec (.auxSet r) s = .next t ∧ endsWith s t auxPage 1 r 0x0000 ∧ demanded t n.val = false ∧ chState t n.val = 0
        ∧ ∀ m : Fin 8, m ≠ n → demanded t m.val = demanded s m.val ∧ chState t m.val = chState s m.val)
  ∧ (∀ (n : Fin 8) (r : Req) (s : State), accepts s auxPage 1 r = true → r.arg.toNat = 2 ^ n.val + 2 ^ (8 + n.val) →
      auxSetBad s n.val true = false → auxFits s (maskOf 8 fun m => m == n.val || demanded s m) = true →
      ∃ t, exec (.auxSet r) s = .next t ∧ endsWith s t auxPage 1 r 0x0000 ∧ demanded t n.val = true
        ∧ ∀ m : Fin 8, m ≠ n → demanded t m.val = demanded s m.val ∧ chState t m.val = chState s m.val)
  ∧ (∀ (n : Fin 8) (r : Req) (s : State), accepts s auxPage 2 r = true → r.arg.toNat = 2 ^ n.val → chState s n.val = 6 →
      ∃ t, exec (.auxClear r) s = .next t ∧ endsWith s t auxPage 2 r 0x0000 ∧ demanded t n.val = false ∧ chState t n.val = 0
        ∧ ∀ m : Fin 8, m ≠ n → demanded t m.val = demanded s m.val ∧ chState t m.val = chState s m.val)
  ∧ (∀ (n : Fin 8) (i : Nat) (s : State),
      let goes := fun (c : Instr) (x : Nat) => ∃ t, exec c s = .next t ∧ chState t n.val = x ∧ t.hdr = s.hdr
        ∧ ∀ m : Fin 8, m ≠ n → chState t m.val = chState s m.val ∧ chNow t m.val = chNow s m.val
      let fails := fun (c : Instr) (cause : Nat) => ∃ t, exec c s = .next t ∧ chState t n.val = 6
        ∧ rget t auxPage Reg.aux.CAUSE n.val = cause
        ∧ ∀ m : Fin 8, m ≠ n → chState t m.val = chState s m.val ∧ chNow t m.val = chNow s m.val
      let inrush := rget s auxPage Reg.aux.INRUSH_MS n.val
      (chState s n.val = 1 → 1000000 ≤ inrushNs s n.val → goes (.inrushSettled n) 3)
      ∧ (chState s n.val = 1 → 1000000 * inrush ≤ inrushNs s n.val → i ≤ chSteady s n.val → goes (.inrushTimeout n i) 3)
      ∧ (chState s n.val = 3 → chSteady s n.val < i → goes (.auxLimitEnter n i) 4)
      ∧ (chState s n.val = 4 → i ≤ chSteady s n.val → goes (.auxLimitingEnd n i) 3)
      ∧ (chState s n.val = 4 → (auxRun s n.val).since + 10000000 ≤ s.ck.dt → fails (.auxOverload n) 3)
      ∧ (chState s n.val ≠ 0 → chState s n.val ≠ 6 → chShort s n.val ≤ i → fails (.auxShort n i) 1))
  ∧ ∀ (is : List Nat) (s : State),
      let s1 := setCurrents is s
      (∃ t, exec (.auxGrantExcess is) s = .next t
        ∧ ∀ n : Fin 8, chNow t n.val = chNow s1 n.val
          ∧ chState t n.val = if auxOver s1 = true ∧ chState s n.val = 1 then 2 else chState s n.val)
      ∧ (∀ at_, auxOver s1 = true → s.io.excess = some at_ → at_ + 500 ≤ s.ck.dt →
          ∃ t, exec (.auxEscalate is) s = .next t ∧ (∀ n : Fin 8, chNow t n.val = chNow s1 n.val)
            ∧ ∀ n, (offOrder s1 4 ++ offOrder s1 3 ++ offOrder s1 2).head? = some n → chState t n = 5)
      ∧ (∀ n, duePeriod 1000 s.io.relAt s = true → auxOver s1 = false →
          ((onOrder s1 2).find? fun n => decide (chInrush s n - chHold s n ≤ auxGrant s - auxSum s1)) = some n →
          ∃ t, exec (.auxReleaseCheck is) s = .next t ∧ chState t n = 1 ∧ t.io.relAt = some s.ck.dt
            ∧ ∀ m : Fin 8, m.val ≠ n → chState t m.val = chState s m.val)

/-! ### The statements of several parts -/

/-- Commands on a page's life: the statements `EnableDisableQuiesceTakeEffect`, `DrainRunsItsPhases`, `ResetRunsItsPhases` and `DrainAbortsTheExecutingCommand` above. -/
def Obligations.PagesLiveTheirCycle : Prop :=
  Rules.EnableDisableQuiesceTakeEffect ∧ Rules.DrainRunsItsPhases ∧ Rules.ResetRunsItsPhases ∧ Rules.DrainAbortsTheExecutingCommand

/-- Commands on the common header: the statements `HeaderWritesChangeTheirFieldAlone` and `AllotmentsAreRequestedAndGranted` above. -/
def Obligations.HeadersAreWrittenAndGranted : Prop :=
  Rules.HeaderWritesChangeTheirFieldAlone ∧ Rules.AllotmentsAreRequestedAndGranted

/-- Register access: the statements `RegisterWriteTakesItsWord`, `RegisterWriteStoresFields`, `BroadcastWriteReachesTwelveDies` and `CounterLowReadLatchesHighWord` above. -/
def Obligations.RegistersAreReadAndWritten : Prop :=
  Rules.RegisterWriteTakesItsWord ∧ Rules.RegisterWriteStoresFields ∧ Rules.BroadcastWriteReachesTwelveDies ∧ Rules.CounterLowReadLatchesHighWord

/-- PG_CMD and the journal: the statements `AcceptedCommandsBeginInJournal`, `RefusedCommandWritesNoEntry`, `CommandsCompleteAndDeferredOnesPass` and `JournalFetchFillsTheReadBuffer` above. -/
def Obligations.CommandsAreJournaledAndComplete : Prop :=
  Rules.AcceptedCommandsBeginInJournal ∧ Rules.RefusedCommandWritesNoEntry ∧ Rules.CommandsCompleteAndDeferredOnesPass ∧ Rules.JournalFetchFillsTheReadBuffer

/-- The supply: the statements `BrownoutHoldsGrantsAndFalls`, `SupplyLossAndCommandEnterDry` and `StageFaultDegrades` above. -/
def Obligations.SupplyConditionsAreAnswered : Prop :=
  Rules.BrownoutHoldsGrantsAndFalls ∧ Rules.SupplyLossAndCommandEnterDry ∧ Rules.StageFaultDegrades

/-- Power states and dies: the statements `ColdStartAndSupplyQualification`, `DieUpRaisesDiesInOrder` and `DieDownTakesCoreDomainsDown` above. -/
def Obligations.PowerComesAndGoes : Prop :=
  Rules.ColdStartAndSupplyQualification ∧ Rules.DieUpRaisesDiesInOrder ∧ Rules.DieDownTakesCoreDomainsDown

/-- Wake sources and listening windows: the statements `SourcesWakeFromDry`, `FailureAndAlarmWhileHubRuns` and `ListenWindowsOpenAndClose` above. -/
def Obligations.WakeSourcesAct : Prop :=
  Rules.SourcesWakeFromDry ∧ Rules.FailureAndAlarmWhileHubRuns ∧ Rules.ListenWindowsOpenAndClose

/-- The reference clock and device time: the statements `RefclkIsTriedThreeTimes`, `DeviceTimeAdvancesAndHandsOver` and `SixtyFourTicksAreExact` above. -/
def Obligations.DeviceTimeIsKept : Prop :=
  Rules.RefclkIsTriedThreeTimes ∧ Rules.DeviceTimeAdvancesAndHandsOver ∧ Rules.SixtyFourTicksAreExact

/-- Wall time, alarm and PTP: the statements `WallSetLoadsStagedValue`, `AlarmHighWriteSetsAlarm` and `PtpExchangesAndServoTimeout` above. -/
def Obligations.WallTimeAndAlarmAreSet : Prop :=
  Rules.WallSetLoadsStagedValue ∧ Rules.AlarmHighWriteSetsAlarm ∧ Rules.PtpExchangesAndServoTimeout

/-- Resets and the hub boot: the statements `ResetsTakeWhatTheyName` and `BootRunsAValidImage` above. -/
def Obligations.ResetsAndBootTakeTheirCourse : Prop :=
  Rules.ResetsTakeWhatTheyName ∧ Rules.BootRunsAValidImage

/-- Image banks and the boot flash: the statements `ImagesAreUpdatedAndMarked` and `FlashReadsErasesAndPrograms` above. -/
def Obligations.ImagesAndFlashAreManaged : Prop :=
  Rules.ImagesAreUpdatedAndMarked ∧ Rules.FlashReadsErasesAndPrograms

/-- Credits, model and correction: the statements `CreditsStayWithinTheBudget` and `CorrectionTrimsTheGain` above. -/
def Obligations.CreditsFollowTheModel : Prop :=
  Rules.CreditsStayWithinTheBudget ∧ Rules.CorrectionTrimsTheGain

/-- Retention, ramps and caps: the statements `RetentionRotatesAndBlocksEnter` and `CapsFallAndRise` above. -/
def Obligations.RetentionAndCapsAct : Prop :=
  Rules.RetentionRotatesAndBlocksEnter ∧ Rules.CapsFallAndRise

/-- The energy records: the statements `SensedEqualsTheAccounts`, `IntervalsCloseAndCarry` and `EnergyFetchShowsOneRecord` above. -/
def Obligations.EnergyIsAccounted : Prop :=
  Rules.SensedEqualsTheAccounts ∧ Rules.IntervalsCloseAndCarry ∧ Rules.EnergyFetchShowsOneRecord

/-- The Spate, ageing and droop: the statements `SpateMovesOneSettingAtATime`, `QuadrantsAreMeasuredAndDerated`, `DerateLowersOnePointAndThoseBelow` and `DroopStretchesAndCounts` above. -/
def Obligations.FrequenciesFollowTheSpate : Prop :=
  Rules.SpateMovesOneSettingAtATime ∧ Rules.QuadrantsAreMeasuredAndDerated ∧ Rules.DerateLowersOnePointAndThoseBelow ∧ Rules.DroopStretchesAndCounts

/-- The thermal loop and trips: the statements `ThermalLoopCutsAndReleases` and `TripsLatchUntilCleared` above. -/
def Obligations.HeatIsLimited : Prop :=
  Rules.ThermalLoopCutsAndReleases ∧ Rules.TripsLatchUntilCleared

/-- The sequencer: the statements `DescriptorsIssueAndRetire` and `ControlOperationsAct` above. -/
def Obligations.DescriptorsRunInTheSequencer : Prop :=
  Rules.DescriptorsIssueAndRetire ∧ Rules.ControlOperationsAct

/-- Job slots and admission: the statements `SlotsAreBoundToViews` and `AdmissionDecidesOldestFirst` above. -/
def Obligations.SlotsAndAdmissionTakeTurns : Prop :=
  Rules.SlotsAreBoundToViews ∧ Rules.AdmissionDecidesOldestFirst

/-- Frames between peers: the statements `PeersWriteSignalAndAcknowledge`, `SessionsAcknowledgeAndReplay` and `HeadersHaveTheirOctets` above. -/
def Obligations.PeersExchangeFrames : Prop :=
  Rules.PeersWriteSignalAndAcknowledge ∧ Rules.SessionsAcknowledgeAndReplay ∧ Rules.HeadersHaveTheirOctets

/-- The host's window, vectors and configuration, and the fabric behind it: the statements `WindowReachesStackedMemory`,
`LinkVectorsAndConfigurationChange` and `TransfersTakeTheirWay` above. -/
def Obligations.HostReachesStacksAndVectors : Prop :=
  Rules.WindowReachesStackedMemory ∧ Rules.LinkVectorsAndConfigurationChange ∧ Rules.TransfersTakeTheirWay

/-- DMA transfers and function resets: the statements `TransfersMoveTheirBytes` and `FunctionResetsTakeTheirState` above. -/
def Obligations.HostTransfersRunAndReset : Prop :=
  Rules.TransfersMoveTheirBytes ∧ Rules.FunctionResetsTakeTheirState

/-- Frames into and through the gateway: the statements `FramesEnterTheGateway` and `FramesFollowTheirRoute` above. -/
def Obligations.GatewayFramesAreRouted : Prop :=
  Rules.FramesEnterTheGateway ∧ Rules.FramesFollowTheirRoute

/-- Egress, and the commands on routes: the statements `CopiesLeaveInTheirFormat` and `RoutesAreSetReadAndSaved` above. -/
def Obligations.GatewayCopiesLeaveByRoute : Prop :=
  Rules.CopiesLeaveInTheirFormat ∧ Rules.RoutesAreSetReadAndSaved

/-- Global time and the slots of the site bus: the statements `ReferencesSetGlobalTime` and `SlotsCarryTheirFrames` above. -/
def Obligations.SiteBusTimeAndSlots : Prop :=
  Rules.ReferencesSetGlobalTime ∧ Rules.SlotsCarryTheirFrames

/-- Power-state frames, remote commands and wakes: the statements `PowerStateFramesSetTheSiteCap`, `RemoteCommandsRunAndAreAnswered` and `WakesAreVerifiedSentAndAcknowledged` above. -/
def Obligations.SiteBusCommandsAndWakes : Prop :=
  Rules.PowerStateFramesSetTheSiteCap ∧ Rules.RemoteCommandsRunAndAreAnswered ∧ Rules.WakesAreVerifiedSentAndAcknowledged

/-- The aux channels: the statements `AuxCommandsSetAndClearDemands`, `AuxChannelsFollowTheirCurrent` and `AuxAllotmentHoldsAndReleases` above. -/
def Obligations.AuxChannelsAreControlled : Prop :=
  Rules.AuxCommandsSetAndClearDemands ∧ Rules.AuxChannelsFollowTheirCurrent ∧ Rules.AuxAllotmentHoldsAndReleases

/-- The dual-channel inputs, ALERT_N and the lands: the statements `DualInputsAreAcceptedOrFault`, `LatchesAndAlertAreReleased` and
`LandsCarryOneSignalEach` above. -/
def Obligations.SiteInputsAndAlertAct : Prop :=
  Rules.DualInputsAreAcceptedOrFault ∧ Rules.LatchesAndAlertAreReleased ∧ Rules.LandsCarryOneSignalEach

/-- The pipeline of the site channel: the statements `FramesPassThePipeline`, `TelemetryIsCheckedEndToEnd` and `ActionsAreComparedAndPublished` above. -/
def Obligations.SitePipelineRuns : Prop :=
  Rules.FramesPassThePipeline ∧ Rules.TelemetryIsCheckedEndToEnd ∧ Rules.ActionsAreComparedAndPublished

/-- The Castle table and the site channel's commands: the statements `TheTableEvaluatesAndInjects` and `TheSiteChannelLoadsAndCastles` above. -/
def Obligations.CastleTableAndSiteCommands : Prop :=
  Rules.TheTableEvaluatesAndInjects ∧ Rules.TheSiteChannelLoadsAndCastles

/-- The key store: the statements `KeysAreMadeAndDeleted` and `KeysAreUsedIntoTheBuffer` above. -/
def Obligations.KeysAreHeldAndUsed : Prop :=
  Rules.KeysAreMadeAndDeleted ∧ Rules.KeysAreUsedIntoTheBuffer

/-- The fuse bank and the tamper response: the statements `FusesAreProgrammedByTheRules` and `TampersWipeAdvanceAndClear` above. -/
def Obligations.FusesAndTamperResponse : Prop :=
  Rules.FusesAreProgrammedByTheRules ∧ Rules.TampersWipeAdvanceAndClear

/-- The event recorder: the statements `EventsBecomeRecords`, `RecordsEnterTheLogs` and `LogsAreFetchedAndCleared` above. -/
def Obligations.EventsAreRecorded : Prop :=
  Rules.EventsBecomeRecords ∧ Rules.RecordsEnterTheLogs ∧ Rules.LogsAreFetchedAndCleared

/-- The forms of whose completion no other statement speaks by itself: the statements `WaitingCommandsAndFetchesComplete`,
`RemoteCommandsComplete` and `AuxFormsComplete` above. -/
def Obligations.RemainingCommandsComplete : Prop :=
  Rules.WaitingCommandsAndFetchesComplete ∧ Rules.RemoteCommandsComplete ∧ Rules.AuxFormsComplete
end

