-- ==== Sys2Proof/Laws/Store.lean ====
section
/-! SUPPORT. Laws of association lists, of the register file, headers and contexts: a value written is the value read, and
every other place keeps its own. -/

namespace Sys2Proof.Machine

variable {κ α : Type} [DecidableEq κ]

@[simp] theorem Assoc.get_set_same (m : List (κ × α)) (k : κ) (v : α) : Assoc.get (Assoc.set m k v) k = some v := by
  induction m with
  | nil => simp [Assoc.set, Assoc.get]
  | cons x m ih =>
    obtain ⟨k', v'⟩ := x
    by_cases h : k' = k <;> simp [Assoc.set, Assoc.get, h, ih]

theorem Assoc.get_set_other (m : List (κ × α)) {k k' : κ} (h : k ≠ k') (v : α) :
    Assoc.get (Assoc.set m k v) k' = Assoc.get m k' := by
  induction m with
  | nil => simp [Assoc.set, Assoc.get, h]
  | cons x m ih =>
    obtain ⟨j, w⟩ := x
    by_cases hj : j = k
    · subst hj; simp [Assoc.set, Assoc.get, h]
    · simp [Assoc.set, Assoc.get, hj, ih]

@[simp] theorem Assoc.getD_set_same (m : List (κ × α)) (k : κ) (v d : α) : Assoc.getD (Assoc.set m k v) k d = v := by
  simp [Assoc.getD]

theorem Assoc.getD_set_other (m : List (κ × α)) {k k' : κ} (h : k ≠ k') (v d : α) :
    Assoc.getD (Assoc.set m k v) k' d = Assoc.getD m k' d := by
  simp [Assoc.getD, Assoc.get_set_other m h]

/-! ### Headers -/

@[simp] theorem hget_hset_same (p : Page) (h : Header) (s : State) : hget (hset p h s) p = h := by
  simp [hget, hset]

theorem hget_hset_other {p q : Page} (hpq : p ≠ q) (h : Header) (s : State) : hget (hset p h s) q = hget s q := by
  simp [hget, hset, Assoc.getD_set_other _ hpq]

/-! ### Contexts -/

@[simp] theorem cget_cset_same (p : Page) (c : Client) (x : Ctx) (s : State) : cget (cset p c x s) p c = x := by
  simp [cget, cset]

theorem cget_cset_other {p q : Page} {c d : Client} (h : p ≠ q ∨ c.index ≠ d.index) (x : Ctx) (s : State) :
    cget (cset p c x s) q d = cget s q d := by
  have hk : (p, c.index) ≠ (q, d.index) := by
    intro e; cases h with
    | inl h => exact h (congrArg Prod.fst e)
    | inr h => exact h (congrArg Prod.snd e)
  simp [cget, cset, Assoc.getD_set_other _ hk]

/-! ### Register fields -/

@[simp] theorem rget_rset_same (p : Page) (f : Fld) (v i : Nat) (s : State) :
    rget (rset p f v s i) p f i = v % 2 ^ f.w := by
  simp [rget, rset]

theorem rget_rset_key {p q : Page} {f g : Fld} {i j : Nat} (h : regKey p f i 0 ≠ regKey q g j 0) (v : Nat) (s : State) :
    rget (rset p f v s i) q g j = rget s q g j := by
  simp [rget, rset, Assoc.getD_set_other _ h]

theorem rget_rset_page {p q : Page} (h : p ≠ q) (f g : Fld) (v i j : Nat) (s : State) :
    rget (rset p f v s i) q g j = rget s q g j :=
  rget_rset_key (fun e => h (congrArg RegKey.page e)) v s

@[simp] theorem rgetC_rsetC_same (c : Client) (p : Page) (f : Fld) (v i : Nat) (s : State) :
    rgetC (rsetC c p f v s i) c p f i = v % 2 ^ f.w := by
  simp [rgetC, rsetC]

end Sys2Proof.Machine
end

