-- ==== Sys2Proof/Laws/Command.lean ====
section
/-! SUPPORT. What the shared gates answer: a write that reaches its page takes effect there, and a PG_CMD write that every line
of the gate lets through begins its chapter's effect in the state `accepted`. -/

namespace Sys2Proof.Machine

theorem reaches_takes {s : State} {c : Client} {p : Page} (h : reachesPage s c p = true) (off : Nat)
    (f : State → State) : reaches c p off f s = f s := by
  cases c <;> simp_all [reachesPage, reaches]

theorem blockWrite_takes {s : State} {c : Client} {p : Page} (h : reachesBlock s c p = true) (off : Nat)
    (f : State → State) : blockWrite c p off f s = f s := by
  simp only [reachesBlock, Bool.and_eq_true, Bool.not_eq_true'] at h
  simp [blockWrite, reaches_takes h.1, h.2]

theorem ownedWrite_takes {s : State} {c : Client} {p : Page} (h : reachesCtrl s c p = true) (off : Nat)
    (f : State → State) : ownedWrite c p off f s = f s := by
  simp only [reachesCtrl, Bool.and_eq_true, Bool.not_eq_true', Bool.or_eq_true, decide_eq_true_eq] at h
  obtain ⟨⟨hp, hv⟩, ho⟩ := h
  have : ¬ (c = .pf0 ∧ hubOwns s p = true) := fun e => by
    cases ho with
    | inl h => exact h e.1
    | inr h => simp [h] at e
  simp [ownedWrite, headerWrite, reaches_takes hp, hv, this]

/-- The gate reads neither command contexts nor results. -/
theorem gate_cset (s : State) (p q : Page) (c d : Client) (x : Ctx) (op : Nat) :
    gate (cset q d x s) p c op = gate s p c op := rfl

/-- Nothing waits where a write reaches its page, so that it takes effect at once. -/
theorem inOrder_takes {s : State} {c : Client} {p : Page} (h : reachesPage s c p = true) (a : Access)
    (f : State → State) : inOrder c p a f s = f s := by
  cases c <;> simp_all [reachesPage, inOrder]

theorem command_accepts {s : State} {p : Page} {op : Nat} {r : Req} (h : accepts s p op r = true) (eff : State → State)
    (host : HostCpl) (data : List Byte) : command p op r eff s host data = eff (accepted s p op r) := by
  simp only [accepts, Bool.and_eq_true, Bool.not_eq_true', Option.isNone_iff_eq_none, List.isEmpty_iff] at h
  obtain ⟨⟨⟨⟨⟨⟨⟨hu, hv⟩, ht⟩, hd⟩, hw⟩, hg⟩, hr⟩, hf⟩ := h
  have hdup : jRetry (cset p r.client { cget s p r.client with cmd := op, arg := r.arg.toNat, tag := r.tag.toNat } s)
      r.client.index (addrOf s p 0x030) r.tag.toNat = none := hr
  simp only [command, hu, hv, ht, hd, Bool.not_true, Bool.false_eq_true, if_false, List.isEmpty_nil, Bool.or_false, accept,
    gate_cset, hg]
  have ha : addrOf (cset p r.client { cget s p r.client with cmd := op, arg := r.arg.toNat, tag := r.tag.toNat } s) p 0x030
      = addrOf s p 0x030 := rfl
  have hn : jDrawn (cset p r.client { cget s p r.client with cmd := op, arg := r.arg.toNat, tag := r.tag.toNat } s) = none := by
    simp [jDrawn, cset, hw]
  have hf' : ∀ t : State, t.views = s.views → foreignSlot t r.client p = false := fun t e => by
    have : foreignSlot t r.client p = foreignSlot s r.client p := by
      unfold foreignSlot vfReaches; rw [e]
    rw [this, hf]
  simp only [ha, hdup, jNumber, jCommand, hn, Option.getD_none]
  rw [if_neg]
  · rfl
  · rw [hf']; · exact Bool.false_ne_true
    · unfold replyGate; split <;> rfl

/-! ### What an acceptance leaves as it was -/

section Accepted

variable (s : State) (p : Page) (op : Nat) (r : Req)

theorem replyGate_eq (q : Option Nat) (s : State) : ∃ rs, replyGate p r q s = { s with sb := { s.sb with replies := rs } } := by
  unfold replyGate
  split
  · exact ⟨s.sb.replies, rfl⟩
  · exact ⟨_, rfl⟩

@[simp] theorem accepted_pending : (accepted s p op r).pending = s.pending := by
  unfold accepted replyGate; split <;> rfl

@[simp] theorem accepted_out : (accepted s p op r).out = s.out := by
  unfold accepted replyGate; split <;> rfl

@[simp] theorem accepted_fresh : (accepted s p op r).fresh = s.fresh := by
  unfold accepted replyGate; split <;> rfl

@[simp] theorem accepted_rf : (accepted s p op r).rf = s.rf := by
  unfold accepted replyGate; split <;> rfl

@[simp] theorem accepted_dir : (accepted s p op r).dir = s.dir := by
  unfold accepted replyGate; split <;> rfl

@[simp] theorem accepted_pw : (accepted s p op r).pw = s.pw := by
  unfold accepted replyGate; split <;> rfl

@[simp] theorem accepted_ck : (accepted s p op r).ck = s.ck := by
  unfold accepted replyGate; split <;> rfl

@[simp] theorem accepted_bt : (accepted s p op r).bt = s.bt := by
  unfold accepted replyGate; split <;> rfl

@[simp] theorem accepted_ev : (accepted s p op r).ev = s.ev := by
  unfold accepted replyGate; split <;> rfl

@[simp] theorem accepted_we : (accepted s p op r).we = s.we := by
  unfold accepted replyGate; split <;> rfl

@[simp] theorem accepted_en : (accepted s p op r).en = s.en := by
  unfold accepted replyGate; split <;> rfl

@[simp] theorem accepted_fq : (accepted s p op r).fq = s.fq := by
  unfold accepted replyGate; split <;> rfl

@[simp] theorem accepted_fuse : (accepted s p op r).fuse = s.fuse := by
  unfold accepted replyGate; split <;> rfl

@[simp] theorem accepted_fuseOn : (accepted s p op r).fuseOn = s.fuseOn := by
  unfold accepted replyGate; split <;> rfl

@[simp] theorem accepted_br : (accepted s p op r).br = s.br := by
  unfold accepted replyGate; split <;> rfl

@[simp] theorem accepted_views : (accepted s p op r).views = s.views := by
  unfold accepted replyGate; split <;> rfl

@[simp] theorem accepted_tenants : (accepted s p op r).tenants = s.tenants := by
  unfold accepted replyGate; split <;> rfl

@[simp] theorem accepted_shedPin : (accepted s p op r).shedPin = s.shedPin := by
  unfold accepted replyGate; split <;> rfl

@[simp] theorem accepted_co : (accepted s p op r).co = s.co := by
  unfold accepted replyGate; split <;> rfl

@[simp] theorem accepted_sy : (accepted s p op r).sy = s.sy := by
  unfold accepted replyGate; split <;> rfl

@[simp] theorem accepted_jb : (accepted s p op r).jb = s.jb := by
  unfold accepted replyGate; split <;> rfl

@[simp] theorem accepted_hbm : (accepted s p op r).hbm = s.hbm := by
  unfold accepted replyGate; split <;> rfl

@[simp] theorem accepted_ner : (accepted s p op r).ner = s.ner := by
  unfold accepted replyGate; split <;> rfl

@[simp] theorem accepted_io : (accepted s p op r).io = s.io := by
  unfold accepted replyGate; split <;> rfl

@[simp] theorem accepted_sc : (accepted s p op r).sc = s.sc := by
  unfold accepted replyGate; split <;> rfl

@[simp] theorem accepted_gw : (accepted s p op r).gw = s.gw := by
  unfold accepted replyGate; split <;> rfl

@[simp] theorem accepted_sec : (accepted s p op r).sec = s.sec := by
  unfold accepted replyGate; split <;> rfl

@[simp] theorem accepted_rget (q : Page) (f : Fld) (i : Nat) : rget (accepted s p op r) q f i = rget s q f i := by
  simp [rget]

@[simp] theorem accepted_cmd : (hget (accepted s p op r) p).cmd = some (cmdOf s op r) := by
  simp [accepted]

end Accepted

end Sys2Proof.Machine
end

