-- ==== Sys2Proof/Laws/Memory.lean ====
section
/-! SUPPORT. Laws of byte memories: what is written is read, every other byte stays, every operation keeps the canonical form,
and the memories of the reset state have it. -/

namespace Sys2Proof.Machine

/-! ### The canonical form -/

theorem Mem.wfAbove_iff (d : Byte) (l : Option Nat) (m : Memory) :
    Mem.wfAbove d l m = true ↔
      m.Pairwise (fun x y => x.1 < y.1) ∧ (∀ c ∈ m, c.2 ≠ d) ∧ ∀ k ∈ l, ∀ c ∈ m, k < c.1 := by
  induction m generalizing l with
  | nil => simp [Mem.wfAbove]
  | cons x m ih =>
    obtain ⟨a, b⟩ := x
    have h := ih (some a)
    cases l with
    | none =>
      simp only [Mem.wfAbove, Bool.and_eq_true, decide_eq_true_eq, h, List.pairwise_cons, List.forall_mem_cons,
        Option.mem_def, Option.some.injEq, forall_eq', reduceCtorEq, false_implies, implies_true, and_true]
      exact ⟨fun ⟨hb, hp, hd, ha⟩ => ⟨⟨ha, hp⟩, hb, hd⟩, fun ⟨⟨ha, hp⟩, hb, hd⟩ => ⟨hb, hp, hd, ha⟩⟩
    | some k =>
      simp only [Mem.wfAbove, Bool.and_eq_true, decide_eq_true_eq, h, List.pairwise_cons, List.forall_mem_cons,
        Option.mem_def, Option.some.injEq, forall_eq']
      constructor
      · rintro ⟨⟨hk, hb⟩, hp, hd, ha⟩
        exact ⟨⟨ha, hp⟩, ⟨hb, hd⟩, hk, fun c hc => Nat.lt_trans hk (ha c hc)⟩
      · rintro ⟨⟨ha, hp⟩, ⟨hb, hd⟩, hk, -⟩
        exact ⟨⟨hk, hb⟩, hp, hd, ha⟩

theorem Mem.wf_iff (d : Byte) (m : Memory) :
    Mem.wf d m = true ↔ m.Pairwise (fun x y => x.1 < y.1) ∧ ∀ c ∈ m, c.2 ≠ d := by
  simp [Mem.wf, Mem.wfAbove_iff]

theorem Mem.wf_filter {d : Byte} {m : Memory} (h : Mem.wf d m = true) (p : Host.Cell → Bool) :
    Mem.wf d (m.filter p) = true := by
  rw [Mem.wf_iff] at h ⊢
  exact ⟨h.1.filter p, fun c hc => h.2 c (List.mem_filter.1 hc).1⟩

/-- Bytes forgotten leave the canonical form. -/
theorem Mem.wf_forget {d : Byte} {m : Memory} (h : Mem.wf d m = true) (a n : Nat) : Mem.wf d (Mem.forget m a n) = true :=
  Mem.wf_filter h _

theorem Mem.mem_cells {d : Byte} {a : Nat} {bs : List Byte} {c : Host.Cell} (h : c ∈ Mem.cells d a bs) :
    a ≤ c.1 ∧ c.1 < a + bs.length ∧ c.2 ≠ d := by
  induction bs generalizing a with
  | nil => simp [Mem.cells] at h
  | cons b bs ih =>
    simp only [Mem.cells] at h
    split at h
    · have := ih h; simp only [List.length_cons]; exact ⟨by omega, by omega, this.2.2⟩
    · rename_i hb
      rcases List.mem_cons.1 h with rfl | h
      · simp [hb]
      · have := ih h; simp only [List.length_cons]; exact ⟨by omega, by omega, this.2.2⟩

theorem Mem.pairwise_cells (d : Byte) (a : Nat) (bs : List Byte) :
    (Mem.cells d a bs).Pairwise (fun x y => x.1 < y.1) := by
  induction bs generalizing a with
  | nil => simp [Mem.cells]
  | cons b bs ih =>
    simp only [Mem.cells]
    split
    · exact ih _
    · exact List.pairwise_cons.2 ⟨fun c hc => by have := Mem.mem_cells hc; simp only; omega, ih _⟩

/-- A write of bytes leaves the canonical form. -/
theorem Mem.wf_writeL {d : Byte} {m : Memory} (h : Mem.wf d m = true) (a : Nat) (bs : List Byte) :
    Mem.wf d (Mem.writeL d m a bs) = true := by
  unfold Mem.writeL
  split
  · exact h
  · rw [Mem.wf_iff] at h ⊢
    refine ⟨List.pairwise_append.2 ⟨h.1.filter _, List.pairwise_append.2 ⟨Mem.pairwise_cells d a bs, h.1.filter _, ?_⟩, ?_⟩, ?_⟩
    · intro x hx y hy
      have hx := Mem.mem_cells hx
      have hy := (List.mem_filter.1 hy).2
      simp only [decide_eq_true_eq] at hy
      omega
    · intro x hx y hy
      have hx := (List.mem_filter.1 hx).2
      simp only [decide_eq_true_eq] at hx
      rcases List.mem_append.1 hy with hy | hy
      · have := Mem.mem_cells hy; omega
      · have := (List.mem_filter.1 hy).2; simp only [decide_eq_true_eq] at this; omega
    · intro c hc
      rcases List.mem_append.1 hc with hc | hc
      · exact h.2 c (List.mem_filter.1 hc).1
      · rcases List.mem_append.1 hc with hc | hc
        · exact (Mem.mem_cells hc).2.2
        · exact h.2 c (List.mem_filter.1 hc).1

/-! ### Reading -/

/-- A listed byte is what its address reads as. -/
theorem Mem.read_of_mem {d : Byte} {m : Memory} (h : Mem.wf d m = true) {a : Nat} {b : Byte} (hc : (a, b) ∈ m) :
    Mem.read d m a = b := by
  rw [Mem.wf_iff] at h
  induction m with
  | nil => simp at hc
  | cons x m ih =>
    obtain ⟨a', b'⟩ := x
    have hp := List.pairwise_cons.1 h.1
    rcases List.mem_cons.1 hc with e | hc
    · simp only [Prod.mk.injEq] at e; simp [Mem.read, e.1, e.2]
    · have hlt := hp.1 _ hc
      simp only at hlt
      simp only [Mem.read, show ¬ a' = a by omega, show ¬ a < a' by omega, if_false]
      exact ih ⟨hp.2, fun c hc => h.2 c (List.mem_cons_of_mem _ hc)⟩ hc

/-- An unlisted address reads as `d`. -/
theorem Mem.read_of_not_mem {d : Byte} {m : Memory} {a : Nat} (hc : ∀ c ∈ m, c.1 ≠ a) : Mem.read d m a = d := by
  induction m with
  | nil => rfl
  | cons x m ih =>
    obtain ⟨a', b'⟩ := x
    have h := hc _ (List.mem_cons_self ..)
    simp only [Mem.read, h, if_false]
    split
    · rfl
    · exact ih fun c hc' => hc c (List.mem_cons_of_mem _ hc')

/-- Memories of canonical form that list the same cell at `a` read the same there. -/
theorem Mem.read_congr {d : Byte} {m m' : Memory} (h : Mem.wf d m = true) (h' : Mem.wf d m' = true) {a : Nat}
    (e : ∀ b, (a, b) ∈ m ↔ (a, b) ∈ m') : Mem.read d m a = Mem.read d m' a := by
  by_cases hm : ∃ b, (a, b) ∈ m
  · obtain ⟨b, hb⟩ := hm
    rw [Mem.read_of_mem h hb, Mem.read_of_mem h' ((e b).1 hb)]
  · rw [Mem.read_of_not_mem (fun c hc ha => hm ⟨c.2, by rw [← ha]; exact hc⟩),
      Mem.read_of_not_mem (fun c hc ha => hm ⟨c.2, (e _).2 (by rw [← ha]; exact hc)⟩)]

theorem Mem.mem_writeL {d : Byte} {m : Memory} {a : Nat} {bs : List Byte} (hb : bs ≠ []) (c : Host.Cell) :
    c ∈ Mem.writeL d m a bs ↔ c ∈ Mem.cells d a bs ∨ (c ∈ m ∧ (c.1 < a ∨ a + bs.length ≤ c.1)) := by
  simp only [Mem.writeL, List.isEmpty_iff, hb, if_false, List.mem_append, List.mem_filter, decide_eq_true_eq]
  constructor
  · rintro (⟨h, h'⟩ | h | ⟨h, h'⟩)
    · exact .inr ⟨h, .inl h'⟩
    · exact .inl h
    · exact .inr ⟨h, .inr h'⟩
  · rintro (h | ⟨h, h' | h'⟩)
    · exact .inr (.inl h)
    · exact .inl ⟨h, h'⟩
    · exact .inr (.inr ⟨h, h'⟩)

/-- A byte outside those written reads as before. -/
theorem Mem.read_writeL_other {d : Byte} {m : Memory} (h : Mem.wf d m = true) {a k : Nat} {bs : List Byte}
    (hk : k < a ∨ a + bs.length ≤ k) : Mem.read d (Mem.writeL d m a bs) k = Mem.read d m k := by
  by_cases hb : bs = []
  · simp [Mem.writeL, hb]
  · refine Mem.read_congr (Mem.wf_writeL h a bs) h fun b => ?_
    rw [Mem.mem_writeL hb]
    constructor
    · rintro (hc | hc)
      · have := Mem.mem_cells hc; simp only at this; omega
      · exact hc.1
    · exact fun hc => .inr ⟨hc, hk⟩

theorem Mem.mem_cells_iff {d : Byte} {a : Nat} {bs : List Byte} (i : Nat) (hi : i < bs.length) (b : Byte) :
    (a + i, b) ∈ Mem.cells d a bs ↔ b = bs.getD i 0 ∧ b ≠ d := by
  induction bs generalizing a i with
  | nil => simp at hi
  | cons x bs ih =>
    cases i with
    | zero =>
      simp only [Mem.cells, Nat.add_zero, List.getD_cons_zero]
      have hout : (a, b) ∉ Mem.cells d (a + 1) bs := fun hc => by have := Mem.mem_cells hc; simp only at this; omega
      split
      · rename_i hx; simp only [hout, false_iff]; rintro ⟨rfl, h⟩; exact h hx
      · rename_i hx
        simp only [List.mem_cons, Prod.mk.injEq, true_and, hout, or_false]
        exact ⟨fun e => ⟨e, e ▸ hx⟩, fun e => e.1⟩
    | succ i =>
      have hi : i < bs.length := by simpa using hi
      have h := ih (a := a + 1) i hi
      rw [show a + 1 + i = a + (i + 1) by omega] at h
      simp only [Mem.cells, List.getD_cons_succ]
      split
      · exact h
      · simp only [List.mem_cons, Prod.mk.injEq, show ¬ a + (i + 1) = a by omega, false_and, false_or]; exact h

/-- A written byte reads as it was written. -/
theorem Mem.read_writeL_same {d : Byte} {m : Memory} (h : Mem.wf d m = true) (a : Nat) (bs : List Byte) (i : Nat)
    (hi : i < bs.length) : Mem.read d (Mem.writeL d m a bs) (a + i) = bs.getD i 0 := by
  have hb : bs ≠ [] := by rintro rfl; simp at hi
  by_cases hd : bs.getD i 0 = d
  · rw [hd]
    refine Mem.read_of_not_mem fun c hc ha => ?_
    rcases (Mem.mem_writeL hb c).1 hc with hc | hc
    · have h1 : (a + i, c.2) ∈ Mem.cells d a bs := by rw [← ha]; exact hc
      rw [Mem.mem_cells_iff i hi] at h1
      exact h1.2 (h1.1.trans hd)
    · omega
  · exact Mem.read_of_mem (Mem.wf_writeL h a bs) ((Mem.mem_writeL hb _).2 (.inl ((Mem.mem_cells_iff i hi _).2 ⟨rfl, hd⟩)))

/-- Forgotten bytes read as `d`, the others as before. -/
theorem Mem.read_forget {d : Byte} {m : Memory} (h : Mem.wf d m = true) (a n k : Nat) :
    Mem.read d (Mem.forget m a n) k = if a ≤ k ∧ k < a + n then d else Mem.read d m k := by
  split
  · rename_i hk
    refine Mem.read_of_not_mem fun c hc e => ?_
    have := (List.mem_filter.1 hc).2
    simp only [Bool.not_eq_true', Bool.and_eq_false_iff, decide_eq_false_iff_not] at this
    omega
  · rename_i hk
    refine Mem.read_congr (Mem.wf_forget h a n) h fun b => ?_
    simp only [Mem.forget, List.mem_filter, Bool.not_eq_true', Bool.and_eq_false_iff, decide_eq_false_iff_not, and_iff_left_iff_imp]
    intro; omega

theorem Mem.readFrom_eq {d : Byte} {m : Memory} (h : Mem.wf d m = true) (a n : Nat) (ha : ∀ c ∈ m, a ≤ c.1) :
    Mem.readFrom d m a n = (List.range n).map fun i => Mem.read d m (a + i) := by
  induction n generalizing m a with
  | zero => cases m <;> rfl
  | succ n ih =>
    rw [List.range_succ_eq_map, List.map_cons, List.map_map]
    have shift : ∀ {m' : Memory}, Mem.wf d m' = true → (∀ c ∈ m', a + 1 ≤ c.1) →
        Mem.readFrom d m' (a + 1) n = (List.range n).map ((fun i => Mem.read d m' (a + i)) ∘ Nat.succ) := by
      intro m' h' ha'
      rw [ih h' _ ha']
      refine List.map_congr_left fun i _ => ?_
      simp only [Function.comp, Nat.succ_eq_add_one, show a + 1 + i = a + (i + 1) by omega]
    cases m with
    | nil => simp only [Mem.readFrom, shift h (by simp)]; rfl
    | cons x m =>
      obtain ⟨a', b⟩ := x
      have hp := (Mem.wf_iff d _).1 h
      have hp1 := List.pairwise_cons.1 hp.1
      have hm : Mem.wf d m = true := (Mem.wf_iff d m).2 ⟨hp1.2, fun c hc => hp.2 c (List.mem_cons_of_mem _ hc)⟩
      have hge := ha _ (List.mem_cons_self ..)
      simp only at hge
      simp only [Mem.readFrom]
      split
      · rename_i e
        have hlo : ∀ c ∈ m, a + 1 ≤ c.1 := fun c hc => by have := hp1.1 c hc; simp only at this; omega
        rw [shift hm hlo]
        refine List.cons_eq_cons.2 ⟨by simp [Mem.read, e], List.map_congr_left fun i _ => ?_⟩
        simp only [Function.comp, Mem.read, Nat.succ_eq_add_one, show ¬ a' = a + (i + 1) by omega, show ¬ a + (i + 1) < a' by omega,
          if_false]
      · rename_i e
        have hlo : ∀ c ∈ (a', b) :: m, a + 1 ≤ c.1 := by
          intro c hc
          rcases List.mem_cons.1 hc with rfl | hc
          · simp only; omega
          · have := hp1.1 c hc; simp only at this; omega
        rw [shift h hlo]
        refine List.cons_eq_cons.2 ⟨?_, rfl⟩
        simp [Mem.read, e, show a < a' by omega]

/-- Bytes are read one by one. -/
theorem Mem.readN_eq {d : Byte} {m : Memory} (h : Mem.wf d m = true) (a n : Nat) :
    Mem.readN d m a n = (List.range n).map fun i => Mem.read d m (a + i) := by
  unfold Mem.readN
  rw [Mem.readFrom_eq (Mem.wf_filter h _) a n (fun c hc => by
    have := (List.mem_filter.1 hc).2; simp only [Bool.and_eq_true, decide_eq_true_eq] at this; exact this.1)]
  refine List.map_congr_left fun i hi => Mem.read_congr (Mem.wf_filter h _) h fun b => ?_
  have := List.mem_range.1 hi
  simp only [List.mem_filter, Bool.and_eq_true, decide_eq_true_eq, and_iff_left_iff_imp]
  intro; omega

@[simp] theorem Mem.readN_length (d : Byte) (m : Memory) (a n : Nat) : (Mem.readN d m a n).length = n := by
  have : ∀ (m : Memory) a, (Mem.readFrom d m a n).length = n := by
    induction n with
    | zero => intro m a; cases m <;> rfl
    | succ n ih =>
      intro m a
      cases m with
      | nil => simp [Mem.readFrom, ih]
      | cons x m => obtain ⟨a', b⟩ := x; simp only [Mem.readFrom]; split <;> simp [ih]
  exact this _ _

/-! ### The memories of the state -/

/-- Every memory of the reset state has the canonical form. -/
theorem memoriesWf_reset : memoriesWf State.reset := by decide

end Sys2Proof.Machine
end

