-- ==== Sys2Proof/Laws/State.lean ====
section
/-! SUPPORT. Every field of the state after each elementary update: one lemma per update, a conjunct per field it leaves alone. -/

namespace Sys2Proof.Machine

@[simp] theorem hset_keeps (p : Page) (h : Header) (s : State) :
    (hset p h s).pending = s.pending ∧ (hset p h s).out = s.out ∧ (hset p h s).fresh = s.fresh ∧ (hset p h s).rf = s.rf
    ∧ (hset p h s).dir = s.dir ∧ (hset p h s).ctx = s.ctx ∧ (hset p h s).jr = s.jr ∧ (hset p h s).pw = s.pw
    ∧ (hset p h s).ck = s.ck ∧ (hset p h s).bt = s.bt ∧ (hset p h s).ev = s.ev ∧ (hset p h s).we = s.we
    ∧ (hset p h s).en = s.en ∧ (hset p h s).fq = s.fq ∧ (hset p h s).fuse = s.fuse ∧ (hset p h s).fuseOn = s.fuseOn
    ∧ (hset p h s).br = s.br ∧ (hset p h s).views = s.views ∧ (hset p h s).tenants = s.tenants ∧ (hset p h s).shedPin = s.shedPin
    ∧ (hset p h s).co = s.co ∧ (hset p h s).sy = s.sy ∧ (hset p h s).jb = s.jb ∧ (hset p h s).hbm = s.hbm
    ∧ (hset p h s).ner = s.ner ∧ (hset p h s).io = s.io ∧ (hset p h s).sc = s.sc ∧ (hset p h s).gw = s.gw
    ∧ (hset p h s).sb = s.sb ∧ (hset p h s).sec = s.sec := by
  simp [hset]

@[simp] theorem cset_keeps (p : Page) (c : Client) (x : Ctx) (s : State) :
    (cset p c x s).pending = s.pending ∧ (cset p c x s).out = s.out ∧ (cset p c x s).fresh = s.fresh ∧ (cset p c x s).rf = s.rf
    ∧ (cset p c x s).dir = s.dir ∧ (cset p c x s).hdr = s.hdr ∧ (cset p c x s).jr = s.jr ∧ (cset p c x s).pw = s.pw
    ∧ (cset p c x s).ck = s.ck ∧ (cset p c x s).bt = s.bt ∧ (cset p c x s).ev = s.ev ∧ (cset p c x s).we = s.we
    ∧ (cset p c x s).en = s.en ∧ (cset p c x s).fq = s.fq ∧ (cset p c x s).fuse = s.fuse ∧ (cset p c x s).fuseOn = s.fuseOn
    ∧ (cset p c x s).br = s.br ∧ (cset p c x s).views = s.views ∧ (cset p c x s).tenants = s.tenants ∧ (cset p c x s).shedPin = s.shedPin
    ∧ (cset p c x s).co = s.co ∧ (cset p c x s).sy = s.sy ∧ (cset p c x s).jb = s.jb ∧ (cset p c x s).hbm = s.hbm
    ∧ (cset p c x s).ner = s.ner ∧ (cset p c x s).io = s.io ∧ (cset p c x s).sc = s.sc ∧ (cset p c x s).gw = s.gw
    ∧ (cset p c x s).sb = s.sb ∧ (cset p c x s).sec = s.sec := by
  simp [cset]

@[simp] theorem rset_keeps (p : Page) (f : Fld) (v i : Nat) (s : State) :
    (rset p f v s i).pending = s.pending ∧ (rset p f v s i).out = s.out ∧ (rset p f v s i).fresh = s.fresh ∧ (rset p f v s i).dir = s.dir
    ∧ (rset p f v s i).hdr = s.hdr ∧ (rset p f v s i).ctx = s.ctx ∧ (rset p f v s i).jr = s.jr ∧ (rset p f v s i).pw = s.pw
    ∧ (rset p f v s i).ck = s.ck ∧ (rset p f v s i).bt = s.bt ∧ (rset p f v s i).ev = s.ev ∧ (rset p f v s i).we = s.we
    ∧ (rset p f v s i).en = s.en ∧ (rset p f v s i).fq = s.fq ∧ (rset p f v s i).fuse = s.fuse ∧ (rset p f v s i).fuseOn = s.fuseOn
    ∧ (rset p f v s i).br = s.br ∧ (rset p f v s i).views = s.views ∧ (rset p f v s i).tenants = s.tenants ∧ (rset p f v s i).shedPin = s.shedPin
    ∧ (rset p f v s i).co = s.co ∧ (rset p f v s i).sy = s.sy ∧ (rset p f v s i).jb = s.jb ∧ (rset p f v s i).hbm = s.hbm
    ∧ (rset p f v s i).ner = s.ner ∧ (rset p f v s i).io = s.io ∧ (rset p f v s i).sc = s.sc ∧ (rset p f v s i).gw = s.gw
    ∧ (rset p f v s i).sb = s.sb ∧ (rset p f v s i).sec = s.sec := by
  simp [rset]

@[simp] theorem rsetC_keeps (c : Client) (p : Page) (f : Fld) (v i : Nat) (s : State) :
    (rsetC c p f v s i).pending = s.pending ∧ (rsetC c p f v s i).out = s.out ∧ (rsetC c p f v s i).fresh = s.fresh ∧ (rsetC c p f v s i).dir = s.dir
    ∧ (rsetC c p f v s i).hdr = s.hdr ∧ (rsetC c p f v s i).ctx = s.ctx ∧ (rsetC c p f v s i).jr = s.jr ∧ (rsetC c p f v s i).pw = s.pw
    ∧ (rsetC c p f v s i).ck = s.ck ∧ (rsetC c p f v s i).bt = s.bt ∧ (rsetC c p f v s i).ev = s.ev ∧ (rsetC c p f v s i).we = s.we
    ∧ (rsetC c p f v s i).en = s.en ∧ (rsetC c p f v s i).fq = s.fq ∧ (rsetC c p f v s i).fuse = s.fuse ∧ (rsetC c p f v s i).fuseOn = s.fuseOn
    ∧ (rsetC c p f v s i).br = s.br ∧ (rsetC c p f v s i).views = s.views ∧ (rsetC c p f v s i).tenants = s.tenants ∧ (rsetC c p f v s i).shedPin = s.shedPin
    ∧ (rsetC c p f v s i).co = s.co ∧ (rsetC c p f v s i).sy = s.sy ∧ (rsetC c p f v s i).jb = s.jb ∧ (rsetC c p f v s i).hbm = s.hbm
    ∧ (rsetC c p f v s i).ner = s.ner ∧ (rsetC c p f v s i).io = s.io ∧ (rsetC c p f v s i).sc = s.sc ∧ (rsetC c p f v s i).gw = s.gw
    ∧ (rsetC c p f v s i).sb = s.sb ∧ (rsetC c p f v s i).sec = s.sec := by
  simp [rsetC]

@[simp] theorem radd_keeps (p : Page) (f : Fld) (v i : Nat) (s : State) :
    (radd p f v s i).pending = s.pending ∧ (radd p f v s i).out = s.out ∧ (radd p f v s i).fresh = s.fresh ∧ (radd p f v s i).dir = s.dir
    ∧ (radd p f v s i).hdr = s.hdr ∧ (radd p f v s i).ctx = s.ctx ∧ (radd p f v s i).jr = s.jr ∧ (radd p f v s i).pw = s.pw
    ∧ (radd p f v s i).ck = s.ck ∧ (radd p f v s i).bt = s.bt ∧ (radd p f v s i).ev = s.ev ∧ (radd p f v s i).we = s.we
    ∧ (radd p f v s i).en = s.en ∧ (radd p f v s i).fq = s.fq ∧ (radd p f v s i).fuse = s.fuse ∧ (radd p f v s i).fuseOn = s.fuseOn
    ∧ (radd p f v s i).br = s.br ∧ (radd p f v s i).views = s.views ∧ (radd p f v s i).tenants = s.tenants ∧ (radd p f v s i).shedPin = s.shedPin
    ∧ (radd p f v s i).co = s.co ∧ (radd p f v s i).sy = s.sy ∧ (radd p f v s i).jb = s.jb ∧ (radd p f v s i).hbm = s.hbm
    ∧ (radd p f v s i).ner = s.ner ∧ (radd p f v s i).io = s.io ∧ (radd p f v s i).sc = s.sc ∧ (radd p f v s i).gw = s.gw
    ∧ (radd p f v s i).sb = s.sb ∧ (radd p f v s i).sec = s.sec := by
  simp [radd]

@[simp] theorem rwrap_keeps (p : Page) (f : Fld) (v i : Nat) (s : State) :
    (rwrap p f v s i).pending = s.pending ∧ (rwrap p f v s i).out = s.out ∧ (rwrap p f v s i).fresh = s.fresh ∧ (rwrap p f v s i).dir = s.dir
    ∧ (rwrap p f v s i).hdr = s.hdr ∧ (rwrap p f v s i).ctx = s.ctx ∧ (rwrap p f v s i).jr = s.jr ∧ (rwrap p f v s i).pw = s.pw
    ∧ (rwrap p f v s i).ck = s.ck ∧ (rwrap p f v s i).bt = s.bt ∧ (rwrap p f v s i).ev = s.ev ∧ (rwrap p f v s i).we = s.we
    ∧ (rwrap p f v s i).en = s.en ∧ (rwrap p f v s i).fq = s.fq ∧ (rwrap p f v s i).fuse = s.fuse ∧ (rwrap p f v s i).fuseOn = s.fuseOn
    ∧ (rwrap p f v s i).br = s.br ∧ (rwrap p f v s i).views = s.views ∧ (rwrap p f v s i).tenants = s.tenants ∧ (rwrap p f v s i).shedPin = s.shedPin
    ∧ (rwrap p f v s i).co = s.co ∧ (rwrap p f v s i).sy = s.sy ∧ (rwrap p f v s i).jb = s.jb ∧ (rwrap p f v s i).hbm = s.hbm
    ∧ (rwrap p f v s i).ner = s.ner ∧ (rwrap p f v s i).io = s.io ∧ (rwrap p f v s i).sc = s.sc ∧ (rwrap p f v s i).gw = s.gw
    ∧ (rwrap p f v s i).sb = s.sb ∧ (rwrap p f v s i).sec = s.sec := by
  simp [rwrap]

@[simp] theorem rflag_keeps (p : Page) (f : Fld) (b : Bool) (i : Nat) (s : State) :
    (rflag p f b s i).pending = s.pending ∧ (rflag p f b s i).out = s.out ∧ (rflag p f b s i).fresh = s.fresh ∧ (rflag p f b s i).dir = s.dir
    ∧ (rflag p f b s i).hdr = s.hdr ∧ (rflag p f b s i).ctx = s.ctx ∧ (rflag p f b s i).jr = s.jr ∧ (rflag p f b s i).pw = s.pw
    ∧ (rflag p f b s i).ck = s.ck ∧ (rflag p f b s i).bt = s.bt ∧ (rflag p f b s i).ev = s.ev ∧ (rflag p f b s i).we = s.we
    ∧ (rflag p f b s i).en = s.en ∧ (rflag p f b s i).fq = s.fq ∧ (rflag p f b s i).fuse = s.fuse ∧ (rflag p f b s i).fuseOn = s.fuseOn
    ∧ (rflag p f b s i).br = s.br ∧ (rflag p f b s i).views = s.views ∧ (rflag p f b s i).tenants = s.tenants ∧ (rflag p f b s i).shedPin = s.shedPin
    ∧ (rflag p f b s i).co = s.co ∧ (rflag p f b s i).sy = s.sy ∧ (rflag p f b s i).jb = s.jb ∧ (rflag p f b s i).hbm = s.hbm
    ∧ (rflag p f b s i).ner = s.ner ∧ (rflag p f b s i).io = s.io ∧ (rflag p f b s i).sc = s.sc ∧ (rflag p f b s i).gw = s.gw
    ∧ (rflag p f b s i).sb = s.sb ∧ (rflag p f b s i).sec = s.sec := by
  simp [rflag]

@[simp] theorem rclear_keeps (p : Page) (k : Fld → Bool) (s : State) :
    (rclear p k s).pending = s.pending ∧ (rclear p k s).out = s.out ∧ (rclear p k s).fresh = s.fresh ∧ (rclear p k s).dir = s.dir
    ∧ (rclear p k s).hdr = s.hdr ∧ (rclear p k s).ctx = s.ctx ∧ (rclear p k s).jr = s.jr ∧ (rclear p k s).pw = s.pw
    ∧ (rclear p k s).ck = s.ck ∧ (rclear p k s).bt = s.bt ∧ (rclear p k s).ev = s.ev ∧ (rclear p k s).we = s.we
    ∧ (rclear p k s).en = s.en ∧ (rclear p k s).fq = s.fq ∧ (rclear p k s).fuse = s.fuse ∧ (rclear p k s).fuseOn = s.fuseOn
    ∧ (rclear p k s).br = s.br ∧ (rclear p k s).views = s.views ∧ (rclear p k s).tenants = s.tenants ∧ (rclear p k s).shedPin = s.shedPin
    ∧ (rclear p k s).co = s.co ∧ (rclear p k s).sy = s.sy ∧ (rclear p k s).jb = s.jb ∧ (rclear p k s).hbm = s.hbm
    ∧ (rclear p k s).ner = s.ner ∧ (rclear p k s).io = s.io ∧ (rclear p k s).sc = s.sc ∧ (rclear p k s).gw = s.gw
    ∧ (rclear p k s).sb = s.sb ∧ (rclear p k s).sec = s.sec := by
  simp [rclear]

@[simp] theorem send_keeps (o : Out) (s : State) :
    (send o s).pending = s.pending ∧ (send o s).fresh = s.fresh ∧ (send o s).rf = s.rf ∧ (send o s).dir = s.dir
    ∧ (send o s).hdr = s.hdr ∧ (send o s).ctx = s.ctx ∧ (send o s).jr = s.jr ∧ (send o s).pw = s.pw
    ∧ (send o s).ck = s.ck ∧ (send o s).bt = s.bt ∧ (send o s).ev = s.ev ∧ (send o s).we = s.we
    ∧ (send o s).en = s.en ∧ (send o s).fq = s.fq ∧ (send o s).fuse = s.fuse ∧ (send o s).fuseOn = s.fuseOn
    ∧ (send o s).br = s.br ∧ (send o s).views = s.views ∧ (send o s).tenants = s.tenants ∧ (send o s).shedPin = s.shedPin
    ∧ (send o s).co = s.co ∧ (send o s).sy = s.sy ∧ (send o s).jb = s.jb ∧ (send o s).hbm = s.hbm
    ∧ (send o s).ner = s.ner ∧ (send o s).io = s.io ∧ (send o s).sc = s.sc ∧ (send o s).gw = s.gw
    ∧ (send o s).sb = s.sb ∧ (send o s).sec = s.sec := by
  simp [send]

end Sys2Proof.Machine
end

