-- ==== Sys2Proof/Laws/Ops.lean ====
section
/-! SUPPORT. What each shared operation leaves as it was: one lemma per operation, a conjunct per field of the state. -/

namespace Sys2Proof.Machine

@[simp] theorem raiseVector_keeps (fv : Nat × Nat) (s : State) :
    (raiseVector s fv).pending = s.pending ∧ (raiseVector s fv).fresh = s.fresh ∧ (raiseVector s fv).rf = s.rf ∧ (raiseVector s fv).dir = s.dir
    ∧ (raiseVector s fv).hdr = s.hdr ∧ (raiseVector s fv).ctx = s.ctx ∧ (raiseVector s fv).jr = s.jr ∧ (raiseVector s fv).pw = s.pw
    ∧ (raiseVector s fv).ck = s.ck ∧ (raiseVector s fv).bt = s.bt ∧ (raiseVector s fv).ev = s.ev ∧ (raiseVector s fv).we = s.we
    ∧ (raiseVector s fv).en = s.en ∧ (raiseVector s fv).fq = s.fq ∧ (raiseVector s fv).fuse = s.fuse ∧ (raiseVector s fv).fuseOn = s.fuseOn
    ∧ (raiseVector s fv).views = s.views ∧ (raiseVector s fv).tenants = s.tenants ∧ (raiseVector s fv).shedPin = s.shedPin ∧ (raiseVector s fv).co = s.co
    ∧ (raiseVector s fv).sy = s.sy ∧ (raiseVector s fv).jb = s.jb ∧ (raiseVector s fv).hbm = s.hbm ∧ (raiseVector s fv).ner = s.ner
    ∧ (raiseVector s fv).io = s.io ∧ (raiseVector s fv).sc = s.sc ∧ (raiseVector s fv).gw = s.gw ∧ (raiseVector s fv).sb = s.sb
    ∧ (raiseVector s fv).sec = s.sec := by
  unfold raiseVector
  (repeat' split) <;> simp

/-- What a fold of steps keeps, each step keeps. -/
theorem foldl_keeps {α β : Type} (g : State → β) (f : State → α → State) (h : ∀ s a, g (f s a) = g s) (l : List α) (s : State) :
    g (l.foldl f s) = g s := by
  induction l generalizing s with
  | nil => rfl
  | cons a l ih => simp [ih, h]

@[simp] theorem raises_keeps (l : List (Nat × Nat)) (s : State) :
    (l.foldl raiseVector s).pending = s.pending ∧ (l.foldl raiseVector s).fresh = s.fresh ∧ (l.foldl raiseVector s).rf = s.rf ∧ (l.foldl raiseVector s).dir = s.dir
    ∧ (l.foldl raiseVector s).hdr = s.hdr ∧ (l.foldl raiseVector s).ctx = s.ctx ∧ (l.foldl raiseVector s).jr = s.jr ∧ (l.foldl raiseVector s).pw = s.pw
    ∧ (l.foldl raiseVector s).ck = s.ck ∧ (l.foldl raiseVector s).bt = s.bt ∧ (l.foldl raiseVector s).ev = s.ev ∧ (l.foldl raiseVector s).we = s.we
    ∧ (l.foldl raiseVector s).en = s.en ∧ (l.foldl raiseVector s).fq = s.fq ∧ (l.foldl raiseVector s).fuse = s.fuse ∧ (l.foldl raiseVector s).fuseOn = s.fuseOn
    ∧ (l.foldl raiseVector s).views = s.views ∧ (l.foldl raiseVector s).tenants = s.tenants ∧ (l.foldl raiseVector s).shedPin = s.shedPin ∧ (l.foldl raiseVector s).co = s.co
    ∧ (l.foldl raiseVector s).sy = s.sy ∧ (l.foldl raiseVector s).jb = s.jb ∧ (l.foldl raiseVector s).hbm = s.hbm ∧ (l.foldl raiseVector s).ner = s.ner
    ∧ (l.foldl raiseVector s).io = s.io ∧ (l.foldl raiseVector s).sc = s.sc ∧ (l.foldl raiseVector s).gw = s.gw ∧ (l.foldl raiseVector s).sb = s.sb
    ∧ (l.foldl raiseVector s).sec = s.sec := by
  refine ⟨?_, ?_, ?_, ?_, ?_, ?_, ?_, ?_, ?_, ?_, ?_, ?_, ?_, ?_, ?_, ?_, ?_, ?_, ?_, ?_, ?_, ?_, ?_, ?_, ?_, ?_, ?_, ?_, ?_⟩
  · exact foldl_keeps State.pending _ (by simp) _ _
  · exact foldl_keeps State.fresh _ (by simp) _ _
  · exact foldl_keeps State.rf _ (by simp) _ _
  · exact foldl_keeps State.dir _ (by simp) _ _
  · exact foldl_keeps State.hdr _ (by simp) _ _
  · exact foldl_keeps State.ctx _ (by simp) _ _
  · exact foldl_keeps State.jr _ (by simp) _ _
  · exact foldl_keeps State.pw _ (by simp) _ _
  · exact foldl_keeps State.ck _ (by simp) _ _
  · exact foldl_keeps State.bt _ (by simp) _ _
  · exact foldl_keeps State.ev _ (by simp) _ _
  · exact foldl_keeps State.we _ (by simp) _ _
  · exact foldl_keeps State.en _ (by simp) _ _
  · exact foldl_keeps State.fq _ (by simp) _ _
  · exact foldl_keeps State.fuse _ (by simp) _ _
  · exact foldl_keeps State.fuseOn _ (by simp) _ _
  · exact foldl_keeps State.views _ (by simp) _ _
  · exact foldl_keeps State.tenants _ (by simp) _ _
  · exact foldl_keeps State.shedPin _ (by simp) _ _
  · exact foldl_keeps State.co _ (by simp) _ _
  · exact foldl_keeps State.sy _ (by simp) _ _
  · exact foldl_keeps State.jb _ (by simp) _ _
  · exact foldl_keeps State.hbm _ (by simp) _ _
  · exact foldl_keeps State.ner _ (by simp) _ _
  · exact foldl_keeps State.io _ (by simp) _ _
  · exact foldl_keeps State.sc _ (by simp) _ _
  · exact foldl_keeps State.gw _ (by simp) _ _
  · exact foldl_keeps State.sb _ (by simp) _ _
  · exact foldl_keeps State.sec _ (by simp) _ _

@[simp] theorem irqSettle_keeps (a s : State) :
    (irqSettle a s).pending = s.pending ∧ (irqSettle a s).fresh = s.fresh ∧ (irqSettle a s).rf = s.rf ∧ (irqSettle a s).dir = s.dir
    ∧ (irqSettle a s).hdr = s.hdr ∧ (irqSettle a s).ctx = s.ctx ∧ (irqSettle a s).jr = s.jr ∧ (irqSettle a s).pw = s.pw
    ∧ (irqSettle a s).ck = s.ck ∧ (irqSettle a s).bt = s.bt ∧ (irqSettle a s).ev = s.ev ∧ (irqSettle a s).we = s.we
    ∧ (irqSettle a s).en = s.en ∧ (irqSettle a s).fq = s.fq ∧ (irqSettle a s).fuse = s.fuse ∧ (irqSettle a s).fuseOn = s.fuseOn
    ∧ (irqSettle a s).views = s.views ∧ (irqSettle a s).tenants = s.tenants ∧ (irqSettle a s).shedPin = s.shedPin ∧ (irqSettle a s).co = s.co
    ∧ (irqSettle a s).sy = s.sy ∧ (irqSettle a s).jb = s.jb ∧ (irqSettle a s).hbm = s.hbm ∧ (irqSettle a s).ner = s.ner
    ∧ (irqSettle a s).io = s.io ∧ (irqSettle a s).sc = s.sc ∧ (irqSettle a s).gw = s.gw ∧ (irqSettle a s).sb = s.sb
    ∧ (irqSettle a s).sec = s.sec := by
  simp [irqSettle]

@[simp] theorem hupd_keeps (p : Page) (f : Header → Header) (s : State) :
    (hupd p f s).pending = s.pending ∧ (hupd p f s).fresh = s.fresh ∧ (hupd p f s).rf = s.rf ∧ (hupd p f s).dir = s.dir
    ∧ (hupd p f s).ctx = s.ctx ∧ (hupd p f s).jr = s.jr ∧ (hupd p f s).pw = s.pw ∧ (hupd p f s).ck = s.ck
    ∧ (hupd p f s).bt = s.bt ∧ (hupd p f s).ev = s.ev ∧ (hupd p f s).we = s.we ∧ (hupd p f s).en = s.en
    ∧ (hupd p f s).fq = s.fq ∧ (hupd p f s).fuse = s.fuse ∧ (hupd p f s).fuseOn = s.fuseOn ∧ (hupd p f s).views = s.views
    ∧ (hupd p f s).tenants = s.tenants ∧ (hupd p f s).shedPin = s.shedPin ∧ (hupd p f s).co = s.co ∧ (hupd p f s).sy = s.sy
    ∧ (hupd p f s).jb = s.jb ∧ (hupd p f s).hbm = s.hbm ∧ (hupd p f s).ner = s.ner ∧ (hupd p f s).io = s.io
    ∧ (hupd p f s).sc = s.sc ∧ (hupd p f s).gw = s.gw ∧ (hupd p f s).sb = s.sb ∧ (hupd p f s).sec = s.sec := by
  simp only [hupd]
  (repeat' split) <;> simp

/-- A changed header beside its interrupt messages (R66, R436). -/
@[simp] theorem hupd_hdr (p : Page) (f : Header → Header) (s : State) :
    (hupd p f s).hdr = (hset p (f (hget s p)) s).hdr := by
  simp only [hupd]
  split <;> simp

@[simp] theorem hget_hupd_same (p : Page) (f : Header → Header) (s : State) : hget (hupd p f s) p = f (hget s p) := by
  simp [hget, hset]

theorem hget_hupd_other {p q : Page} (h : p ≠ q) (f : Header → Header) (s : State) : hget (hupd p f s) q = hget s q := by
  simp [hget, hset, Assoc.getD_set_other _ h]

@[simp] theorem irqPulse_keeps (p : Page) (b : Nat) (s : State) :
    (irqPulse p b s).pending = s.pending ∧ (irqPulse p b s).fresh = s.fresh ∧ (irqPulse p b s).rf = s.rf ∧ (irqPulse p b s).dir = s.dir
    ∧ (irqPulse p b s).ctx = s.ctx ∧ (irqPulse p b s).jr = s.jr ∧ (irqPulse p b s).pw = s.pw ∧ (irqPulse p b s).ck = s.ck
    ∧ (irqPulse p b s).bt = s.bt ∧ (irqPulse p b s).ev = s.ev ∧ (irqPulse p b s).we = s.we ∧ (irqPulse p b s).en = s.en
    ∧ (irqPulse p b s).fq = s.fq ∧ (irqPulse p b s).fuse = s.fuse ∧ (irqPulse p b s).fuseOn = s.fuseOn ∧ (irqPulse p b s).views = s.views
    ∧ (irqPulse p b s).tenants = s.tenants ∧ (irqPulse p b s).shedPin = s.shedPin ∧ (irqPulse p b s).co = s.co ∧ (irqPulse p b s).sy = s.sy
    ∧ (irqPulse p b s).jb = s.jb ∧ (irqPulse p b s).hbm = s.hbm ∧ (irqPulse p b s).ner = s.ner ∧ (irqPulse p b s).io = s.io
    ∧ (irqPulse p b s).sc = s.sc ∧ (irqPulse p b s).gw = s.gw ∧ (irqPulse p b s).sb = s.sb ∧ (irqPulse p b s).sec = s.sec := by
  simp [irqPulse]

@[simp] theorem irqLevel_keeps (p : Page) (b : Nat) (on : Bool) (s : State) :
    (irqLevel p b on s).pending = s.pending ∧ (irqLevel p b on s).fresh = s.fresh ∧ (irqLevel p b on s).rf = s.rf ∧ (irqLevel p b on s).dir = s.dir
    ∧ (irqLevel p b on s).ctx = s.ctx ∧ (irqLevel p b on s).jr = s.jr ∧ (irqLevel p b on s).pw = s.pw ∧ (irqLevel p b on s).ck = s.ck
    ∧ (irqLevel p b on s).bt = s.bt ∧ (irqLevel p b on s).ev = s.ev ∧ (irqLevel p b on s).we = s.we ∧ (irqLevel p b on s).en = s.en
    ∧ (irqLevel p b on s).fq = s.fq ∧ (irqLevel p b on s).fuse = s.fuse ∧ (irqLevel p b on s).fuseOn = s.fuseOn ∧ (irqLevel p b on s).views = s.views
    ∧ (irqLevel p b on s).tenants = s.tenants ∧ (irqLevel p b on s).shedPin = s.shedPin ∧ (irqLevel p b on s).co = s.co ∧ (irqLevel p b on s).sy = s.sy
    ∧ (irqLevel p b on s).jb = s.jb ∧ (irqLevel p b on s).hbm = s.hbm ∧ (irqLevel p b on s).ner = s.ner ∧ (irqLevel p b on s).io = s.io
    ∧ (irqLevel p b on s).sc = s.sc ∧ (irqLevel p b on s).gw = s.gw ∧ (irqLevel p b on s).sb = s.sb ∧ (irqLevel p b on s).sec = s.sec := by
  simp [irqLevel]

@[simp] theorem pgErr_keeps (p : Page) (code : Nat) (s : State) :
    (pgErr p code s).pending = s.pending ∧ (pgErr p code s).fresh = s.fresh ∧ (pgErr p code s).rf = s.rf ∧ (pgErr p code s).dir = s.dir
    ∧ (pgErr p code s).ctx = s.ctx ∧ (pgErr p code s).jr = s.jr ∧ (pgErr p code s).pw = s.pw ∧ (pgErr p code s).ck = s.ck
    ∧ (pgErr p code s).bt = s.bt ∧ (pgErr p code s).ev = s.ev ∧ (pgErr p code s).we = s.we ∧ (pgErr p code s).en = s.en
    ∧ (pgErr p code s).fq = s.fq ∧ (pgErr p code s).fuse = s.fuse ∧ (pgErr p code s).fuseOn = s.fuseOn ∧ (pgErr p code s).views = s.views
    ∧ (pgErr p code s).tenants = s.tenants ∧ (pgErr p code s).shedPin = s.shedPin ∧ (pgErr p code s).co = s.co ∧ (pgErr p code s).sy = s.sy
    ∧ (pgErr p code s).jb = s.jb ∧ (pgErr p code s).hbm = s.hbm ∧ (pgErr p code s).ner = s.ner ∧ (pgErr p code s).io = s.io
    ∧ (pgErr p code s).sc = s.sc ∧ (pgErr p code s).gw = s.gw ∧ (pgErr p code s).sb = s.sb ∧ (pgErr p code s).sec = s.sec := by
  simp only [pgErr]
  split <;> simp

@[simp] theorem badAddr_keeps  (s : State) :
    (badAddr s).pending = s.pending ∧ (badAddr s).fresh = s.fresh ∧ (badAddr s).rf = s.rf ∧ (badAddr s).dir = s.dir
    ∧ (badAddr s).ctx = s.ctx ∧ (badAddr s).jr = s.jr ∧ (badAddr s).pw = s.pw ∧ (badAddr s).ck = s.ck
    ∧ (badAddr s).bt = s.bt ∧ (badAddr s).ev = s.ev ∧ (badAddr s).we = s.we ∧ (badAddr s).en = s.en
    ∧ (badAddr s).fq = s.fq ∧ (badAddr s).fuse = s.fuse ∧ (badAddr s).fuseOn = s.fuseOn ∧ (badAddr s).views = s.views
    ∧ (badAddr s).tenants = s.tenants ∧ (badAddr s).shedPin = s.shedPin ∧ (badAddr s).co = s.co ∧ (badAddr s).sy = s.sy
    ∧ (badAddr s).jb = s.jb ∧ (badAddr s).hbm = s.hbm ∧ (badAddr s).ner = s.ner ∧ (badAddr s).io = s.io
    ∧ (badAddr s).sc = s.sc ∧ (badAddr s).gw = s.gw ∧ (badAddr s).sb = s.sb ∧ (badAddr s).sec = s.sec := by
  simp [badAddr]

@[simp] theorem pgFault_keeps (p : Page) (on : Bool) (s : State) :
    (pgFault p on s).pending = s.pending ∧ (pgFault p on s).fresh = s.fresh ∧ (pgFault p on s).rf = s.rf ∧ (pgFault p on s).dir = s.dir
    ∧ (pgFault p on s).ctx = s.ctx ∧ (pgFault p on s).jr = s.jr ∧ (pgFault p on s).pw = s.pw ∧ (pgFault p on s).ck = s.ck
    ∧ (pgFault p on s).bt = s.bt ∧ (pgFault p on s).ev = s.ev ∧ (pgFault p on s).we = s.we ∧ (pgFault p on s).en = s.en
    ∧ (pgFault p on s).fq = s.fq ∧ (pgFault p on s).fuse = s.fuse ∧ (pgFault p on s).fuseOn = s.fuseOn ∧ (pgFault p on s).views = s.views
    ∧ (pgFault p on s).tenants = s.tenants ∧ (pgFault p on s).shedPin = s.shedPin ∧ (pgFault p on s).co = s.co ∧ (pgFault p on s).sy = s.sy
    ∧ (pgFault p on s).jb = s.jb ∧ (pgFault p on s).hbm = s.hbm ∧ (pgFault p on s).ner = s.ner ∧ (pgFault p on s).io = s.io
    ∧ (pgFault p on s).sc = s.sc ∧ (pgFault p on s).gw = s.gw ∧ (pgFault p on s).sb = s.sb ∧ (pgFault p on s).sec = s.sec := by
  simp [pgFault]

@[simp] theorem lost_keeps (n : Nat) (s : State) :
    (lost n s).pending = s.pending ∧ (lost n s).out = s.out ∧ (lost n s).fresh = s.fresh ∧ (lost n s).dir = s.dir
    ∧ (lost n s).hdr = s.hdr ∧ (lost n s).ctx = s.ctx ∧ (lost n s).jr = s.jr ∧ (lost n s).pw = s.pw
    ∧ (lost n s).ck = s.ck ∧ (lost n s).bt = s.bt ∧ (lost n s).ev = s.ev ∧ (lost n s).we = s.we
    ∧ (lost n s).en = s.en ∧ (lost n s).fq = s.fq ∧ (lost n s).fuse = s.fuse ∧ (lost n s).fuseOn = s.fuseOn
    ∧ (lost n s).br = s.br ∧ (lost n s).views = s.views ∧ (lost n s).tenants = s.tenants ∧ (lost n s).shedPin = s.shedPin
    ∧ (lost n s).co = s.co ∧ (lost n s).sy = s.sy ∧ (lost n s).jb = s.jb ∧ (lost n s).hbm = s.hbm
    ∧ (lost n s).ner = s.ner ∧ (lost n s).io = s.io ∧ (lost n s).sc = s.sc ∧ (lost n s).gw = s.gw
    ∧ (lost n s).sb = s.sb ∧ (lost n s).sec = s.sec := by
  simp [lost]

@[simp] theorem enqueueRec_keeps (r : Rec) (s : State) :
    (enqueueRec r s).pending = s.pending ∧ (enqueueRec r s).out = s.out ∧ (enqueueRec r s).fresh = s.fresh ∧ (enqueueRec r s).dir = s.dir
    ∧ (enqueueRec r s).hdr = s.hdr ∧ (enqueueRec r s).ctx = s.ctx ∧ (enqueueRec r s).jr = s.jr ∧ (enqueueRec r s).pw = s.pw
    ∧ (enqueueRec r s).ck = s.ck ∧ (enqueueRec r s).bt = s.bt ∧ (enqueueRec r s).we = s.we ∧ (enqueueRec r s).en = s.en
    ∧ (enqueueRec r s).fq = s.fq ∧ (enqueueRec r s).fuse = s.fuse ∧ (enqueueRec r s).fuseOn = s.fuseOn ∧ (enqueueRec r s).br = s.br
    ∧ (enqueueRec r s).views = s.views ∧ (enqueueRec r s).tenants = s.tenants ∧ (enqueueRec r s).shedPin = s.shedPin ∧ (enqueueRec r s).co = s.co
    ∧ (enqueueRec r s).sy = s.sy ∧ (enqueueRec r s).jb = s.jb ∧ (enqueueRec r s).hbm = s.hbm ∧ (enqueueRec r s).ner = s.ner
    ∧ (enqueueRec r s).io = s.io ∧ (enqueueRec r s).sc = s.sc ∧ (enqueueRec r s).gw = s.gw ∧ (enqueueRec r s).sb = s.sb
    ∧ (enqueueRec r s).sec = s.sec := by
  simp only [enqueueRec]
  (repeat' split) <;> simp

@[simp] theorem foldInto_keeps (u : Nat) (s : State) :
    (foldInto u s).pending = s.pending ∧ (foldInto u s).out = s.out ∧ (foldInto u s).fresh = s.fresh ∧ (foldInto u s).dir = s.dir
    ∧ (foldInto u s).hdr = s.hdr ∧ (foldInto u s).ctx = s.ctx ∧ (foldInto u s).jr = s.jr ∧ (foldInto u s).pw = s.pw
    ∧ (foldInto u s).ck = s.ck ∧ (foldInto u s).bt = s.bt ∧ (foldInto u s).we = s.we ∧ (foldInto u s).en = s.en
    ∧ (foldInto u s).fq = s.fq ∧ (foldInto u s).fuse = s.fuse ∧ (foldInto u s).fuseOn = s.fuseOn ∧ (foldInto u s).br = s.br
    ∧ (foldInto u s).views = s.views ∧ (foldInto u s).tenants = s.tenants ∧ (foldInto u s).shedPin = s.shedPin ∧ (foldInto u s).co = s.co
    ∧ (foldInto u s).sy = s.sy ∧ (foldInto u s).jb = s.jb ∧ (foldInto u s).hbm = s.hbm ∧ (foldInto u s).ner = s.ner
    ∧ (foldInto u s).io = s.io ∧ (foldInto u s).sc = s.sc ∧ (foldInto u s).gw = s.gw ∧ (foldInto u s).sb = s.sb
    ∧ (foldInto u s).sec = s.sec := by
  simp only [foldInto]
  (repeat' split) <;> simp

@[simp] theorem limitEvent_keeps (r : Rec) (t next : Nat) (s : State) :
    (limitEvent r t next s).pending = s.pending ∧ (limitEvent r t next s).out = s.out ∧ (limitEvent r t next s).fresh = s.fresh ∧ (limitEvent r t next s).dir = s.dir
    ∧ (limitEvent r t next s).hdr = s.hdr ∧ (limitEvent r t next s).ctx = s.ctx ∧ (limitEvent r t next s).jr = s.jr ∧ (limitEvent r t next s).pw = s.pw
    ∧ (limitEvent r t next s).ck = s.ck ∧ (limitEvent r t next s).bt = s.bt ∧ (limitEvent r t next s).we = s.we ∧ (limitEvent r t next s).en = s.en
    ∧ (limitEvent r t next s).fq = s.fq ∧ (limitEvent r t next s).fuse = s.fuse ∧ (limitEvent r t next s).fuseOn = s.fuseOn ∧ (limitEvent r t next s).br = s.br
    ∧ (limitEvent r t next s).views = s.views ∧ (limitEvent r t next s).tenants = s.tenants ∧ (limitEvent r t next s).shedPin = s.shedPin ∧ (limitEvent r t next s).co = s.co
    ∧ (limitEvent r t next s).sy = s.sy ∧ (limitEvent r t next s).jb = s.jb ∧ (limitEvent r t next s).hbm = s.hbm ∧ (limitEvent r t next s).ner = s.ner
    ∧ (limitEvent r t next s).io = s.io ∧ (limitEvent r t next s).sc = s.sc ∧ (limitEvent r t next s).gw = s.gw ∧ (limitEvent r t next s).sb = s.sb
    ∧ (limitEvent r t next s).sec = s.sec := by
  simp only [limitEvent]
  (repeat' split) <;> simp

@[simp] theorem dryTake_keeps (s : State) :
    (dryTake s).pending = s.pending ∧ (dryTake s).out = s.out ∧ (dryTake s).fresh = s.fresh ∧ (dryTake s).dir = s.dir
    ∧ (dryTake s).hdr = s.hdr ∧ (dryTake s).ctx = s.ctx ∧ (dryTake s).jr = s.jr ∧ (dryTake s).pw = s.pw
    ∧ (dryTake s).ck = s.ck ∧ (dryTake s).bt = s.bt ∧ (dryTake s).we = s.we ∧ (dryTake s).en = s.en
    ∧ (dryTake s).fq = s.fq ∧ (dryTake s).fuse = s.fuse ∧ (dryTake s).fuseOn = s.fuseOn ∧ (dryTake s).br = s.br
    ∧ (dryTake s).views = s.views ∧ (dryTake s).tenants = s.tenants ∧ (dryTake s).shedPin = s.shedPin ∧ (dryTake s).co = s.co
    ∧ (dryTake s).sy = s.sy ∧ (dryTake s).jb = s.jb ∧ (dryTake s).hbm = s.hbm ∧ (dryTake s).ner = s.ner
    ∧ (dryTake s).io = s.io ∧ (dryTake s).sc = s.sc ∧ (dryTake s).gw = s.gw ∧ (dryTake s).sb = s.sb
    ∧ (dryTake s).sec = s.sec := by
  simp only [dryTake]
  refine ⟨?_, ?_, ?_, ?_, ?_, ?_, ?_, ?_, ?_, ?_, ?_, ?_, ?_, ?_, ?_, ?_, ?_, ?_, ?_, ?_, ?_, ?_, ?_, ?_, ?_, ?_, ?_, ?_, ?_⟩
  · exact (foldl_keeps State.pending _ (by simp) _ _).trans (by split <;> simp)
  · exact (foldl_keeps State.out _ (by simp) _ _).trans (by split <;> simp)
  · exact (foldl_keeps State.fresh _ (by simp) _ _).trans (by split <;> simp)
  · exact (foldl_keeps State.dir _ (by simp) _ _).trans (by split <;> simp)
  · exact (foldl_keeps State.hdr _ (by simp) _ _).trans (by split <;> simp)
  · exact (foldl_keeps State.ctx _ (by simp) _ _).trans (by split <;> simp)
  · exact (foldl_keeps State.jr _ (by simp) _ _).trans (by split <;> simp)
  · exact (foldl_keeps State.pw _ (by simp) _ _).trans (by split <;> simp)
  · exact (foldl_keeps State.ck _ (by simp) _ _).trans (by split <;> simp)
  · exact (foldl_keeps State.bt _ (by simp) _ _).trans (by split <;> simp)
  · exact (foldl_keeps State.we _ (by simp) _ _).trans (by split <;> simp)
  · exact (foldl_keeps State.en _ (by simp) _ _).trans (by split <;> simp)
  · exact (foldl_keeps State.fq _ (by simp) _ _).trans (by split <;> simp)
  · exact (foldl_keeps State.fuse _ (by simp) _ _).trans (by split <;> simp)
  · exact (foldl_keeps State.fuseOn _ (by simp) _ _).trans (by split <;> simp)
  · exact (foldl_keeps State.br _ (by simp) _ _).trans (by split <;> simp)
  · exact (foldl_keeps State.views _ (by simp) _ _).trans (by split <;> simp)
  · exact (foldl_keeps State.tenants _ (by simp) _ _).trans (by split <;> simp)
  · exact (foldl_keeps State.shedPin _ (by simp) _ _).trans (by split <;> simp)
  · exact (foldl_keeps State.co _ (by simp) _ _).trans (by split <;> simp)
  · exact (foldl_keeps State.sy _ (by simp) _ _).trans (by split <;> simp)
  · exact (foldl_keeps State.jb _ (by simp) _ _).trans (by split <;> simp)
  · exact (foldl_keeps State.hbm _ (by simp) _ _).trans (by split <;> simp)
  · exact (foldl_keeps State.ner _ (by simp) _ _).trans (by split <;> simp)
  · exact (foldl_keeps State.io _ (by simp) _ _).trans (by split <;> simp)
  · exact (foldl_keeps State.sc _ (by simp) _ _).trans (by split <;> simp)
  · exact (foldl_keeps State.gw _ (by simp) _ _).trans (by split <;> simp)
  · exact (foldl_keeps State.sb _ (by simp) _ _).trans (by split <;> simp)
  · exact (foldl_keeps State.sec _ (by simp) _ _).trans (by split <;> simp)

@[simp] theorem dryFirst_keeps (s : State) :
    (dryFirst s).pending = s.pending ∧ (dryFirst s).out = s.out ∧ (dryFirst s).fresh = s.fresh ∧ (dryFirst s).dir = s.dir
    ∧ (dryFirst s).hdr = s.hdr ∧ (dryFirst s).ctx = s.ctx ∧ (dryFirst s).jr = s.jr ∧ (dryFirst s).pw = s.pw
    ∧ (dryFirst s).ck = s.ck ∧ (dryFirst s).bt = s.bt ∧ (dryFirst s).we = s.we ∧ (dryFirst s).en = s.en
    ∧ (dryFirst s).fq = s.fq ∧ (dryFirst s).fuse = s.fuse ∧ (dryFirst s).fuseOn = s.fuseOn ∧ (dryFirst s).br = s.br
    ∧ (dryFirst s).views = s.views ∧ (dryFirst s).tenants = s.tenants ∧ (dryFirst s).shedPin = s.shedPin ∧ (dryFirst s).co = s.co
    ∧ (dryFirst s).sy = s.sy ∧ (dryFirst s).jb = s.jb ∧ (dryFirst s).hbm = s.hbm ∧ (dryFirst s).ner = s.ner
    ∧ (dryFirst s).io = s.io ∧ (dryFirst s).sc = s.sc ∧ (dryFirst s).gw = s.gw ∧ (dryFirst s).sb = s.sb
    ∧ (dryFirst s).sec = s.sec := by
  simp only [dryFirst]
  split <;> simp

@[simp] theorem raiseSev_keeps (code sev die inst a b : Nat) (s : State) :
    (raiseSev code sev die inst a b s).pending = s.pending ∧ (raiseSev code sev die inst a b s).out = s.out ∧ (raiseSev code sev die inst a b s).fresh = s.fresh ∧ (raiseSev code sev die inst a b s).dir = s.dir
    ∧ (raiseSev code sev die inst a b s).hdr = s.hdr ∧ (raiseSev code sev die inst a b s).ctx = s.ctx ∧ (raiseSev code sev die inst a b s).jr = s.jr ∧ (raiseSev code sev die inst a b s).pw = s.pw
    ∧ (raiseSev code sev die inst a b s).ck = s.ck ∧ (raiseSev code sev die inst a b s).bt = s.bt ∧ (raiseSev code sev die inst a b s).we = s.we ∧ (raiseSev code sev die inst a b s).en = s.en
    ∧ (raiseSev code sev die inst a b s).fq = s.fq ∧ (raiseSev code sev die inst a b s).fuse = s.fuse ∧ (raiseSev code sev die inst a b s).fuseOn = s.fuseOn ∧ (raiseSev code sev die inst a b s).br = s.br
    ∧ (raiseSev code sev die inst a b s).views = s.views ∧ (raiseSev code sev die inst a b s).tenants = s.tenants ∧ (raiseSev code sev die inst a b s).shedPin = s.shedPin ∧ (raiseSev code sev die inst a b s).co = s.co
    ∧ (raiseSev code sev die inst a b s).sy = s.sy ∧ (raiseSev code sev die inst a b s).jb = s.jb ∧ (raiseSev code sev die inst a b s).hbm = s.hbm ∧ (raiseSev code sev die inst a b s).ner = s.ner
    ∧ (raiseSev code sev die inst a b s).io = s.io ∧ (raiseSev code sev die inst a b s).sc = s.sc ∧ (raiseSev code sev die inst a b s).gw = s.gw ∧ (raiseSev code sev die inst a b s).sb = s.sb
    ∧ (raiseSev code sev die inst a b s).sec = s.sec := by
  simp only [raiseSev]
  (repeat' split) <;> simp

@[simp] theorem raise_keeps (code die inst a b : Nat) (s : State) :
    (raise code die inst a b s).pending = s.pending ∧ (raise code die inst a b s).out = s.out ∧ (raise code die inst a b s).fresh = s.fresh ∧ (raise code die inst a b s).dir = s.dir
    ∧ (raise code die inst a b s).hdr = s.hdr ∧ (raise code die inst a b s).ctx = s.ctx ∧ (raise code die inst a b s).jr = s.jr ∧ (raise code die inst a b s).pw = s.pw
    ∧ (raise code die inst a b s).ck = s.ck ∧ (raise code die inst a b s).bt = s.bt ∧ (raise code die inst a b s).we = s.we ∧ (raise code die inst a b s).en = s.en
    ∧ (raise code die inst a b s).fq = s.fq ∧ (raise code die inst a b s).fuse = s.fuse ∧ (raise code die inst a b s).fuseOn = s.fuseOn ∧ (raise code die inst a b s).br = s.br
    ∧ (raise code die inst a b s).views = s.views ∧ (raise code die inst a b s).tenants = s.tenants ∧ (raise code die inst a b s).shedPin = s.shedPin ∧ (raise code die inst a b s).co = s.co
    ∧ (raise code die inst a b s).sy = s.sy ∧ (raise code die inst a b s).jb = s.jb ∧ (raise code die inst a b s).hbm = s.hbm ∧ (raise code die inst a b s).ner = s.ner
    ∧ (raise code die inst a b s).io = s.io ∧ (raise code die inst a b s).sc = s.sc ∧ (raise code die inst a b s).gw = s.gw ∧ (raise code die inst a b s).sb = s.sb
    ∧ (raise code die inst a b s).sec = s.sec := by
  simp [raise]

@[simp] theorem jWrite_keeps (mk : Nat → JEntry) (s : State) :
    (jWrite mk s).pending = s.pending ∧ (jWrite mk s).out = s.out ∧ (jWrite mk s).fresh = s.fresh ∧ (jWrite mk s).rf = s.rf
    ∧ (jWrite mk s).dir = s.dir ∧ (jWrite mk s).hdr = s.hdr ∧ (jWrite mk s).ctx = s.ctx ∧ (jWrite mk s).pw = s.pw
    ∧ (jWrite mk s).ck = s.ck ∧ (jWrite mk s).bt = s.bt ∧ (jWrite mk s).ev = s.ev ∧ (jWrite mk s).we = s.we
    ∧ (jWrite mk s).en = s.en ∧ (jWrite mk s).fq = s.fq ∧ (jWrite mk s).fuse = s.fuse ∧ (jWrite mk s).fuseOn = s.fuseOn
    ∧ (jWrite mk s).br = s.br ∧ (jWrite mk s).views = s.views ∧ (jWrite mk s).tenants = s.tenants ∧ (jWrite mk s).shedPin = s.shedPin
    ∧ (jWrite mk s).co = s.co ∧ (jWrite mk s).sy = s.sy ∧ (jWrite mk s).jb = s.jb ∧ (jWrite mk s).hbm = s.hbm
    ∧ (jWrite mk s).ner = s.ner ∧ (jWrite mk s).io = s.io ∧ (jWrite mk s).sc = s.sc ∧ (jWrite mk s).gw = s.gw
    ∧ (jWrite mk s).sb = s.sb ∧ (jWrite mk s).sec = s.sec := by
  simp [jWrite]

@[simp] theorem jMark_keeps (code arg : Nat) (s : State) :
    (jMark code arg s).pending = s.pending ∧ (jMark code arg s).fresh = s.fresh ∧ (jMark code arg s).rf = s.rf ∧ (jMark code arg s).dir = s.dir
    ∧ (jMark code arg s).ctx = s.ctx ∧ (jMark code arg s).pw = s.pw ∧ (jMark code arg s).ck = s.ck ∧ (jMark code arg s).bt = s.bt
    ∧ (jMark code arg s).ev = s.ev ∧ (jMark code arg s).we = s.we ∧ (jMark code arg s).en = s.en ∧ (jMark code arg s).fq = s.fq
    ∧ (jMark code arg s).fuse = s.fuse ∧ (jMark code arg s).fuseOn = s.fuseOn ∧ (jMark code arg s).views = s.views ∧ (jMark code arg s).tenants = s.tenants
    ∧ (jMark code arg s).shedPin = s.shedPin ∧ (jMark code arg s).co = s.co ∧ (jMark code arg s).sy = s.sy ∧ (jMark code arg s).jb = s.jb
    ∧ (jMark code arg s).hbm = s.hbm ∧ (jMark code arg s).ner = s.ner ∧ (jMark code arg s).io = s.io ∧ (jMark code arg s).sc = s.sc
    ∧ (jMark code arg s).gw = s.gw ∧ (jMark code arg s).sb = s.sb ∧ (jMark code arg s).sec = s.sec := by
  simp [jMark]

@[simp] theorem jFinish_keeps (e : JEntry) (code : Nat) (s : State) :
    (jFinish e code s).pending = s.pending ∧ (jFinish e code s).out = s.out ∧ (jFinish e code s).fresh = s.fresh ∧ (jFinish e code s).rf = s.rf
    ∧ (jFinish e code s).dir = s.dir ∧ (jFinish e code s).hdr = s.hdr ∧ (jFinish e code s).ctx = s.ctx ∧ (jFinish e code s).pw = s.pw
    ∧ (jFinish e code s).ck = s.ck ∧ (jFinish e code s).bt = s.bt ∧ (jFinish e code s).ev = s.ev ∧ (jFinish e code s).we = s.we
    ∧ (jFinish e code s).en = s.en ∧ (jFinish e code s).fq = s.fq ∧ (jFinish e code s).fuse = s.fuse ∧ (jFinish e code s).fuseOn = s.fuseOn
    ∧ (jFinish e code s).br = s.br ∧ (jFinish e code s).views = s.views ∧ (jFinish e code s).tenants = s.tenants ∧ (jFinish e code s).shedPin = s.shedPin
    ∧ (jFinish e code s).co = s.co ∧ (jFinish e code s).sy = s.sy ∧ (jFinish e code s).jb = s.jb ∧ (jFinish e code s).hbm = s.hbm
    ∧ (jFinish e code s).ner = s.ner ∧ (jFinish e code s).io = s.io ∧ (jFinish e code s).sc = s.sc ∧ (jFinish e code s).gw = s.gw
    ∧ (jFinish e code s).sb = s.sb ∧ (jFinish e code s).sec = s.sec := by
  simp only [jFinish]
  (repeat' split) <;> simp

@[simp] theorem setResult_keeps (p : Page) (c : Client) (code : Nat) (u : Option Nat) (s : State) :
    (setResult p c code u s).pending = s.pending ∧ (setResult p c code u s).out = s.out ∧ (setResult p c code u s).fresh = s.fresh ∧ (setResult p c code u s).rf = s.rf
    ∧ (setResult p c code u s).dir = s.dir ∧ (setResult p c code u s).hdr = s.hdr ∧ (setResult p c code u s).jr = s.jr ∧ (setResult p c code u s).pw = s.pw
    ∧ (setResult p c code u s).ck = s.ck ∧ (setResult p c code u s).bt = s.bt ∧ (setResult p c code u s).ev = s.ev ∧ (setResult p c code u s).we = s.we
    ∧ (setResult p c code u s).en = s.en ∧ (setResult p c code u s).fq = s.fq ∧ (setResult p c code u s).fuse = s.fuse ∧ (setResult p c code u s).fuseOn = s.fuseOn
    ∧ (setResult p c code u s).br = s.br ∧ (setResult p c code u s).views = s.views ∧ (setResult p c code u s).tenants = s.tenants ∧ (setResult p c code u s).shedPin = s.shedPin
    ∧ (setResult p c code u s).co = s.co ∧ (setResult p c code u s).sy = s.sy ∧ (setResult p c code u s).jb = s.jb ∧ (setResult p c code u s).hbm = s.hbm
    ∧ (setResult p c code u s).ner = s.ner ∧ (setResult p c code u s).io = s.io ∧ (setResult p c code u s).sc = s.sc ∧ (setResult p c code u s).gw = s.gw
    ∧ (setResult p c code u s).sb = s.sb ∧ (setResult p c code u s).sec = s.sec := by
  simp [setResult]

@[simp] theorem recordDenied_keeps (c : Client) (p : Page) (off : Nat) (s : State) :
    (recordDenied c p off s).pending = s.pending ∧ (recordDenied c p off s).out = s.out ∧ (recordDenied c p off s).fresh = s.fresh ∧ (recordDenied c p off s).dir = s.dir
    ∧ (recordDenied c p off s).hdr = s.hdr ∧ (recordDenied c p off s).ctx = s.ctx ∧ (recordDenied c p off s).jr = s.jr ∧ (recordDenied c p off s).pw = s.pw
    ∧ (recordDenied c p off s).ck = s.ck ∧ (recordDenied c p off s).bt = s.bt ∧ (recordDenied c p off s).we = s.we ∧ (recordDenied c p off s).en = s.en
    ∧ (recordDenied c p off s).fq = s.fq ∧ (recordDenied c p off s).fuse = s.fuse ∧ (recordDenied c p off s).fuseOn = s.fuseOn ∧ (recordDenied c p off s).br = s.br
    ∧ (recordDenied c p off s).views = s.views ∧ (recordDenied c p off s).tenants = s.tenants ∧ (recordDenied c p off s).shedPin = s.shedPin ∧ (recordDenied c p off s).co = s.co
    ∧ (recordDenied c p off s).sy = s.sy ∧ (recordDenied c p off s).jb = s.jb ∧ (recordDenied c p off s).hbm = s.hbm ∧ (recordDenied c p off s).ner = s.ner
    ∧ (recordDenied c p off s).io = s.io ∧ (recordDenied c p off s).sc = s.sc ∧ (recordDenied c p off s).gw = s.gw ∧ (recordDenied c p off s).sb = s.sb
    ∧ (recordDenied c p off s).sec = s.sec := by
  simp [recordDenied]

@[simp] theorem refuse_keeps (p : Page) (c : Client) (code : Nat) (s : State) :
    (refuse p c code s).pending = s.pending ∧ (refuse p c code s).fresh = s.fresh ∧ (refuse p c code s).dir = s.dir ∧ (refuse p c code s).jr = s.jr
    ∧ (refuse p c code s).pw = s.pw ∧ (refuse p c code s).ck = s.ck ∧ (refuse p c code s).bt = s.bt ∧ (refuse p c code s).we = s.we
    ∧ (refuse p c code s).en = s.en ∧ (refuse p c code s).fq = s.fq ∧ (refuse p c code s).fuse = s.fuse ∧ (refuse p c code s).fuseOn = s.fuseOn
    ∧ (refuse p c code s).views = s.views ∧ (refuse p c code s).tenants = s.tenants ∧ (refuse p c code s).shedPin = s.shedPin ∧ (refuse p c code s).co = s.co
    ∧ (refuse p c code s).sy = s.sy ∧ (refuse p c code s).jb = s.jb ∧ (refuse p c code s).hbm = s.hbm ∧ (refuse p c code s).ner = s.ner
    ∧ (refuse p c code s).io = s.io ∧ (refuse p c code s).sc = s.sc ∧ (refuse p c code s).gw = s.gw ∧ (refuse p c code s).sb = s.sb
    ∧ (refuse p c code s).sec = s.sec := by
  simp only [refuse]
  (repeat' split) <;> simp

@[simp] theorem endCmd_keeps (p : Page) (code : Nat) (s : State) :
    (endCmd p code s).pending = s.pending ∧ (endCmd p code s).out = s.out ∧ (endCmd p code s).fresh = s.fresh ∧ (endCmd p code s).rf = s.rf
    ∧ (endCmd p code s).dir = s.dir ∧ (endCmd p code s).ctx = s.ctx ∧ (endCmd p code s).jr = s.jr ∧ (endCmd p code s).pw = s.pw
    ∧ (endCmd p code s).ck = s.ck ∧ (endCmd p code s).bt = s.bt ∧ (endCmd p code s).ev = s.ev ∧ (endCmd p code s).we = s.we
    ∧ (endCmd p code s).en = s.en ∧ (endCmd p code s).fq = s.fq ∧ (endCmd p code s).fuse = s.fuse ∧ (endCmd p code s).fuseOn = s.fuseOn
    ∧ (endCmd p code s).br = s.br ∧ (endCmd p code s).views = s.views ∧ (endCmd p code s).tenants = s.tenants ∧ (endCmd p code s).shedPin = s.shedPin
    ∧ (endCmd p code s).co = s.co ∧ (endCmd p code s).sy = s.sy ∧ (endCmd p code s).jb = s.jb ∧ (endCmd p code s).hbm = s.hbm
    ∧ (endCmd p code s).ner = s.ner ∧ (endCmd p code s).io = s.io ∧ (endCmd p code s).sc = s.sc ∧ (endCmd p code s).gw = s.gw
    ∧ (endCmd p code s).sb = s.sb ∧ (endCmd p code s).sec = s.sec := by
  simp only [endCmd]
  (repeat' split) <;> simp

@[simp] theorem endCmdWith_keeps (p : Page) (code u : Nat) (s : State) :
    (endCmdWith p code u s).pending = s.pending ∧ (endCmdWith p code u s).out = s.out ∧ (endCmdWith p code u s).fresh = s.fresh ∧ (endCmdWith p code u s).rf = s.rf
    ∧ (endCmdWith p code u s).dir = s.dir ∧ (endCmdWith p code u s).ctx = s.ctx ∧ (endCmdWith p code u s).jr = s.jr ∧ (endCmdWith p code u s).pw = s.pw
    ∧ (endCmdWith p code u s).ck = s.ck ∧ (endCmdWith p code u s).bt = s.bt ∧ (endCmdWith p code u s).ev = s.ev ∧ (endCmdWith p code u s).we = s.we
    ∧ (endCmdWith p code u s).en = s.en ∧ (endCmdWith p code u s).fq = s.fq ∧ (endCmdWith p code u s).fuse = s.fuse ∧ (endCmdWith p code u s).fuseOn = s.fuseOn
    ∧ (endCmdWith p code u s).br = s.br ∧ (endCmdWith p code u s).views = s.views ∧ (endCmdWith p code u s).tenants = s.tenants ∧ (endCmdWith p code u s).shedPin = s.shedPin
    ∧ (endCmdWith p code u s).co = s.co ∧ (endCmdWith p code u s).sy = s.sy ∧ (endCmdWith p code u s).jb = s.jb ∧ (endCmdWith p code u s).hbm = s.hbm
    ∧ (endCmdWith p code u s).ner = s.ner ∧ (endCmdWith p code u s).io = s.io ∧ (endCmdWith p code u s).sc = s.sc ∧ (endCmdWith p code u s).gw = s.gw
    ∧ (endCmdWith p code u s).sb = s.sb ∧ (endCmdWith p code u s).sec = s.sec := by
  simp only [endCmdWith]
  (repeat' split) <;> simp

@[simp] theorem commitCmd_keeps (p : Page) (s : State) :
    (commitCmd p s).pending = s.pending ∧ (commitCmd p s).out = s.out ∧ (commitCmd p s).fresh = s.fresh ∧ (commitCmd p s).rf = s.rf
    ∧ (commitCmd p s).dir = s.dir ∧ (commitCmd p s).hdr = s.hdr ∧ (commitCmd p s).ctx = s.ctx ∧ (commitCmd p s).pw = s.pw
    ∧ (commitCmd p s).ck = s.ck ∧ (commitCmd p s).bt = s.bt ∧ (commitCmd p s).ev = s.ev ∧ (commitCmd p s).we = s.we
    ∧ (commitCmd p s).en = s.en ∧ (commitCmd p s).fq = s.fq ∧ (commitCmd p s).fuse = s.fuse ∧ (commitCmd p s).fuseOn = s.fuseOn
    ∧ (commitCmd p s).br = s.br ∧ (commitCmd p s).views = s.views ∧ (commitCmd p s).tenants = s.tenants ∧ (commitCmd p s).shedPin = s.shedPin
    ∧ (commitCmd p s).co = s.co ∧ (commitCmd p s).sy = s.sy ∧ (commitCmd p s).jb = s.jb ∧ (commitCmd p s).hbm = s.hbm
    ∧ (commitCmd p s).ner = s.ner ∧ (commitCmd p s).io = s.io ∧ (commitCmd p s).sc = s.sc ∧ (commitCmd p s).gw = s.gw
    ∧ (commitCmd p s).sb = s.sb ∧ (commitCmd p s).sec = s.sec := by
  simp only [commitCmd]
  (repeat' split) <;> simp

@[simp] theorem replyGate_keeps (p : Page) (r : Req) (q : Option Nat) (s : State) :
    (replyGate p r q s).pending = s.pending ∧ (replyGate p r q s).out = s.out ∧ (replyGate p r q s).fresh = s.fresh ∧ (replyGate p r q s).rf = s.rf
    ∧ (replyGate p r q s).dir = s.dir ∧ (replyGate p r q s).hdr = s.hdr ∧ (replyGate p r q s).ctx = s.ctx ∧ (replyGate p r q s).jr = s.jr
    ∧ (replyGate p r q s).pw = s.pw ∧ (replyGate p r q s).ck = s.ck ∧ (replyGate p r q s).bt = s.bt ∧ (replyGate p r q s).ev = s.ev
    ∧ (replyGate p r q s).we = s.we ∧ (replyGate p r q s).en = s.en ∧ (replyGate p r q s).fq = s.fq ∧ (replyGate p r q s).fuse = s.fuse
    ∧ (replyGate p r q s).fuseOn = s.fuseOn ∧ (replyGate p r q s).br = s.br ∧ (replyGate p r q s).views = s.views ∧ (replyGate p r q s).tenants = s.tenants
    ∧ (replyGate p r q s).shedPin = s.shedPin ∧ (replyGate p r q s).co = s.co ∧ (replyGate p r q s).sy = s.sy ∧ (replyGate p r q s).jb = s.jb
    ∧ (replyGate p r q s).hbm = s.hbm ∧ (replyGate p r q s).ner = s.ner ∧ (replyGate p r q s).io = s.io ∧ (replyGate p r q s).sc = s.sc
    ∧ (replyGate p r q s).gw = s.gw ∧ (replyGate p r q s).sec = s.sec := by
  simp only [replyGate]
  (repeat' split) <;> simp

@[simp] theorem replyEnd_keeps (p : Page) (c : Client) (q : Nat) (s : State) :
    (replyEnd p c q s).pending = s.pending ∧ (replyEnd p c q s).out = s.out ∧ (replyEnd p c q s).fresh = s.fresh ∧ (replyEnd p c q s).rf = s.rf
    ∧ (replyEnd p c q s).dir = s.dir ∧ (replyEnd p c q s).hdr = s.hdr ∧ (replyEnd p c q s).ctx = s.ctx ∧ (replyEnd p c q s).jr = s.jr
    ∧ (replyEnd p c q s).pw = s.pw ∧ (replyEnd p c q s).ck = s.ck ∧ (replyEnd p c q s).bt = s.bt ∧ (replyEnd p c q s).ev = s.ev
    ∧ (replyEnd p c q s).we = s.we ∧ (replyEnd p c q s).en = s.en ∧ (replyEnd p c q s).fq = s.fq ∧ (replyEnd p c q s).fuse = s.fuse
    ∧ (replyEnd p c q s).fuseOn = s.fuseOn ∧ (replyEnd p c q s).br = s.br ∧ (replyEnd p c q s).views = s.views ∧ (replyEnd p c q s).tenants = s.tenants
    ∧ (replyEnd p c q s).shedPin = s.shedPin ∧ (replyEnd p c q s).co = s.co ∧ (replyEnd p c q s).sy = s.sy ∧ (replyEnd p c q s).jb = s.jb
    ∧ (replyEnd p c q s).hbm = s.hbm ∧ (replyEnd p c q s).ner = s.ner ∧ (replyEnd p c q s).io = s.io ∧ (replyEnd p c q s).sc = s.sc
    ∧ (replyEnd p c q s).gw = s.gw ∧ (replyEnd p c q s).sec = s.sec := by
  simp only [replyEnd]
  (repeat' split) <;> simp

@[simp] theorem finishCmd_keeps (p : Page) (code : Nat) (s : State) :
    (finishCmd p code s).pending = s.pending ∧ (finishCmd p code s).fresh = s.fresh ∧ (finishCmd p code s).rf = s.rf ∧ (finishCmd p code s).dir = s.dir
    ∧ (finishCmd p code s).pw = s.pw ∧ (finishCmd p code s).ck = s.ck ∧ (finishCmd p code s).bt = s.bt ∧ (finishCmd p code s).ev = s.ev
    ∧ (finishCmd p code s).we = s.we ∧ (finishCmd p code s).en = s.en ∧ (finishCmd p code s).fq = s.fq ∧ (finishCmd p code s).fuse = s.fuse
    ∧ (finishCmd p code s).fuseOn = s.fuseOn ∧ (finishCmd p code s).views = s.views ∧ (finishCmd p code s).tenants = s.tenants ∧ (finishCmd p code s).shedPin = s.shedPin
    ∧ (finishCmd p code s).co = s.co ∧ (finishCmd p code s).sy = s.sy ∧ (finishCmd p code s).jb = s.jb ∧ (finishCmd p code s).hbm = s.hbm
    ∧ (finishCmd p code s).ner = s.ner ∧ (finishCmd p code s).io = s.io ∧ (finishCmd p code s).sc = s.sc ∧ (finishCmd p code s).gw = s.gw
    ∧ (finishCmd p code s).sec = s.sec := by
  simp only [finishCmd]
  (repeat' split) <;> simp

@[simp] theorem abortCmd_keeps (p : Page) (s : State) :
    (abortCmd p s).pending = s.pending ∧ (abortCmd p s).fresh = s.fresh ∧ (abortCmd p s).rf = s.rf ∧ (abortCmd p s).dir = s.dir
    ∧ (abortCmd p s).pw = s.pw ∧ (abortCmd p s).ck = s.ck ∧ (abortCmd p s).bt = s.bt ∧ (abortCmd p s).ev = s.ev
    ∧ (abortCmd p s).we = s.we ∧ (abortCmd p s).en = s.en ∧ (abortCmd p s).fq = s.fq ∧ (abortCmd p s).fuse = s.fuse
    ∧ (abortCmd p s).fuseOn = s.fuseOn ∧ (abortCmd p s).views = s.views ∧ (abortCmd p s).tenants = s.tenants ∧ (abortCmd p s).shedPin = s.shedPin
    ∧ (abortCmd p s).co = s.co ∧ (abortCmd p s).sy = s.sy ∧ (abortCmd p s).jb = s.jb ∧ (abortCmd p s).hbm = s.hbm
    ∧ (abortCmd p s).ner = s.ner ∧ (abortCmd p s).io = s.io ∧ (abortCmd p s).sc = s.sc ∧ (abortCmd p s).gw = s.gw
    ∧ (abortCmd p s).sec = s.sec := by
  simp only [abortCmd]
  (repeat' split) <;> simp

/-! ### Headers through the interrupt operations -/

@[simp] theorem hget_irqPulse_same (p : Page) (b : Nat) (s : State) :
    hget (irqPulse p b s) p = { hget s p with irqStat := putBit (hget s p).irqStat b true } := by
  simp [irqPulse]

theorem hget_irqPulse_other {p q : Page} (h : p ≠ q) (b : Nat) (s : State) : hget (irqPulse p b s) q = hget s q := by
  simp [irqPulse, hget_hupd_other h]

theorem hget_irqLevel_other {p q : Page} (h : p ≠ q) (b : Nat) (on : Bool) (s : State) :
    hget (irqLevel p b on s) q = hget s q := by
  simp [irqLevel, hget_hupd_other h]

/-- A level moves PG_IRQ_RAW and PG_IRQ_STAT alone. -/
theorem hget_irqLevel_same (p : Page) (b : Nat) (on : Bool) (s : State) :
    ∃ raw stat, hget (irqLevel p b on s) p = { hget s p with irqRaw := raw, irqStat := stat } := by
  simp only [irqLevel, hget_hupd_same]
  split
  · exact ⟨_, _, rfl⟩
  · exact ⟨_, (hget s p).irqStat, rfl⟩

@[simp] theorem hget_pgErr_same (p : Page) (code : Nat) (s : State) :
    hget (pgErr p code s) p = { hget s p with
      errCode := code, errCount := satN 16 ((hget s p).errCount + 1), irqStat := if (hget s p).errCount < 65535 then putBit (hget s p).irqStat 1 true else (hget s p).irqStat } := by
  simp only [pgErr]
  split <;> simp

theorem hget_pgErr_other {p q : Page} (h : p ≠ q) (code : Nat) (s : State) : hget (pgErr p code s) q = hget s q := by
  simp only [pgErr]
  split <;> simp [hget_irqPulse_other h, hget_hset_other h]

/-! ### What a page's executing command becomes -/

/-- An accepted command that its chapter ends: the final code stands beside it until COMMAND_COMPLETE (R75). -/
theorem endCmd_cmd {p : Page} {s : State} {r : CmdRun} (h : (hget s p).cmd = some r) (code : Nat) :
    (hget (endCmd p code s) p).cmd = some { r with final := some code } := by
  simp [endCmd, h]

theorem endCmdWith_cmd {p : Page} {s : State} {r : CmdRun} (h : (hget s p).cmd = some r) (code u : Nat) :
    (hget (endCmdWith p code u s) p).cmd = some { r with final := some code, upper := some u } := by
  simp [endCmdWith, h]

end Sys2Proof.Machine
end

