-- ==== Sys2Proof/Tests/Slice0.lean ====
section
/-! SUPPORT. Checks of the model's own reading: the manual's worked examples, operands that the syntax admits and the manual
refuses, and for every statement a state and operands that meet its hypotheses, with what the manual says comes of them. -/

open Sys2Proof Sys2Proof.Machine

set_option Elab.async false

namespace Sys2Proof.Tests

/-! ### Small states -/

/-- What `P` says of the state after command `c`. -/
def after (c : Instr) (s : State) (P : State → Bool) : Bool :=
  match exec c s with
  | .next t => P t
  | _ => false

/-- The hub runs from the crystal, its service cores too, PCIe is up, and 1 s of device time has passed. -/
def hub : State :=
  rset (hubPage .powerState) Reg.powerState.V48 4800 <|
  rset (hubPage .bridge) Reg.bridge.RATE 5
    { State.reset with
      pw := { mode := .trickle, phase := .ready, qualified := true }
      bt := { running := true }
      fuse := { fwKeyHash := 0 }
      fuseOn := { fwKeyHash := 0 }
      ck := { dt := 1000000000, src := .pll } }

/-- A request of client `c` with argument `a`. -/
def ask (c : Client) (a : Word) : Req := { client := c, source := .pcie, arg := a, tag := 7 }

/-- The page's header with some fields changed. -/
def head (p : Page) (f : Header → Header) (s : State) : State := hset p (f (hget s p)) s

/-- The page has an allotment and its grant. -/
def granted (p : Page) (s : State) : State := head p (fun h => { h with allotReq := 100, grant := 100 }) s

/-- The hub in FLOW with all twelve dies powered. -/
def flow : State :=
  rset (hubPage .powerState) Reg.powerState.DIE_ON 0xFFF { hub with pw := { hub.pw with mode := .flow } }

/-- The final code of the page's executing command. -/
def finalOf (t : State) (p : Page) : Option Nat := (hget t p).cmd.bind (·.final)

/-- Every powered die goes down. -/
def allFall (s t : State) : Bool := (List.range 12).all fun d => !diePowered s d || t.pw.falling.contains d

def port : Page := pageOf .canPort 0 12
def bootP : Page := hubPage .boot

/-- The page executes a command of the site bus, whose entry the journal holds. -/
def busy (p : Page) (op : Nat) (r : Req) (s : State) : State := accepted s p op r

/-- DRY with every wake source enabled and V48_IN at 48.0 V. -/
def dry : State :=
  rset wakePage Reg.wake.WAKE_EN 0x1FFF (rset timePage Reg.time.XTAL32_OK 1 (rset (hubPage .powerState) Reg.powerState.V48 4800
    { State.reset with ck := { State.reset.ck with dt := 5000000, ticks := 1000 }, fuse := { fwKeyHash := 0 }, fuseOn := { fwKeyHash := 0 } }))

/-! ### The queue, reset and every step -/

theorem test_step_runs_front :
    (let s := { hub with pending := [.quiesceReq .pf0 { blk := .boot, inst := 0, die := 12 } true, .tapReset] }
     s.pending = .quiesceReq .pf0 (hubPage .boot) true :: [.tapReset]
       ∧ (match step s with
          | .next t => (hget t (hubPage .boot)).quiesce && t.pending == [.tapReset]
          | _ => false) = true)
    ∧ hub.pending = []
    ∧ (match step hub with
       | .next t => decide (hub.ck.dt < t.ck.dt)
       | _ => false) = true := by decide +kernel

theorem test_reset_is_sound : Sound State.reset ∧ Sound hub := by
  unfold Sound journalWf; decide +kernel

theorem test_step_next : (match step State.reset with
    | .next _ => true
    | _ => false) = true := by decide +kernel


/-! ### Commands that cannot occur -/

/-- A compute die has no journal page; a hub has no page of a core. -/
theorem test_wf_page : WellFormed (.blockEnable .pf0 (pageOf .journal 0 3)) = false ∧ WellFormed (.allotRequest .pf0 (pageOf .core 0 12) 5) = false
    ∧ WellFormed (.blockEnable .pf0 (pageOf .core 15 11)) = true ∧ WellFormed (.blockEnable .pf0 (pageOf .core 16 11)) = false
    ∧ WellFormed (.blockEnable .pf0 (pageOf .nerius 1 3)) = true ∧ WellFormed (.blockEnable .pf0 (pageOf .nerius 1 0)) = false
    ∧ WellFormed (.countWrite .pf0 (pageOf .syncBank 0 2) 0 0) = false ∧ WellFormed (.energyRecordFetch .pf0 (hubPage .weir) 0) = false
    ∧ WellFormed (.lateResponse (pageOf .core 0 2) (hubPage .weir) false 0) = false := by decide +kernel

/-- Readings wider than their registers, and too few of them. -/
theorem test_wf_readings : WellFormed (.brownout 65536) = false ∧ WellFormed (.auxGrantExcess [1, 2]) = false
    ∧ WellFormed (.auxLimitEnter 2 65536) = false
    ∧ WellFormed (.correct
        { v48 := 4800, iin0 := 65536, iin1 := 0, iout0 := 0, iout1 := 0, viv0 := 0, viv1 := 0,
          aux := List.replicate 8 0, excursion := false, events := [] }) = false := by decide +kernel

/-- No CAN frame carries 9 bytes without FD, or a 12-bit identifier without IDE; no camera pixel has 17 bits. -/
theorem test_wf_frames : (let f : CanFrame := { ident := 5, ide := false, fdf := false, brs := false, payload := List.replicate 9 0 }
    WellFormed (.canFrameRx 0 f) = false ∧ WellFormed (.canFrameRx 0 { f with fdf := true }) = false
      ∧ WellFormed (.canFrameRx 0 { f with fdf := true, payload := List.replicate 12 0 }) = true
      ∧ WellFormed (.canFrameRx 0 { f with ident := 2048, payload := [] }) = false
      ∧ WellFormed (.canFrameRx 0 { f with brs := true, payload := [] }) = false)
    ∧ WellFormed (.csiFrameStart { counter := 0, lines := [[65536]], crcOk := true, eccBad := false, eccCorrected := 0, ignored := 0 }) = false
    ∧ WellFormed (.testPatternInject [[65536]]) = false := by decide +kernel

theorem test_wf_ranges : WellFormed (.bar2Write 0 [] false) = false ∧ WellFormed (.bar2Read 0 4097) = false
    ∧ WellFormed (.atomicFetchAdd .pf0 (.bar2 0) false (2 ^ 32)) = false ∧ WellFormed (.atomicCas .pf0 (.bar2 0) false 1 (2 ^ 32)) = false
    ∧ WellFormed (.patrolScrub 0 33) = false ∧ WellFormed (.jobFault 0 0 none 0) = false ∧ WellFormed (.jobFault 0 9 none 0) = false := by
  decide +kernel

theorem test_wf_nerius (f : NerFrame) (h : 8192 < f.payload.length) : WellFormed (.wack 0 f) = false := by
  simp [WellFormed, NerFrame.wf]; omega
/-! ### Registers and headers (chapters 02 and 03) -/

theorem test_block_enable : (let s := granted port hub
    reachesCtrl s .pf0 port = true ∧ (hget s port).en = false ∧ grantOk s port = true ∧ enableBad s port = false
      ∧ after (.blockEnable .pf0 port) s (fun t => (hget t port).en) = true)
    ∧ reachesCtrl hub .pf0 port = true ∧ (hget hub port).en = false ∧ grantOk hub port = false
    ∧ after (.blockEnable .pf0 port) hub (fun t => !(hget t port).en && (hget t port).errCode == 0x0101
        && (hget t port).errCount == 1 && t.rf == hub.rf) = true := by decide +kernel

theorem test_block_disable_quiesce : (let s := head port (fun h => { h with en := true }) hub
    reachesCtrl s .siteBus port = true ∧ (hget s port).en = true ∧ port.blk ≠ .siteChannel
      ∧ after (.blockDisable .siteBus port) s (fun t => !(hget t port).en) = true
      ∧ after (.quiesceReq .siteBus port true) s (fun t => (hget t port).quiesce && (hget t port).en) = true) := by
  decide +kernel

theorem test_drain_phases : port.listed = true ∧ port.die ≤ 15
    ∧ (let s := head port (fun h => { h with en := true }) hub
       reachesCtrl s .pf0 port = true ∧ (hget s port).phase = .run ∧ (hget s port).resetReq = false
         ∧ after (.drainReq .pf0 port) s (fun t => draining t port && (hget t port).drainReq && (hget t port).cmd.isNone
             && (hget t port).phase == (if pageAlone port.blk then .drained else .draining)) = true)
    ∧ (let s := head port (fun h => { h with en := true, phase := .drained, drainReq := true }) hub
       reachesCtrl s .pf0 port = true
         ∧ after (.drainClear .pf0 port) s (fun t => (hget t port).phase == .run && !(hget t port).en
             && !(hget t port).drainReq) = true)
    ∧ (let s := head port (fun h => { h with en := true, phase := .draining, drainReq := true }) hub
       reachesCtrl s .pf0 port = true
         ∧ after (.drainClear .pf0 port) s (fun t => (hget t port).phase == .draining && !(hget t port).drainReq) = true
         ∧ after (.drainComplete port) s (fun t => (hget t port).phase == .drained && bitAt (hget t port).irqStat 4) = true)
    ∧ (let s := head port (fun h => { h with en := true, phase := .draining }) hub
       (hget s port).resetReq = false
         ∧ after (.drainComplete port) s (fun t => (hget t port).phase == .run && !(hget t port).en) = true) := by
  decide +kernel

theorem test_reset_phases : port.listed = true ∧ port.die ≤ 15
    ∧ (let s := head port (fun h => { h with en := true, phase := .drained, fault := true, errCode := 6, errCount := 3, lock := 1 }) hub
       reachesCtrl s .pf0 port = true
         ∧ after (.resetReq .pf0 port) s (fun t => (hget t port).phase == .inReset && offline t port && (hget t port).resetReq
             && !(hget t port).en && !(hget t port).fault && (hget t port).errCode == 0 && (hget t port).errCount == 0
             && (hget t port).lock == 1) = true)
    ∧ (let s := head port (fun h => { h with en := true }) hub
       reachesCtrl s .pf0 port = true
         ∧ after (.resetReq .pf0 port) s (fun t => (hget t port).resetReq && (hget t port).cmd.isNone
             && (hget t port).phase == (if pageAlone port.blk then .inReset else .draining)) = true)
    ∧ (let s := head port (fun h => { h with phase := .inReset, resetReq := true, drainReq := true, quiesce := true }) hub
       after (.resetEnd port) s (fun t => (hget t port).phase == .draining && !(hget t port).en && !(hget t port).resetReq
             && (hget t port).drainReq && (hget t port).quiesce) = true) := by
  decide +kernel

theorem test_drain_aborts : (let s := busy bootP 1 (ask .pf0 0) hub
    bootP.listed = true ∧ bootP.die ≤ 15 ∧ reachesCtrl s .pf0 bootP = true ∧ (hget s bootP).phase = .run
      ∧ (hget s bootP).cmd = some (cmdOf hub 1 (ask .pf0 0)) ∧ pageAlone bootP.blk = true
      ∧ (jEntry s 1).isSome = true
      ∧ after (.drainReq .pf0 bootP) s (fun t => (hget t bootP).cmd.isNone && (cget t bootP .pf0).result % 65536 == 0x010B
          && (jEntry t 1).map (·.result) == some 0x010B) = true
      ∧ after (.resetReq .pf0 bootP) s (fun t => (hget t bootP).cmd.isNone
          && (cget t bootP .pf0).result % 65536 == 0x010B) = true) := by decide +kernel

theorem test_header_writes : (let s := head port (fun h => { h with irqStat := 0x13, errCode := 6, errCount := 2 }) hub
    reachesPage s .pf0 port = true ∧ Client.isVf .pf0 = false ∧ offline s port = false
      ∧ after (.irqStatClear .pf0 port 0x11) s (fun t => (hget t port).irqStat == 0x02) = true
      ∧ after (.pgErrClear .pf0 port 0xFFFFFFFF) s (fun t => (hget t port).errCode == 0 && (hget t port).errCount == 0) = true
      ∧ after (.lockSet .pf0 port 0xFFFFFFFF) s (fun t => (hget t port).lock == lockMask port.blk) = true)
    ∧ (let s := head port (fun h => { h with phase := .inReset }) hub
       reachesPage s .pf0 port = true ∧ offline s port = true
         ∧ after (.lockSet .pf0 port 1) s (fun t => (hget t port).lock == 0 && (hget t port).errCode == 0x0006) = true) := by
  decide +kernel

theorem test_allotment : reachesCtrl hub .pf0 port = true ∧ hasAllotment port.blk = true
    ∧ after (.allotRequest .pf0 port 100) hub (fun t => (hget t port).allotReq == 100) = true
    ∧ reachesCtrl hub .pf0 bootP = true ∧ hasAllotment bootP.blk = false
    ∧ after (.allotRequest .pf0 bootP 100) hub (fun t => (hget t bootP).allotReq == 0) = true
    ∧ (let s := head port (fun h => { h with allotReq := 100 })
          { hub with we := { hub.we with waiters := [port], lastStep := some hub.ck.dt } }
       protRuns s = true ∧ s.we.lastStep = some s.ck.dt ∧ s.we.waiters.contains port = true ∧ (hget s port).grant < atV48 s (hget s port).allotReq
         ∧ grantFits s port (atV48 s (hget s port).allotReq) = true
         ∧ (s.we.waiters.any fun x => waitsBefore s x port && grantFits s x (atV48 s (hget s x).allotReq)) = false
         ∧ after (.allotGrant port) s (fun t => (hget t port).grant == atV48 s 100 && t.we.waiters.isEmpty) = true) := by
  decide +kernel

/-- The worked examples of chapter 02: page 0x2A3 of die 6 lies at 0x01AA_3000, its broadcast alias at 0x03EA_3000. -/
theorem test_addresses : (6 <<< 22) ||| (0x2A3 <<< 12) = 0x01AA3000 ∧ (0x01AA3000 : Nat) / 2 ^ 22 = 6
    ∧ (0x03EA3000 : Nat) / 2 ^ 22 = 15 ∧ addrOf hub { blk := .dieFreq, inst := 0, die := 6 } 0x018 * 4 / 2 ^ 22 = 6
    ∧ addrOf hub headPage 0 * 4 = 0x03000000 := by decide +kernel

theorem test_register_write : (let a : BitVec 26 := BitVec.ofNat 26 (addrOf hub port 0 * 4)
    a.toNat / 2 ^ 22 ≠ 15 ∧ reachesPage hub .pf0 port = true
      ∧ placeOf hub .pf0 a.toNat = .page port
      ∧ (7#4 ≠ 15#4 ∧ after (.registerWrite .pf0 a 7#4 1) hub (fun t => t == pgErr port 0x0008 hub) = true)
      ∧ placeOf hub .pf0 (a + 0x018).toNat = .page port ∧ (a + 0x018).toNat % 4096 = 0x018
      ∧ after (.registerWrite .pf0 (a + 0x018) 15#4 0xFFFFFFFF) hub (fun t => (hget t port).irqEn == 0x1F && t.rf == hub.rf) = true
      ∧ placeOf hub .pf0 (a + 0x034).toNat = .page port ∧ (a + 0x034).toNat % 4096 = 0x034
      ∧ after (.registerWrite .pf0 (a + 0x034) 15#4 5) hub (fun t => t == cset port .pf0 { cget hub port .pf0 with arg := 5 } hub) = true
      ∧ placeOf hub .pf0 (a + 0x038).toNat = .page port ∧ (a + 0x038).toNat % 4096 = 0x038
      ∧ after (.registerWrite .pf0 (a + 0x038) 15#4 5) hub (fun t => t == cset port .pf0 { cget hub port .pf0 with tag := 5 } hub) = true
      ∧ placeOf hub .pf0 (a + 0x040).toNat = .page port ∧ (a + 0x040).toNat % 4096 = 0x040
      ∧ (let s := head port (fun h => { h with phase := .inReset }) hub
         reachesPage s .pf0 port = true ∧ placeOf s .pf0 (a + 0x040).toNat = .page port ∧ offline s port = true
          ∧ after (.registerWrite .pf0 (a + 0x040) 15#4 5) s (fun t => t == pgErr port 0x0006 s) = true)) := by decide +kernel

theorem test_register_store :
    (∀ x ∈ [(port, Reg.port.EXT1_OFF, 0x0503), (port, Reg.canPort.NOM_TSEG1, 0x1F00), (portPage 4, Reg.ethPort.MGMT_UDP, 0xFFFF),
        (portPage 5, Reg.uartPort.SILENCE, 0xFF01), (pageOf .bridgeDma 3 12, Reg.bridgeDma.SLOT, 0x001F01F0),
        (dualPage, Reg.dualIn.EPO_DISC, 1000),
        (hubPage .spiNor, Reg.spiNor.OVER, 0x10000), (slotPage 31, Reg.jobSlot.RESTART_LIMIT, 15)],
      let p := x.1
      let f := x.2.1
      let v : Word := BitVec.ofNat 32 x.2.2
      let a : BitVec 26 := BitVec.ofNat 26 (addrOf hub p f.off * 4)
      a.toNat / 2 ^ 22 ≠ 15 ∧ placeOf hub .pf0 a.toNat = .page p ∧ reachesBlock hub .pf0 p = true ∧ enActive hub p = false
        ∧ a.toNat % 4 = 0 ∧ f ∈ regsOf p.blk ∧ f.off = a.toNat % 4096 ∧ f.stride = 0 ∧ f.w ≤ 32 ∧ (f.acc = .rw ∨ f.acc = .rwl)
        ∧ f.perClient = false ∧ f.derived = false ∧ 0x040 ≤ f.off
        ∧ wordLocked hub p f.off = false ∧ wordOk hub p f.off v.toNat = true
        ∧ after (.registerWrite .pf0 a 15#4 v) hub (fun t => rget t p f == bitsOf v.toNat f.lo f.w && t.hdr == hub.hdr) = true)
    ∧ clientUp hub .pf0 = true ∧ placeOf hub .pf0 0x033FF000 = .unlisted headPage
    ∧ after (.registerWrite .pf0 0x033FF000 15#4 1) hub (fun t => t == pgErr headPage 0x0008 hub) = true := by decide +kernel

theorem test_broadcast : (let e : DirEntry := { page := pageOf .dieFreq 0 0, num := 74 }
    Client.isVf .pf0 = false ∧ clientUp hub .pf0 = true ∧ e ∈ dirCompute 0 ∧ e.num = (74 : Fin 1024).val
      ∧ bcastOf e.page.blk = true ∧ fuseDenied hub .pf0 e.page.blk = false
      ∧ (∀ n ∈ List.range 16, bitAt hub.fuseOn.denyPf0 n = false)
      ∧ after (.broadcastWrite .pf0 74 0x018 0x11) hub (fun t =>
          (List.range 12).all fun d => (hget t (pageOf .dieFreq 0 d)).irqEn == 0x11) = true)
    ∧ after (.broadcastWrite .pf0 74 0x030 1) hub (fun t => t == pgErr headPage 0x0008 hub) = true
    ∧ after (.broadcastWrite .pf0 74 0x02C 1) hub (fun t => t == pgErr headPage 0x0008 hub) = true
    ∧ (∀ e ∈ dirCompute 0, e.num = (75 : Fin 1024).val → bcastOf e.page.blk = false)
    ∧ after (.broadcastWrite .pf0 75 0x018 1) hub (fun t => t == pgErr headPage 0x0008 hub) = true := by decide +kernel

/-- The worked example of chapter 02: high word 3 under a low word 0xFFFF_FFF0; VF2's latch is its own. -/
theorem test_counter_latch : (let p := hubPage .journal
    let f := Reg.journal.NEXT_SEQ
    let s := { hub with jr := { hub.jr with nextSeq := 17179869168 } }
    let a : BitVec 26 := BitVec.ofNat 26 (addrOf hub p f.off * 4)
    clientUp s .pf0 = true ∧ a.toNat / 2 ^ 22 ≠ 15 ∧ placeOf s .pf0 a.toNat = .page p ∧ fuseDenied s .pf0 p.blk = false
      ∧ offline s p = false ∧ p.blk ≠ .time ∧ (counterAt p.blk (a.toNat % 4096 / 4 * 4)).isSome = true
      ∧ waits s .pf0 p = false
      ∧ after (.counterLowRead .pf0 a 15) s (fun t => (cget t p .pf0).latch == 3 && (cget t p (.vf 1)).latch == 0
          && blockWord t .pf0 p (f.off + 4) == 3 && t.out.getLast? == some (.completion .ok [0xF0, 0xFF, 0xFF, 0xFF])) = true) := by decide +kernel

theorem test_accepted : accepts hub bootP 1 (ask .pf0 5) = true
    ∧ (let t := accepted hub bootP 1 (ask .pf0 5)
       (cget t bootP .pf0).result = 0x00010001 ∧ (cget t bootP .pf0).arg = 5 ∧ (jEntry t 1).isSome = true
         ∧ t.jr.nextSeq = 2) := by decide +kernel

theorem test_refused : clientUp hub .pf0 = true ∧ vfBlind hub .pf0 bootP = none ∧ tooSoon hub = false ∧ hub.jr.deferred = []
    ∧ gate hub bootP .pf0 9 = some 0x0007
    ∧ (let s := busy bootP 1 (ask .firmware 0) hub
       let s := { s with ck := { s.ck with dt := s.ck.dt + 10000 } }
       tooSoon s = false ∧ s.jr.deferred = [] ∧ gate s bootP .pf0 1 = some 0x0002
         ∧ (let t := command bootP 1 (ask .pf0 0) id s
            (cget t bootP .pf0).result = 0x0002 ∧ (hget t bootP).errCode = 0x0002 ∧ t.jr = s.jr)) := by decide +kernel

theorem test_complete : (let s := endCmd bootP 0x0100 (busy bootP 1 (ask .pf0 5) hub)
    (hget s bootP).cmd.isSome = true ∧ ((hget s bootP).cmd.bind (·.final)) = some 0x0100 ∧ (jEntry s 1).isSome = true
      ∧ after (.commandComplete bootP) s (fun t => (hget t bootP).cmd.isNone && (cget t bootP .pf0).result == 0x00010100
          && bitAt (hget t bootP).irqStat 0 && (jEntry t 1).map (·.result) == some 0x0100 && t.jr.nextSeq == 2) = true
      ∧ (let s' := { s with jr := { s.jr with slots := [], nextSeq := 9000 } }
         jEntry s' 1 = none
           ∧ after (.commandComplete bootP) s' (fun t => t.jr.nextSeq == 9001
               && (jEntry t 9000).map (fun e => (e.kind, e.result, e.value, e.arg, e.tag)) == some (.completion, 0x0100, 1, 0, 7)) = true)) := by
  decide +kernel

theorem test_deferred : (let r := ask .pf0 0
    let w : Waiting := { page := bootP, client := .pf0, act := .cmd 2 r .ok [] }
    let next : Waiting := { page := bootP, client := .pf0, act := .ctrl (.quiesce true) }
    let s := { hub with jr := { hub.jr with deferred := [w, next] } }
    hubRuns s = true ∧ tooSoon s = false ∧ s.jr.writing = none ∧ gate s w.page .pf0 2 = none
      ∧ jRetry s r.client.index (addrOf s w.page 0x030) r.tag.toNat = none ∧ foreignSlot s r.client w.page = false
      ∧ waits s .pf0 bootP = true ∧ after (.lockSet .pf0 bootP 1) s (fun t => t.hdr == s.hdr && t.jr.deferred.length == 3) = true
      ∧ after .commandAcceptDeferred s (fun t => t == resumeAll .pf0 bootP [next] (effectOf w.page 2 r .ok []
          (accepted { s with jr := { s.jr with deferred := [] } } w.page 2 r))
          && (hget t bootP).quiesce && t.jr.deferred.isEmpty && (jEntry t 1).map (·.value) == some 2) = true) := by decide +kernel

/-- The first two phases of a waiting command's entry stand with KIND VOID while it waits (R86, R87). -/
theorem test_journal_phases : (let w : Waiting := { page := bootP, client := .pf0, act := .cmd 2 (ask .pf0 0) .ok [] }
    let s := jBegin { hub with jr := { hub.jr with deferred := [w] } }
    s.jr.writing = some 1 ∧ (jEntry s 1).map (·.kind) = some .void ∧ journalRead s 1 = (2, List.replicate 8 0)
      ∧ after .commandAcceptDeferred s (fun t => (jEntry t 1).map (·.kind) == some .command && t.jr.nextSeq == 2) = true) := by
  decide +kernel

theorem test_journal_fetch : reachesBlock hub .siteBus journalPage = true
    ∧ (let s := busy bootP 1 (ask .pf0 5) hub
       let s := rsetC .siteBus journalPage Reg.journal.RD_SEQ_LO 1 s
       after (.journalFetch .siteBus 0) s (fun t => rgetC t .siteBus journalPage Reg.journal.RD_STAT == 0
           && rgetC t .siteBus journalPage Reg.journal.RD_W 0 == 1 && rgetC t .siteBus journalPage Reg.journal.RD_W 5 == 1
           && rgetC t .siteBus journalPage Reg.journal.RD_W 6 == 5 && rgetC t .pf0 journalPage Reg.journal.RD_W 0 == 0
           && t.jr == s.jr) = true)
    ∧ after (.journalFetch .siteBus 1) hub (fun t => rgetC t .siteBus journalPage Reg.journal.RD_STAT == 2) = true := by decide +kernel

theorem test_control_precedence : (let a : BitVec 26 := BitVec.ofNat 26 (addrOf hub port 0x008 * 4)
    a.toNat / 2 ^ 22 ≠ 15 ∧ a.toNat % 4096 = 0x008 ∧ reachesCtrl hub .pf0 port = true ∧ placeOf hub .pf0 a.toNat = .page port
      ∧ bitAt (0xF : Word).toNat 3 = true
      ∧ after (.registerWrite .pf0 a 15#4 0xF) hub (fun t => after (.resetReq .pf0 port) hub (fun u => t == u)) = true
      ∧ after (.registerWrite .pf0 a 15#4 0x7) hub (fun t => after (.drainReq .pf0 port) hub (fun u => t == u)) = true
      ∧ (hget hub port).drainReq = false ∧ port.blk ≠ .stackCtrl ∧ (hget hub port).en = false ∧ grantOk hub port = false
      ∧ after (.registerWrite .pf0 a 15#4 0x3) hub (fun t => after (.quiesceReq .pf0 port true) hub (fun u => t == u)) = true
      ∧ after (.registerWrite .pf0 a 15#4 0x1) hub (fun t =>
          after (.blockEnable .pf0 port) (hset port { hget hub port with quiesce := false } hub) (fun u => t == u)
            && !(hget t port).en && (hget t port).errCode == 0x0101) = true) := by decide +kernel

theorem test_journal_reset : (let s := rsetC .pf0 journalPage Reg.journal.RD_W 9 (busy bootP 1 (ask .pf0 5) hub)
    reachesCtrl s .pf0 journalPage = true ∧ (hget s journalPage).phase = .run ∧ (hget s journalPage).cmd = none
      ∧ after (.resetReq .pf0 journalPage) s (fun t => rgetC t .pf0 journalPage Reg.journal.RD_STAT == 0
          && rgetC t .pf0 journalPage Reg.journal.RD_W 0 == 0 && t.jr.slots == s.jr.slots && t.jr.nextSeq == s.jr.nextSeq) = true) := by
  decide +kernel
/-! ### Supply and power states (chapter 04) -/

theorem test_brownout : hubRuns flow = true ∧ flow.pw.mode = .flow ∧ rbit flow powerPage Reg.powerState.BROWNOUT = false
    ∧ after (.brownout 3839) (granted powerPage flow) (fun t => rget t powerPage Reg.powerState.BROWNOUT == 1
        && rget t powerPage Reg.powerState.SUPPLY_FAULTS == 1 && (hget t powerPage).grant == 0
        && (List.range 12).all (fun d => (hget t (pageOf .diePower 0 d)).grant == 0)
        && allFall flow t && t.pw.mode == .flow) = true
    ∧ after (.brownout 3840) flow (fun t => t == flow) = true
    ∧ (let s := rset powerPage Reg.powerState.BROWNOUT 1 flow
       rbit s powerPage Reg.powerState.BROWNOUT = true
         ∧ after (.brownoutClear 3960) s (fun t => rget t powerPage Reg.powerState.BROWNOUT == 0
             && bitAt (hget t powerPage).irqStat 9 && t.pw.mode == s.pw.mode && t.pw.falling == s.pw.falling
             && rget t powerPage Reg.powerState.V48 == 3960) = true) := by decide +kernel

theorem test_enter_dry : (let s := rset timePage Reg.time.XTAL32_OK 1 { hub with hbm := { hub.hbm with data := [(5, 1)] } }
    hubRuns s = true ∧ rget s timePage Reg.time.XTAL32_OK = 1 ∧ rget s powerPage Reg.powerState.DIE_ON = 0 ∧ s.pw.falling = []
      ∧ after (.stageUndervoltage 3049) s (fun t => t.pw.mode == .dry && t.pw.dryWhy == .underVoltage
          && rget t powerPage Reg.powerState.DRY_CAUSE == 1 && t.hbm.data.isEmpty) = true
      ∧ after (.overvoltageTrip 6151) s (fun t => t.pw.mode == .dry && t.pw.dryWhy == .overVoltage
          && rget t powerPage Reg.powerState.DRY_CAUSE == 2 && t.hbm.data.isEmpty) = true
      ∧ accepts s powerPage 3 (ask .pf0 0) = true
      ∧ after (.enterDry (ask .pf0 0)) s (fun t => t.pw.mode == .dry && t.pw.dryWhy == .command
          && rget t powerPage Reg.powerState.DRY_CAUSE == 0 && t.hbm.data.isEmpty
          && jEntry t s.jr.nextSeq == some { entryOf s powerPage 3 (ask .pf0 0) with result := 0 }) = true)
    ∧ flow.pw.mode = .flow ∧ rget flow powerPage Reg.powerState.DIE_ON ≠ 0
    ∧ after (.stageUndervoltage 3049) flow (fun t => t.pw.dryWanted == some .underVoltage && allFall flow t) = true
    ∧ after (.overvoltageTrip 6151) flow (fun t => t.pw.dryWanted == some .overVoltage && allFall flow t) = true
    ∧ accepts flow powerPage 3 (ask .pf0 0) = true
    ∧ after (.enterDry (ask .pf0 0)) flow (fun t => t.pw.dryWanted == some .command && allFall flow t
        && jEntry t flow.jr.nextSeq == some { entryOf flow powerPage 3 (ask .pf0 0) with result := 0 }) = true := by
  decide +kernel

theorem test_stage_fault : hubRuns flow = true ∧ stageReports flow 13 = false ∧ stageReports flow 14 = false
    ∧ after (.stageFault 1 9#4) flow (fun t => (hget t (pageOf .powerStage 0 14)).fault
        && rget t (pageOf .powerStage 0 14) Reg.powerStage.OVERTEMP == 1
        && rget t (pageOf .powerStage 0 14) Reg.powerStage.IV_OV == 1
        && rget t (pageOf .powerStage 0 14) Reg.powerStage.IV_UV == 0
        && rget t powerPage Reg.powerState.STAGE_DEGRADED == 1
        && rget t powerPage Reg.powerState.SUPPLY_FAULTS == 1 && allFall flow t) = true := by decide +kernel

theorem test_cold_start : after .aoConverterStop flow (fun t => t.pw.mode == .off && t.jr == flow.jr && t.bt.flash == flow.bt.flash) = true
    ∧ (let s := { flow with pw := { flow.pw with mode := .off }, fuse := { flow.fuse with epoch := 3 },
                            jr := { flow.jr with nextSeq := 9, cycles := 4 }, hbm := { flow.hbm with data := [(5, 1)] },
                            co := { flow.co with sram := [(7, 1)], dsram := [(7, 1)] } }
       s.pw.mode = .off
         ∧ after .coldStart s (fun t => t.pw.mode == .dry && t.pw.dryWhy == .coldStart && t.ck.dt == 0
             && rget t powerPage Reg.powerState.DRY_CAUSE == 3 && t.jr.nextSeq == 9 && t.jr.slots == s.jr.slots
             && t.jr.cycles == 5 && t.fuse == s.fuse && t.bt.flash == s.bt.flash && t.ev.ff == s.ev.ff
             && t.co.sram.isEmpty && t.co.dsram.isEmpty && t.hbm.data.isEmpty && t.pending == s.pending) = true)
    ∧ State.reset.pw.mode = .dry ∧ State.reset.pw.dryWhy ≠ .command
    ∧ (∀ v ∈ [4000, 6000], after (.dryExitQualified v) State.reset (fun t => t.pw.mode == .booting && t.pw.phase == .refclk
        && rget t powerPage Reg.powerState.V48 == v && rget t wakePage Reg.wake.CAUSE_V48 == 1
        && rget t wakePage Reg.wake.CAUSE_VALID == 1) = true)
    ∧ (let s := { State.reset with pw := { State.reset.pw with dryWhy := .command } }
       s.pw.mode = .dry ∧ s.ck.pending = 0
         ∧ after (.dryExitQualified 4800) s (fun t => t.pw.mode == .dry && t.pw.qualified) = true
         ∧ after (.dryExitQualified 4800) { s with ck := { s.ck with pending := 0x21 } } (fun t => t.pw.mode == .booting
             && rget t wakePage Reg.wake.WAKE_CAUSE == 0x21) = true) := by decide +kernel

/-- The hub with the power-state page and die 4's to 7's power pages granted. -/
def readyToRise : State :=
  granted powerPage ([4, 5, 6, 7].foldl (fun s d => granted (pageOf .diePower 0 d) s) hub)

/-- The worked example of chapter 04: at 44.0 V the FLOW base request is 2,291 mA-in and a die's 426 mA-in; mask 0x0F0 raises
dies 4 to 7 in order. -/
theorem test_die_up : (let s := rset powerPage Reg.powerState.V48 4400 hub
      atV48 s 2100 = 2291 ∧ atV48 s 390 = 426)
    ∧ accepts readyToRise powerPage 1 (ask .pf0 0x0F0) = true ∧ recovery readyToRise = false
    ∧ grantOk readyToRise powerPage = true
    ∧ (∀ d : Fin 12, bitAt 0x0F0 d.val = true → grantOk readyToRise (pageOf .diePower 0 d.val) = true)
    ∧ after (.dieUp (ask .pf0 0x0F0)) readyToRise (fun t => t.pw.rising == some 4 && t.pw.upQueue == [5, 6, 7]
        && bitAt (rget t powerPage Reg.powerState.DIE_TRANS) 4) = true
    ∧ after (.dieUp (ask .pf0 0)) readyToRise (fun t => finalOf t powerPage == some 0x0100 && t.pw == readyToRise.pw) = true
    ∧ bitAt 0x001 0 = true ∧ grantOk readyToRise (pageOf .diePower 0 0) = false
    ∧ after (.dieUp (ask .pf0 0x001)) readyToRise (fun t => finalOf t powerPage == some 0x0101 && t.pw == readyToRise.pw) = true
    ∧ (let s := { readyToRise with pw := { readyToRise.pw with rising := some 4, upQueue := [5] } }
       s.we.ramp.contains (pageOf .diePower 0 4) = false ∧ hubRuns s = true
         ∧ after (.dieActive 4) s (fun t => diePowered t 4 && t.pw.mode == .flow && t.pw.rising == some 5 && t.pw.upQueue.isEmpty) = true
         ∧ after (.dieActive 4) { s with pw := { s.pw with upQueue := [] } } (fun t => t.pw.rising == none) = true) := by
  decide +kernel

theorem test_die_down : accepts flow powerPage 2 (ask .pf0 0x081) = true
    ∧ after (.dieDown (ask .pf0 0x081)) flow (fun t => t.pw.falling.contains 0 && t.pw.falling.contains 7 && !t.pw.falling.contains 1) = true
    ∧ accepts hub powerPage 2 (ask .pf0 0xFFF) = true
    ∧ after (.dieDown (ask .pf0 0xFFF)) hub (fun t => finalOf t powerPage == some 0) = true
    ∧ (let s := rset powerPage Reg.powerState.DIE_ON 0x800
          { flow with pw := { flow.pw with falling := [11] }, co := { flow.co with sram := [(176 * 2 ^ 22, 1), (191 * 2 ^ 22 + 3 * 2 ^ 20 - 1, 2)] } }
       11 ∈ s.pw.falling ∧ s.pw.mode = .flow
         ∧ after (.coreDomainDown 11) s (fun t => !diePowered t 11 && t.pw.falling.isEmpty && t.co.sram.isEmpty && t.pw.mode == .trickle) = true)
    ∧ (let s := rset powerPage Reg.powerState.V48_MIN 100 hub
       reachesBlock s .siteBus powerPage = true
         ∧ after (.v48MinWrite .siteBus 0) s (fun t => t == rset powerPage Reg.powerState.V48_MIN 4800 s) = true) := by
  decide +kernel
/-! ### Clocks, wake and time (chapter 05) -/

def wakeB (s t : State) (bit : Nat) : Bool :=
  if v48InRange s then t.pw.mode == .booting && t.pw.phase == .refclk && t.ck.wakeOut
      && bitAt (rget t wakePage Reg.wake.WAKE_CAUSE) bit && rget t wakePage Reg.wake.CAUSE_VALID == 1
  else t.pw.mode == .dry && bitAt t.ck.pending bit

/-- A wake frame for every module, FD base format without bit-rate switch. -/
def wakeFrame : CanFrame :=
  { ident := 0, ide := false, fdf := true, brs := false, payload := [1, 0, 0xFF, 0xFF, 0xFF, 0xFF] ++ List.replicate 10 0 }

theorem test_wake_sources : (let low := rset (hubPage .powerState) Reg.powerState.V48 3999 dry
    v48InRange dry = true ∧ v48InRange low = false ∧ dry.pw.mode = .dry
      ∧ (∀ s ∈ [dry, low],
          rget s timePage Reg.time.XTAL32_OK = 1 ∧ bitAt (rget s wakePage Reg.wake.GPIO_POL) 3 = true
            ∧ after .xtal32Fail s (fun t => wakeB s t 12 && rget t timePage Reg.time.XTAL32_OK == 0
                && rget t timePage Reg.time.DT_DEGRADED == 1 && t.ck.src == .wakeOsc && t.ck.dt == s.ck.dt) = true
            ∧ s.ck.alarm ≤ s.ck.dt ∧ wakeEn s 6 = true ∧ s.pw.exhausted = false
            ∧ after .alarmReached s (fun t => wakeB s t 6) = true
            ∧ wakeEn s 11 = true ∧ after (.wakePinLevel 4 true) s (fun t => wakeB s t 11) = true
            ∧ after (.wakePinLevel 4 false) s (fun t => t.pw == s.pw && t.rf == s.rf && Assoc.get t.ck.pins 4 == some false) = true
            ∧ (let u := { s with ck := { s.ck with windows := [(2, 900)], decoders := [2] } }
               wakeEn u 2 = true ∧ windowOpen u 2 = true ∧ u.ck.decoders.contains 2 = true ∧ wakeFrame.brs = false
                 ∧ wakePattern u 2 wakeFrame = true
                 ∧ after (.dryWakeFrameMatch 2 wakeFrame) u (fun t => wakeB u t 2 && t.ck.kept == some (2, wakeFrame)
                     && rget t wakePage Reg.wake.DRY_FRAMES == 1) = true))) := by decide +kernel

theorem test_alarm_while_hub_runs : (let s := rset timePage Reg.time.XTAL32_OK 1 hub
    hubRuns s = true ∧ rget s timePage Reg.time.XTAL32_OK = 1 ∧ s.ck.src = .pll ∧ s.ck.alarm ≤ s.ck.dt
      ∧ after .xtal32Fail s (fun t => rget t timePage Reg.time.XTAL32_OK == 0 && t.ck == s.ck && t.pw == s.pw) = true
      ∧ after .alarmReached s (fun t => bitAt (hget t wakePage).irqRaw 8 && t.pw == s.pw && t.ck.dt == s.ck.dt) = true) := by
  decide +kernel

theorem test_listen_windows : dry.pw.mode = .dry ∧ wakeEn dry 3 = true
    ∧ after (.canActivityEdge 3 40) dry (fun t => t.ck.oscOn && t.ck.decoders.isEmpty && Assoc.get t.ck.windows 3 == some 1000
        && rget t wakePage Reg.wake.DRY_WINDOWS == 1) = true
    ∧ (let s := { dry with ck := { dry.ck with windows := [(3, 344), (1, 900)], decoders := [3], oscOn := true } }
       Assoc.get s.ck.windows 3 = some 344 ∧ 344 + 656 ≤ s.ck.ticks
         ∧ after (.canActivityEdge 1 11) s (fun t => Assoc.get t.ck.windows 1 == some 1000
             && t.ck.decoders == (if windowOpen s 1 then [1, 3] else [3])
             && rget t wakePage Reg.wake.DRY_WINDOWS == (if windowOpen s 1 then 0 else 1)) = true
         ∧ after (.listenWindowClose 3) s (fun t => t.ck.windows == [(1, 900)] && t.ck.oscOn && t.rf == s.rf) = true
         ∧ after (.listenWindowClose 3) { s with ck := { s.ck with windows := [(3, 344)] } }
             (fun t => t.ck.windows == [] && t.ck.decoders == [] && !t.ck.oscOn) = true)
    ∧ after (.wakeOscCalibrate 31250) hub (fun t => rget t wakePage Reg.wake.CAL_ERR == 0 && t.ck.lastCal == some hub.ck.dt) = true
    ∧ after (.wakeOscCalibrate 31219) hub (fun t => toInt 8 (rget t wakePage Reg.wake.CAL_ERR) == -1) = true := by decide +kernel

theorem test_refclk : (let s := { dry with pw := { dry.pw with mode := .booting, phase := .refclk }, ck := { dry.ck with wakeOut := true, refTries := 1 } }
    s.pw.mode = .booting ∧ s.pw.phase = .refclk ∧ refclkGood (some 100020000) = true ∧ refclkGood none = false
      ∧ after (.refclkCheck (some 100020000)) s (fun t => t.pw.phase == .cores && t.pw.mode == .booting
          && t.rf == s.rf) = true
      ∧ after (.refclkCheck none) s (fun t => t.pw.phase == .refWait 15000000 && !t.ck.wakeOut && t.ck.refTries == 2
          && rget t wakePage Reg.wake.REFCLK_RETRIES == 1) = true
      ∧ after (.refclkCheck none) { s with ck := { s.ck with refTries := 2 } } (fun t => t.pw.mode == .dry && !t.ck.wakeOut && t.pw.exhausted
          && t.pw.refFailed == 3) = true
      ∧ after .refclkRetry { s with pw := { s.pw with phase := .refWait 5000000 } } (fun t => t.pw.phase == .refclk && t.ck.wakeOut) = true) := by
  decide +kernel

theorem test_handover : (let s := { dry with ck := { dry.ck with src := .pll, frac := 9 } }
    s.pw.mode = .dry ∧ s.ck.src = .pll
      ∧ after .deviceTimeHandover s (fun t => t.ck.src == .xtal && t.ck.frac == 0 && t.ck.dt == s.ck.dt && !t.ck.wakeOut) = true)
    ∧ (let s := { hub with ck := { hub.ck with src := .xtal } }
       hubRuns s = true ∧ s.ck.src ≠ .pll
         ∧ after .deviceTimeHandover s (fun t => t.ck.src == .pll && t.ck.dt == s.ck.dt && !t.ck.oscOn) = true)
    ∧ hub.pending = [] ∧ hub.pw.mode ≠ .off ∧ hub.ck.src = .pll
    ∧ (match step hub with
       | .next t => t.ck.dt == hub.ck.dt + 1
       | _ => false) = true := by decide +kernel

/-- The worked example of chapter 05: 64 ticks of XTAL32 are 1,953,125 ns. -/
theorem test_sixty_four_ticks : (let s := { dry with ck := { dry.ck with src := .xtal, frac := 5, dt := 0x12A05F2000 } }
    s.ck.src = .xtal ∧ s.pw.mode ≠ .off ∧ s.pending = [] ∧ s.ck.frac < 64
      ∧ (match core.run 64 s with
         | .next t => decide (t.ck.dt = s.ck.dt + 1953125 ∧ t.ck.frac = 5)
         | _ => false) = true) := by decide +kernel

theorem test_wall_set : (let s := rset timePage Reg.time.STAGE_SEC_LO 100 (rset timePage Reg.time.STAGE_SEC_HI 1
      (rset timePage Reg.time.STAGE_NS 999999999 (rset timePage Reg.time.STAGE_UTC 37 hub)))
    accepts s timePage 1 (ask .pf0 0) = true ∧ ¬ (srcSel s = 2 ∨ srcSel s = 3)
      ∧ after (.wallSet (ask .pf0 0)) s (fun t => finalOf t timePage == some 0
          && wallNs t == ((4294967396999999999 : Nat) : Int) && rget t timePage Reg.time.UTC_OFFSET == 37
          && rget t timePage Reg.time.WALL_VALID == 1 && t.ck.dt == s.ck.dt) = true
      ∧ accepts s timePage 1 (ask .firmware 0) = true
      ∧ after (.wallSet (ask .firmware 0)) s (fun t => finalOf t timePage == some 0x0100 && t.ck == s.ck && t.rf == s.rf) = true
      ∧ (let u := rset timePage Reg.time.STAGE_NS 1000000000 s
         after (.wallSet (ask .pf0 0)) u (fun t => finalOf t timePage == some 0x0100 && t.ck == u.ck && t.rf == u.rf) = true)
      ∧ (let u := rset timePage Reg.time.STAGE_UTC 0 s
         rget u timePage Reg.time.STAGE_UTC = rget u timePage Reg.time.UTC_OFFSET
           ∧ after (.wallSet (ask .pf0 0)) u (fun t => rget t timePage Reg.time.LAST_STEP
               == ofInt 64 (((4294967396999999999 : Nat) : Int) - wallNs u)) = true)) := by decide +kernel

theorem test_alarm_write : (let s := rset wakePage Reg.wake.ALARM_LO 1000000000 hub
    reachesBlock s .siteBus wakePage = true
      ∧ after (.alarmWrite .siteBus 0) s (fun t => t.ck.alarm == 1000000000 && bitAt (hget t wakePage).irqRaw 8
          && rget t wakePage Reg.wake.ALARM_HI == 0 && t.pw == s.pw) = true
      ∧ after (.alarmWrite .siteBus 1) s (fun t => t.ck.alarm == 5294967296 && !bitAt (hget t wakePage).irqRaw 8
          && rget t wakePage Reg.wake.ALARM_HI == 1) = true) := by decide +kernel

/-- A PTP message of domain 0 over Ethernet. -/
def ptpAsk (k : PtpKind) : PtpMsg :=
  { kind := k, domain := 0, udp := false, oneStep := false, seqId := 5, stamp := 0, correction := 0 }

theorem test_ptp : (let s := rset timePage Reg.time.PTP_EN 1 (rset timePage Reg.time.PTP_ROLE 1 (rset timePage Reg.time.ONE_STEP 1 hub))
    hubRuns s = true ∧ rget s timePage Reg.time.DOMAIN = 0 ∧ rbit s timePage Reg.time.TRANSPORT = false ∧ ptpMasters s = true
      ∧ after (.ptpMessage (ptpAsk .delayReq)) s (fun t => t.out.length == s.out.length + 1) = true
      ∧ s.ck.lastSync = none
      ∧ after .ptpSyncTx s (fun t => t.out.length == s.out.length + 2 && t.ck.lastSync == some s.ck.dt) = true
      ∧ (let u := { s with ck := { s.ck with ptp := { s.ck.ptp with lastAnn := some s.ck.dt } } }
         after .ptpSyncTx u (fun t => t.out.length == u.out.length + 1) = true
           ∧ ptpMasters { u with ck := { u.ck with ptp := { u.ck.ptp with better := some u.ck.dt } } } = false))
    ∧ (let s := rset timePage Reg.time.PTP_EN 1 hub
       rget s timePage Reg.time.PTP_ROLE = 0
         ∧ after (.ptpMessage (ptpAsk .sync)) s (fun t => t.ck.ptp.seqId == 5 && t.ck.ptp.t2.isSome) = true)
    ∧ (let s := rset timePage Reg.time.SRC_SEL 2 (rset timePage Reg.time.WALL_LOCKED 1 hub)
       (srcSel s = 2 ∨ srcSel s = 3) ∧ rget s timePage Reg.time.WALL_LOCKED = 1 ∧ s.ck.lastMsg = none
         ∧ after .servoTimeout s (fun t => rget t timePage Reg.time.WALL_LOCKED == 0 && bitAt (hget t timePage).irqStat 9) = true) := by
  decide +kernel
/-! ### Resets, boot, images and the flash (chapter 06) -/

def begins (s t : State) (cause : Nat) : Bool :=
  t.bt.cause == 2 ^ cause && !t.bt.running
    && (if rget s powerPage Reg.powerState.DIE_ON = 0 then
          castled t && t.pw.mode == .booting && t.pw.phase == .cores && t.jr.slots == s.jr.slots
            && rget t bootPage Reg.boot.HUB_RESETS == 1
        else t.pw.resetting && allFall s t)

theorem test_resets : accepts hub bootPage 4 (ask .pf0 0) = true ∧ hub.pw.falling = [] ∧ hub.pw.dryWanted = none
    ∧ (∀ s ∈ [hub, flow], after (.hubReset (ask .pf0 0)) s (fun t => begins (accepted s bootPage 4 (ask .pf0 0)) t 2
          && t.bt.resetSeq == some s.jr.nextSeq) = true
        ∧ hubRuns s = true ∧ s.bt.running = true ∧ s.bt.update = none ∧ s.bt.watchdog + 99000000 ≤ s.ck.dt
        ∧ after .lockstepMismatch s (fun t => begins s t 3) = true ∧ after .watchdogExpire s (fun t => begins s t 4) = true)
    ∧ after (.hubReset (ask .pf0 1)) hub (fun t => finalOf t bootPage == some 0x0100 && t.bt == hub.bt && t.pw == hub.pw) = true
    ∧ (let s := { hub with br := { hub.br with msixOn := [0, 3], vfEnable := true } }
       after (.hostLinkReset .perstN) s (fun t => !linkUp t && t.br.msixOn.isEmpty && !t.br.vfEnable
         && rget t bootPage Reg.boot.HOST_RESETS == 1 && t.pw == s.pw && t.jb == s.jb && t.co == s.co && t.hbm == s.hbm
         && t.jr == s.jr) = true)
    ∧ after .tapReset { hub with bt := { hub.bt with tap := .extest } } (fun t => t.bt.tap == .idcode) = true
    ∧ after (.tapInstructionLoad .extest) hub (fun t => t.bt.tap == .extest && t.rf == hub.rf) = true
    ∧ after (.tapInstructionLoad .extest) { hub with fuseOn := { hub.fuseOn with debugLock := 1 } } (fun t => t.bt.tap == .bypass) = true := by
  decide +kernel

/-- Computed outside the model: a bank with VERSION 0x0203_0011, a body of four bytes and a P-384 signature, and the SHA-384 of
its key. -/
def imgDigest : Nat :=
  0x4938b309efca0e50cab9f949ab849d045c5a676ac0163690ab822a7a4e19d90650792c29353c5bf4461f331495630270
def img : List Byte := beBytes 516
  (0x5748464c010000021100030200000000040000000100000000000000000000005a667d62430a8c253ebae433333904dc6e1d41dcdc479704773159b905a3ad82d2bad7762d81a366cc46fbb2e2327f5c7ae9e1db1160794c70c1ef071be5191f6c66240f4608fbe8a44ecd36c3ed5db97500f2e4d84e3fb45850fd6f4303302bd8ac21444cd80d241538d8034b399a0dee3636eb5cb00b9499d061a571db0f14bb47ed79453948ed63f3a6ccbbf6e74f00000000000000000000000000000000000000000000000000000000000000000000000000000000000000000000000000000000000000000000000000000000000000000000000000000000000000000000000000000000000000000000000000000000000000000000000000000000000000000000000000000000000000000000000000000000000000000000000000000000000000000000000000000000000000000000000000000000000000000000000000000000000000000000000000000000000000000000000000000000077a41d4606ffa1464793c7e5fdc7d98cb9d3910202dcd06bea4f240d3566da6b408bbae5026580d02d7e5c70500c8319e8934fce5da126a5b26e658eb3b9a6529698c99f9ebeb95c8d2b3f3d5be83f53631e7913db5e45baf33735e21863abe000000000000000000000000000000000000000000000000000000000000000001020304)

/-- The hub with that image in bank A and its key's hash in the fuses. -/
def withImg : State :=
  { hub with
    bt := { hub.bt with flash := (img.zipIdx.filter (fun x => x.1 != 0xFF)).map fun x => (x.2, x.1) }
    fuse := { fwKeyHash := imgDigest } }

theorem test_image_valid : headerValid withImg 0 = true := by decide +kernel

theorem test_image : bodyGood withImg 0 = true ∧ bankState withImg 0 = 0 ∧ imageVersion withImg 0 = 0x02030011
    ∧ headerValid withImg 1 = false ∧ headerValid hub 0 = false ∧ headerValid hub 1 = false := by decide +kernel

/-- A flash and a fuse bank alone. -/
def bare (m : Memory) (f : Fuses) : State := { State.reset with bt := { flash := m }, fuse := f }

theorem headerValid_bare (s : State) (b : Nat) : headerValid s b = headerValid (bare s.bt.flash s.fuse) b := rfl

/-- A header is valid by the flash and the fuses alone. -/
theorem headerValid_congr {s t : State} (hf : s.bt.flash = t.bt.flash) (hk : s.fuse = t.fuse) (b : Nat) :
    headerValid s b = headerValid t b := by
  rw [headerValid_bare s, headerValid_bare t, hf, hk]

theorem bodyGood_congr {s t : State} (hf : s.bt.flash = t.bt.flash) (b : Nat) : bodyGood s b = bodyGood t b := by
  have h : ∀ u : State, bodyGood u b = bodyGood (bare u.bt.flash {}) b := fun _ => rfl
  rw [h s, h t, hf]

/-- The hub boots with the image. -/
def bootable : State := { withImg with pw := { withImg.pw with mode := .booting, phase := .cores } }

theorem candidates_one (s : State) (a : headerValid s 0 = true) (b : headerValid s 1 = false) (c : bankState s 0 = 0) :
    (candidates s).head? = some 0 := by
  simp [candidates, List.filter, a, b, c]

/-- The image is the first candidate. -/
theorem test_boot : bootable.pw.mode = .booting ∧ bootable.pw.phase = .cores ∧ (candidates bootable).head? = some 0
    ∧ bodyGood bootable 0 = true ∧ bankState bootable 0 = 0 := by
  have a : headerValid bootable 0 = true :=
    (headerValid_congr (t := withImg) (by simp only [bootable]) (by simp only [bootable]) 0).trans test_image_valid
  have b : headerValid bootable 1 = false := by decide +kernel
  have c : bankState bootable 0 = 0 := by decide +kernel
  exact ⟨rfl, rfl, candidates_one bootable a b c, (bodyGood_congr (t := withImg) (by simp only [bootable]) 0).trans test_image.1, c⟩

theorem test_trickle : (let s := { busy bootP 1 (ask .pf0 0) hub with shedPin := false, pw := { hub.pw with mode := .booting, phase := .ready } }
    s.pw.mode = .booting ∧ s.pw.phase = .ready ∧ (s.jr.unsettled.map fun e => (e.seq, e.addr, e.tag)) = [(1, addrOf s bootP 0x030, 7)] ∧ (jEntry s 1).map (·.result) = some Code.pending
      ∧ (∀ x ∈ s.jr.slots, x.2.kind ≠ .completion)
      ∧ after .trickleDeclare s (fun t => t.pw.mode == .trickle && t.jr.unsettled.isEmpty
          && (jEntry t 2).map (fun e => (e.kind, e.value, e.arg)) == some (.mark, 1, s.jr.cycles)
          && (jEntry t 3).map (fun e => (e.kind, e.result, origOf e)) == some (.completion, 0x010B, 1)
          && (jEntry t 3).map (fun e => (e.addr, e.tag)) == some (addrOf s bootP 0x030, 7)) = true
      ∧ after .trickleDeclare { s with jr := { s.jr with committed := [1] } } (fun t =>
          (jEntry t 3).map (·.result) == some 0x0000) = true)
    ∧ (let s := { hub with bt := { hub.bt with marks := [(0, 3), (1, 1)] } }
       after .deferredMarkerWrite s (fun t => t.bt.marks.isEmpty && marker t 0 3 && marker t 1 1 && !marker t 0 1
         && t.pw == s.pw && t.jr == s.jr) = true) := by decide +kernel

theorem test_fw_update : (let s := rset bootPage Reg.boot.BANK 1 withImg
      accepts s bootPage 1 (ask .pf0 0) = true ∧ (ask .pf0 0).arg.toNat = 0 ∧ 0 ≠ runningBank s ∧ bankState s 0 ≠ 3
        ∧ headerValid s 0 = true ∧ bodyGood s 0 = true) := by
  exact ⟨by decide +kernel, by decide, by decide +kernel, by decide +kernel,
    (headerValid_congr (t := withImg) (by simp only [rset]) (by simp only [rset]) 0).trans test_image_valid,
    (bodyGood_congr (t := withImg) (by simp only [rset]) 0).trans test_image.1⟩

theorem test_fw_update_bad : (let s := hub
    (s.fuse.fwKeyHash = 0 ∧ accepts s bootPage 1 (ask .pf0 1) = true ∧ 1 ≠ runningBank s ∧ bankState s 1 ≠ 3
      ∧ after (.fwUpdate (ask .pf0 1)) s (fun t => finalOf t bootPage == some 0x0109 && t.bt.update.isNone
          && t.bt.flash == s.bt.flash) = true))
    ∧ (let u : Update := { bank := 1, version := 0x02030011, svn := 0, since := 999500000 }
       let s := { busy bootP 1 (ask .pf0 1) hub with bt := { hub.bt with update := some u } }
       (hget s bootPage).cmd.isSome = true ∧ finalOf s bootPage = none ∧ u.since + 500000 ≤ s.ck.dt ∧ u.bank < 2
         ∧ hubRuns s = true
         ∧ after .fwInitTimeout s (fun t => t.bt.update.isNone && finalOf t bootPage == some 0x010C && t.rf == s.rf
             && (jEntry t 2).map (fun e => (e.kind, e.value, e.arg)) == some (.mark, 3, 0)) = true
         ∧ after (.commandComplete bootPage) { s with ck := { s.ck with dt := 999999999 } } (fun t => t.bt.update.isNone
             && rget t bootPage Reg.boot.BANK == 1
             && (cget t bootPage .pf0).result % 65536 == 0
             && (jEntry t 2).map (fun e => (e.kind, e.value, e.arg)) == some (.mark, 3, 0x02030011)) = true) := by decide +kernel

theorem test_fw_confirm : (let s := setMarker 1 1 (rset bootPage Reg.boot.BANK 1 hub)
    accepts s bootPage 2 (ask .pf0 1) = true ∧ 1 = runningBank s ∧ bankState s 1 = 1
      ∧ after (.fwConfirm (ask .pf0 1)) s (fun t => finalOf t bootPage == some 0 && marker t 1 2 && t.fuse == s.fuse) = true
      ∧ accepts s bootPage 3 (ask .pf0 0) = true ∧ 0 ≠ runningBank s
      ∧ after (.fwReject (ask .pf0 0)) s (fun t => finalOf t bootPage == some 0 && marker t 0 3 && t.fuse == s.fuse) = true) := by
  decide +kernel

/-- The hub with a flash of 64 KiB that answers SFDP, and 256 bytes to move for PF0. -/
def flashy : State :=
  rset spiPage Reg.spiNor.SFDP_OK 1 (rset spiPage Reg.spiNor.SIZE_LOG2 16 (rsetC .pf0 spiPage Reg.spiNor.FL_LEN 256
    (rsetC .pf0 spiPage Reg.spiNor.FL_BUF 0x44332211 hub)))

theorem test_flash : accepts flashy spiPage 1 (ask .pf0 0xFF00) = true ∧ 0xFF00 + 256 ≤ flashSize flashy
    ∧ (let s := { flashy with bt := { flashy.bt with flash := [(0xFF00, 5), (0xFFFF, 6)] } }
       after (.flRead (ask .pf0 0xFF00)) s (fun t => finalOf t spiPage == some 0 && t.bt == s.bt
         && (rbytesC t .pf0 spiPage Reg.spiNor.FL_BUF 64).head? == some 5
         && (rbytesC t .pf0 spiPage Reg.spiNor.FL_BUF 64).getLast? == some 6) = true)
    ∧ accepts flashy spiPage 2 (ask .pf0 0xF000) = true ∧ rget flashy spiPage Reg.spiNor.SFDP_OK = 1
    ∧ 0xF000 % 4096 = 0 ∧ inRunningBank flashy 0xF000 4096 = false
    ∧ after (.flErase (ask .pf0 0xF000)) flashy (fun t => t.bt.flash == flashy.bt.flash && finalOf t spiPage == none
        && t.bt.busy == some { opcode := 2, addr := 0xF000, since := flashy.ck.dt, data := [] }) = true
    ∧ (let s := rsetC .pf0 spiPage Reg.spiNor.FL_LEN 4 flashy
       accepts s spiPage 3 (ask .pf0 0xFFFC) = true ∧ 0xFFFC % 256 + 4 ≤ 256 ∧ inRunningBank s 0xFFFC 4 = false
         ∧ rget s spiPage Reg.spiNor.OVER = 0 ∧ (∀ i < 4, Mem.read 0xFF s.bt.flash (0xFFFC + i) = 0xFF)
         ∧ after (.flProgram (ask .pf0 0xFFFC)) s (fun t =>
             t.bt.busy == some { opcode := 3, addr := 0xFFFC, since := s.ck.dt, data := [0x11, 0x22, 0x33, 0x44] }) = true
         ∧ (let u := { s with bt := { s.bt with flash := [(0xFFFF, 6)] } }
            after (.flProgram (ask .pf0 0xFFFC)) u (fun t => finalOf t spiPage == some 0x0102 && t.bt == u.bt) = true)) := by decide +kernel

theorem test_flash_done : (let f : FlashOp := { opcode := 3, addr := 0xFFFC, since := 0, data := [0x11, 0x22] }
    let x : Sfdp := { addr4 := false, erase4k := true, eraseOp := 0x20, width := 1, clkMhz := 50, sizeLog2 := 16, eraseNs := 1000, programNs := 400000000 }
    let s := rsetC .pf0 spiPage Reg.spiNor.FL_BUF 0x2211 <| busy spiPage 3 (ask .pf0 0xFFFC) { hub with bt := { hub.bt with flash := [(0xFFFE, 6)], busy := some f, sfdp := some x } }
    s.bt.busy = some f ∧ (hget s spiPage).cmd.isSome = true ∧ finalOf s spiPage = none ∧ memoriesWf s
      ∧ after (.commandComplete spiPage) s (fun t => t.bt.busy.isNone && (cget t spiPage .pf0).result % 65536 == 0
          && t.bt.flash == [(0xFFFC, 0x11), (0xFFFD, 0x22), (0xFFFE, 6)]) = true
      ∧ after (.commandComplete spiPage) (rsetC .pf0 spiPage Reg.spiNor.FL_BUF 0x2311 s) (fun t =>
          (cget t spiPage .pf0).result % 65536 == 0x010C) = true
      ∧ (let u := { s with bt := { s.bt with busy := some { f with opcode := 2, addr := 0xF000 } } }
         after (.commandComplete spiPage) u (fun t => t.bt.flash.isEmpty) = true)
      ∧ f.since + (2 * x.programNs + 1) ≤ s.ck.dt
      ∧ after .flashBusyTimeout s (fun t => t.bt.busy.isNone && finalOf t spiPage == some 0x010D) = true) := by decide +kernel

/-! ### The Weir (chapter 07) and energy (chapter 08) -/

/-- A sensed microsecond with nothing flowing. -/
def quiet : Sense :=
  { iin0 := 30, iin1 := 12, v48 := 4800, excursion := true, iout0 := 0, iout1 := 0, viv0 := 0, viv1 := 0, aux := [], events := [] }

/-- The worked example of chapter 07: 48.0 V with a shed cap of 4,000 mA-in. -/
theorem test_shed_cap : (let s := rset weirPage Reg.weir.SHED_CAP 4000 (rset weirPage Reg.weir.SHED_ACTIVE 1 flow)
    effCap s = 4000 ∧ effCap s - atV48 s 200 - 300 - 12 = 3488 ∧ atV48 s 75 = 75) := by decide +kernel

theorem test_epoch_due : hubRuns flow = true ∧ duePeriod 64 flow.we.lastEpoch flow = true
    ∧ duePeriod 1000 flow.we.lastStep flow = true ∧ flow.en.acc.length = 21 ∧ (∀ x ∈ flow.tenants, x < 16) := by decide +kernel

/-- Core 191 with an MXFP4 MMA on array 31 and a BF16 one on arrays 30 and 31 behind it. -/
def wanting : State :=
  setRun 191 { mma := [{ pc := 0, d := { w0 := 31 * 256 + 5 * 2 ^ 23, w1 := 0, w2 := 0, w3 := 0 } }
                     , { pc := 1, d := { w0 := 30 * 256 + 2 ^ 13 + 3 * 2 ^ 23, w1 := 0, w2 := 0, w3 := 0 } }] } flow

theorem test_credit_request : diePowered wanting (191 / 16) = true ∧ wanting.ck.dt % 64 / 4 ≤ 13
    ∧ asked wanting 191 [(31, 2), (31, 1), (30, 2), (29, 1)] = [(31, 1), (30, 2)]
    ∧ after (.creditRequest 191 [(31, 1)]) wanting (fun t => Assoc.get t.we.requests 191 == some [(31, 1)] && t.we.late.isEmpty
        && t.we.credits == flow.we.credits && t.rf == flow.rf) = true
    ∧ (let s := { wanting with ck := { flow.ck with dt := 1000000056 } }
       14 ≤ s.ck.dt % 64 / 4 ∧ grantedNow s = false
         ∧ after (.creditRequest 191 [(31, 1)]) s (fun t => Assoc.get t.we.late 191 == some [(31, 1)] && t.we.requests.isEmpty) = true)
    ∧ (let s := { flow with we := { flow.we with idle := [(32 * 5 + 31, 15624983)] } }
       (∀ x ∈ s.we.credits, x.core = 5 → x.array = 31 → x.last < s.ck.dt / 64) ∧ Assoc.getD s.we.idle (32 * 5 + 31) 0 + 16 < s.ck.dt / 64
         ∧ after (.arrayPowerGate 5 31) s (fun t => arrayGated t 5 31 && !arrayGated t 5 30 && t.we == s.we) = true) := by
  decide +kernel

theorem test_model_fault : (let s := { flow with we := { flow.we with atLimit := 16 } }
    16 ≤ s.we.atLimit ∧ rget s weirPage Reg.weir.MODEL_FAULT = 0
      ∧ after .modelFault s (fun t => rget t weirPage Reg.weir.MODEL_FAULT == 1 && bitAt (hget t weirPage).irqRaw 12 && t.we == s.we) = true)
    ∧ (let s := setModelFault true { flow with we := { flow.we with inside := 1000 } }
       1000 ≤ s.we.inside
         ∧ after .modelFaultClear s (fun t => rget t weirPage Reg.weir.MODEL_FAULT == 0 && !bitAt (hget t weirPage).irqRaw 12
             && t.we == s.we) = true) := by decide +kernel

/-- The room of the worked example, 368 mA-in, wakes four quadrants. -/
theorem test_retention : (let s := { flow with we := { flow.we with retained := [47, 3, 5, 8, 9], woken := [2], rotation := 4, room := 368 } }
    hubRuns s = true ∧ duePeriod 50000 s.we.lastSlice s = true ∧ s.we.retained ≠ [] ∧ (∀ x ∈ s.we.retained, x < 48) ∧ v48 s ≠ 0
      ∧ (atV48 s 75 : Rat) ≤ s.we.room
      ∧ after .retentionSlice s (fun t => t.we.woken == [] && t.we.waking == [5, 8, 9, 47].map (fun x => (x, s.ck.dt + 4000))
          && t.we.retained == [3, 2] && t.rf == s.rf && t.pw == s.pw) = true)
    ∧ (let s := { flow with we := { flow.we with waking := [(47, 1000000000)] } }
       after (.quadrantWakeComplete 11 3) s (fun t => t.we.woken == [47] && t.we.waking == [] && t.rf == s.rf && t.hdr == s.hdr) = true)
    ∧ (let s := head port (fun h => { h with allotReq := 100 }) { flow with we := { flow.we with ramp := [port], room := 100 } }
       port ∈ s.we.ramp ∧ (atV48 s (hget s port).allotReq : Rat) ≤ s.we.room
         ∧ after (.rampRoomEnable port) s (fun t => t.we.ramp.isEmpty && t.we.room == 0 && t.hdr == s.hdr && t.pw == s.pw) = true) := by
  decide +kernel

theorem test_caps : (let s := rset weirPage Reg.weir.HOST_CAP 400 (rset weirPage Reg.weir.FLOOR_BREACH 1
      (head auxPage (fun h => { h with grant := 300 }) flow))
    rget s weirPage Reg.weir.FLOOR_BREACH = 1 ∧ (cuttableDies s).head? = some 11
      ∧ effCap s < atV48 s (floorRef s fun x => diePowered s x && !s.pw.falling.contains x)
      ∧ after .floorBreachCut s (fun t => auxGrant t == 0 && t.pw.falling.contains 11
          && (hget t (pageOf .diePower 0 11)).grant == 0) = true)
    ∧ hubRuns hub = true ∧ shedMinOver hub = true
    ∧ after .shedAssert hub (fun t => t.shedPin && rget t weirPage Reg.weir.SHED_ACTIVE == 1 && rget t weirPage Reg.weir.SHED_PIN == 0
        && rget t weirPage Reg.weir.SHEDS == 1 && decide (effCap t ≤ rget hub weirPage Reg.weir.SHED_CAP)
        && t.we.shedLast == some hub.ck.dt && bitAt (hget t weirPage).irqRaw 9) = true
    ∧ after .shedRelease hub (fun t => !t.shedPin && rget t weirPage Reg.weir.SHED_PIN == 1
        && rget t weirPage Reg.weir.SHED_ACTIVE == 0) = true
    ∧ State.reset.pw.mode = .dry
    ∧ after .shedRelease dry (fun t => t == { dry with shedPin := false }) = true
    ∧ after .shedAssert dry (fun t => t == { dry with shedPin := true }) = true
    ∧ (let s := rset weirPage Reg.weir.SHED_ACTIVE 1 (rset weirPage Reg.weir.SHED_PIN 1 hub)
       rget s weirPage Reg.weir.SHED_ACTIVE = 1 ∧ rget s weirPage Reg.weir.SHED_PIN = 1 ∧ shedMinOver s = true
         ∧ after .shedMinExpire s (fun t => rget t weirPage Reg.weir.SHED_ACTIVE == 0 && !bitAt (hget t weirPage).irqRaw 9
             && t.pw == s.pw) = true)
    ∧ accepts hub weirPage 1 (ask .firmware 40000) = true
    ∧ after (.setHostCap (ask .firmware 40000)) hub (fun t => finalOf t weirPage == some 0
        && rget t weirPage Reg.weir.HOST_CAP == 40000 && decide (effCap t ≤ 40000) && t.pw == hub.pw) = true
    ∧ accepts hub weirPage 1 (ask .pf0 40001) = true ∧ accepts hub weirPage 1 (ask .siteBus 5) = true
    ∧ after (.setHostCap (ask .pf0 40001)) hub (fun t => finalOf t weirPage == some 0x0100 && t.rf == hub.rf) = true
    ∧ after (.setHostCap (ask .siteBus 5)) hub (fun t => finalOf t weirPage == some 0x0100 && t.rf == hub.rf) = true := by
  decide +kernel

/-- The hub, its correction step done, whose open interval has a CLOSE_NOW trigger of the last step, another trigger of this one after
the step's start, and half a unit of 2^-16 J in SENSED. -/
def closing : State :=
  { hub with
    ck := { hub.ck with dt := 1000000600 }
    we := { hub.we with lastStep := some 1000000500 }
    en := { hub.en with triggers := [(4, 999999500), (2, 1000000300)], opened := { hub.en.opened with totals := List.replicate 20 0 ++ [1000000 * 3 / 131072] } } }

theorem test_intervals : protRuns closing = true ∧ stepAccounted closing = true ∧ closing.en.opened.dtOpen < 1000000000
    ∧ closeDue closing 1000000000 = true
    ∧ after .intervalClose closing (fun t =>
        match t.en.ring.getLast? with
        | some r => decide (t.en.ring.length ≤ 4096) && r.index == closing.en.opened.index && r.dtClose == 1000000000 && t.en.opened.dtOpen == 1000000000 && !r.ready
            && t.en.opened.index == closing.en.opened.index + 1 && t.en.triggers == [(2, 1000000300)] && t.en.acc == closing.en.acc
            && bitAt r.flags 4 && !bitAt r.flags 2 && r.fields.getD 0 0 == 1 && t.en.opened.totals.getD 20 0 == 1000000 / 131072
            && t.en.saved == some { dt := t.en.opened.dtOpen, acc := closing.en.acc, opened := t.en.opened }
        | none => false) = true
    ∧ (let r : IntervalRec := { index := 1, flags := 0x10, len := 15, utcS := 0, utcNs := 0, dtOpen := 0, dtClose := 5, step := 0,
                                fields := List.replicate 21 7, ready := false }
       let s := busy energyPage 1 (ask .pf0 0) { hub with en := { hub.en with ring := [r], opened := { hub.en.opened with index := 2 } } }
       s.en.ring.find? (fun x => !x.ready) = some r ∧ (s.en.ring.filter fun x => bitAt x.flags 4).getLast? = some r
         ∧ s.en.triggers.isEmpty = true ∧ (hget s energyPage).cmd.isSome = true
         ∧ after .intervalRecordReady s (fun t => (t.en.ring.find? (·.index == r.index)).map (·.ready) == some true
             && bitAt (hget t energyPage).irqStat 8 && t.en.opened == s.en.opened && finalOf t energyPage == some 0) = true)
    ∧ protRuns hub = true ∧ duePeriod 1000000000 (hub.en.saved.map (·.dt)) hub = true ∧ hub.ck.dt % 1000 = 0
    ∧ after .energyCheckpoint hub (fun t => t == { hub with en := { hub.en with
        saved := some { dt := hub.ck.dt, acc := hub.en.acc, opened := hub.en.opened } } }) = true
    ∧ accepts hub energyPage 1 (ask .pf0 0) = true
    ∧ after (.closeNow (ask .pf0 0)) hub (fun t => finalOf t energyPage == none && closeDue t hub.ck.dt && t.en.triggers == [(4, hub.ck.dt)] && t.rf == hub.rf) = true
    ∧ after (.closeNow (ask .pf0 1)) hub (fun t => finalOf t energyPage == some 0x0100 && t.en == hub.en) = true := by
  decide +kernel

theorem test_energy_fetch : (let r : IntervalRec :=
      { index := 4, flags := 0x10, len := 15, utcS := 0, utcNs := 0, dtOpen := 0, dtClose := 5, step := 0,
        fields := (List.range 21).map (fun i => ((100 + i : Nat) : Int)), ready := true }
    let p := pageOf .tenantEnergy 15 12
    let s := rsetC .pf0 energyPage Reg.energy.RD_INDEX_LO 4 (rsetC .pf0 p Reg.tenantEnergy.RD_INDEX_LO 4
      { hub with en := { hub.en with ring := [r], opened := { hub.en.opened with index := 5 } } })
    reachesBlock s .pf0 energyPage = true ∧ 0 * 2 ^ 32 + rgetC s .pf0 energyPage Reg.energy.RD_INDEX_LO = 4
      ∧ s.en.ring.find? (·.index == 4) = some r ∧ r.ready = true
      ∧ after (.energyRecordFetch .pf0 energyPage 0) s (fun t => t.en == s.en && rgetC t .pf0 energyPage Reg.energy.RD_STAT == 0
          && (List.range 64).all fun i => rgetC t .pf0 energyPage Reg.energy.RD_REC i == (leWords (recordBytes r) 64).getD i 0) = true
      ∧ after (.energyRecordFetch .pf0 energyPage 1) s (fun t => rgetC t .pf0 energyPage Reg.energy.RD_STAT == 2) = true
      ∧ (let u := { s with en := { s.en with ring := [] } }
         after (.energyRecordFetch .pf0 energyPage 0) u (fun t => rgetC t .pf0 energyPage Reg.energy.RD_STAT == 1) = true)
      ∧ reachesBlock s .pf0 p = true
      ∧ after (.energyRecordFetch .pf0 p 0) s (fun t => t.en == s.en && rgetC t .pf0 p Reg.tenantEnergy.RD_STAT == 0
          && (List.range 14).all (fun i => rgetC t .pf0 p Reg.tenantEnergy.RD_T i == (leWords (recordBytes r) 64).getD i 0)
          && (List.range 2).all fun i => rgetC t .pf0 p Reg.tenantEnergy.RD_T (14 + i)
              == (leWords (recordBytes r) 64).getD (16 + 2 * 15 + i) 0) = true) := by decide +kernel
/-! ### Frequency, droop and heat (chapter 09) -/

/-- The table of the worked example of chapter 09 in the cores `gs`. -/
def vfTab (gs : List Nat) (s : State) : State :=
  let tab := gs.flatMap fun g => ([0x3F, 0x06, 0x12, 0x22, 0x2A, 0x32, 0x35, 0x38].zipIdx).map fun x => ((g, x.2), x.1)
  { s with fq := { s.fq with copyA := tab, copyB := tab } }

/-- Quadrant 1 of die 5 with the table of the worked example of chapter 09 in three quadrants; core 87 runs a SPATE job at 1.8 GHz. -/
def withTable : State :=
  rset (freqPage 5) Reg.dieFreq.N_NOW 32
    (rset (freqPage 5) Reg.dieFreq.REGIME 1
      (rset (corePage .core 87) Reg.core.SLOT_VALID 1 (vfTab [84, 85, 86, 87, 80, 81, 82, 83, 96, 97, 98, 99] flow)) 7) 7

theorem test_spate_up : withTable.pw.mode = .flow ∧ duePeriod 100000 withTable.fq.lastEval withTable = true
    ∧ 87 ∈ spateCores withTable ∧ throttleRose withTable 87 = false ∧ withTable.fq.overSeen = false
    ∧ withTable.fq.rampSeen = false ∧ nTarget withTable 87 = 32 ∧ (32 : Int) < vfOrd (cert withTable 87 7)
    ∧ 32 < rget withTable (freqPage 5) Reg.dieFreq.SPATE_MAX ∧ canalQuad withTable 21 = false
    ∧ ¬ (1440 ≤ hotter withTable 21 ∨ rget withTable weirPage Reg.weir.THERM_CAP_VALID = 1
          ∨ rget withTable weirPage Reg.weir.SHED_ACTIVE = 1)
    ∧ after .spateEvaluate withTable (fun t => nTarget t 87 == 33 && t.fq.lastEval == some withTable.ck.dt
        && nNow t 87 == nNow withTable 87) = true := by decide +kernel

theorem test_spate_down : (let s := setN 87 56 withTable
    (rset (corePage .core 87) Reg.core.THROTTLE 9 { s with fq := { (s.fq) with thrSeen := [(87, 0)] } } |> fun u => throttleRose u 87 = true
        ∧ after .spateEvaluate u (fun t => nTarget t 87 == 55) = true)
      ∧ after .spateEvaluate s (fun t => nTarget t 87 == 56) = true
      ∧ (let u := rset weirPage Reg.weir.SHED_ACTIVE 1 s
         after .spateEvaluate u (fun t => nTarget t 87 == nominalN u 87 && nTarget t 87 == 32) = true)
      ∧ diePowered s 5 = true ∧ after (.spateHoldTemperature 5 2 1440) s (fun t => nTarget t 87 == 32
          && rget t (freqPage 5) Reg.dieFreq.TEMP 2 == 1440) = true
      ∧ after (.spateHoldTemperature 5 0 1440) s (fun t => nTarget t 87 == 56) = true) := by decide +kernel

theorem test_relock : (let s := { withTable with
      fq := { withTable.fq with relock := [(87, 63)], rail := [(21, 60)], afterRail := [(86, 40), (5, 1)] }
      we := { withTable.we with room := 27 } }
    Assoc.get s.fq.relock 87 = some 63 ∧ riseRoom s 87 63 = 27 ∧ s.we.room = 27 ∧ s.fq.meas = [] ∧ Assoc.get s.fq.rail (4 * 5 + 1) = some 60
      ∧ after (.synthRelock 87) { s with we := { s.we with room := 26 } } (fun t => Assoc.get t.fq.relock 87 == some 63 && nNow t 87 == 32) = true
      ∧ after (.synthRelock 87) s (fun t => nNow t 87 == 63 && Assoc.get t.fq.relock 87 == none && nNow t 86 == nNow s 86) = true
      ∧ after (.railSettled 5 1) s (fun t => rget t (freqPage 5) Reg.dieFreq.K_NOW 1 == 60 && Assoc.get t.fq.rail 21 == none
          && t.fq.afterRail == [(5, 1)] && Assoc.get t.fq.relock 86 == some 40) = true) := by decide +kernel

theorem test_measure : (let s := rset (freqPage 5) Reg.dieFreq.OP_HOURS 274 (rset (corePage .core 87) Reg.core.SLOT_VALID 0
      { withTable with fq := { withTable.fq with opMin := [(5, 59)] }, ck := { withTable.ck with dt := 60000000000 } })
    diePowered s 5 = true ∧ Assoc.getD s.fq.lastMin 5 0 + 60000000000 ≤ s.ck.dt
      ∧ after (.opHoursCheckpoint 5) s (fun t => Assoc.getD t.fq.opMin 5 0 == 60 && opHours t 5 == 1 && t.hdr == s.hdr) = true
      ∧ measOver s 5 1 = true ∧ 21 ∉ s.fq.overdue
      ∧ after (.measOverdue 5 1) s (fun t => t.fq.overdue.contains 21 && t.fq.meas == s.fq.meas && t.hdr == s.hdr) = true
      ∧ measDue s 5 1 = true ∧ quadIdle s 21 = true ∧ measuring s 5 1 = false ∧ measGranted s 5 1 = false
      ∧ measGranted (granted (freqPage 5) s) 5 1 = true ∧ measGranted (granted (freqPage 5) s) 5 2 = false
      ∧ after (.ageingMeasureStart 5 1) (granted (freqPage 5) s) (fun t =>
          t.fq.meas.map (fun m => (m.die, m.q, m.start, m.byCmd, m.point, m.done)) == [(5, 1, 60000000000, false, 1, false)]
            && Assoc.get t.fq.rail 21 == some (pointCode 1)) = true
      ∧ after (.ageingMeasureStart 5 1) s (fun t => (hget t (freqPage 5)).allotReq == 60) = true
      ∧ (let u := granted (freqPage 5) { s with fq := { s.fq with meas := [{ die := 5, q := 1, start := 0, byCmd := false }] } }
         measuring u 5 1 = true ∧ measGranted u 5 1 = true ∧ firmwareMay u = true ∧ u.jr.writing = none ∧ cert u 87 3 = 34
           ∧ (let w := { u with jr := { u.jr with lastAccept := some u.ck.dt } }
              firmwareMay w = false ∧ after (.ageingMeasureDone 5 1 [(3, 3, 31)]) w (fun t => measuring t 5 1 && t.jr == w.jr
                && t.fq.copyA == w.fq.copyA && (t.fq.meas.map (·.todo)) == [[(87, 3, 31)]]) = true)
           ∧ after (.ageingMeasureDone 5 1 []) u (fun t => !measuring t 5 1
               && rget t (freqPage 5) Reg.dieFreq.LAST_MEAS 1 == 274 && t.fq.copyA == u.fq.copyA) = true
           ∧ after (.ageingMeasureDone 5 1 [(3, 3, 31)]) u (fun t => !measuring t 5 1 && cert t 87 3 == 31
               && (jEntry t u.jr.nextSeq).map (fun e => (e.func, e.src, e.value, e.arg, e.result)) == some (16, 3, 2, 0x1F37, 0)) = true
           ∧ after (.ageingMeasureDone 5 1 [(3, 1, -1)]) u (fun t => cert t 87 1 == 63) = true)) := by decide +kernel

theorem test_measure_command : accepts withTable (freqPage 5) 1 (ask .pf0 0xF) = true
    ∧ bitAt (0xF : Word).toNat 1 = true ∧ 87 ∈ quadCores 21 ∧ coreAssigned withTable 87 = true
    ∧ after (.measure 5 (ask .pf0 0xF)) withTable (fun t => finalOf t (freqPage 5) == some 0x0100 && t.fq == withTable.fq) = true
    ∧ (∀ g ∈ quadCores 20, coreAssigned withTable g = false)
    ∧ after (.measure 5 (ask .pf0 0x1)) withTable (fun t => finalOf t (freqPage 5) == none && measuring t 5 0) = true
    ∧ (let s := rset sitePage Reg.siteChannel.STATE 2 <| rset sitePage Reg.siteChannel.CASTLED 0 (head sitePage (fun h => { h with en := true }) withTable)
       reservedInUse s 96 = true ∧ accepts s (freqPage 6) 1 (ask .pf0 1) = true
         ∧ after (.measure 6 (ask .pf0 1)) s (fun t => measuring t 6 0 && castled t) = true) := by decide +kernel

/-- The worked example of chapter 09: DERATE with argument 0x1F37 lowers point 3 of core 87 from 34 to 31. -/
theorem test_derate : accepts withTable (freqPage 5) 2 (ask .firmware 0x1F37) = true ∧ cert withTable 87 3 = 34
    ∧ after (.derate 5 (ask .firmware 0x1F37)) withTable (fun t => finalOf t (freqPage 5) == some 0
        && (List.range 8).map (cert t 87) == [0x3F, 0x06, 0x12, 0x1F, 0x2A, 0x32, 0x35, 0x38]
        && (List.range 8).map (cert t 86) == [0x3F, 0x06, 0x12, 0x22, 0x2A, 0x32, 0x35, 0x38]
        && (t.fq.derates.map fun x => (x.core, x.point, x.old, x.new, x.cause)) == [(87, 3, 34, 31, 0)]
        && t.fq.nextDr == 2) = true
    ∧ (let t := lowerPoints 87 7 0x05 1 withTable
       (List.range 8).map (cert t 87) = [0x3F, 0x05, 0x05, 0x05, 0x05, 0x05, 0x05, 0x05]
         ∧ (t.fq.derates.map fun x => (x.point, x.cause)) = [(1, 2), (2, 2), (3, 2), (4, 2), (5, 2), (6, 2), (7, 1)])
    ∧ (∀ r ∈ [ask .siteBus 0x1F37, ask .pf0 0x5F37, ask .pf0 0x1FB7, ask .pf0 0x2237],
        after (.derate 5 r) withTable (fun t => finalOf t (freqPage 5) == some 0x0100 && t.fq == withTable.fq) = true)
    ∧ kv 40 = 18641 ∧ kv 30 = 16384 := by decide +kernel

theorem test_derate_fetch : (let r : DerateRec := { num := 3, time := 9, hours := 250, core := 87, point := 3, old := 34, new := 31, cause := 0 }
    let s := rsetC .pf0 heatPage Reg.heat.DR_RD_LO 3 { hub with fq := { hub.fq with derates := [r], nextDr := 4 } }
    reachesBlock s .pf0 heatPage = true
      ∧ after (.drFetch .pf0 0) s (fun t => t.fq == s.fq && rgetC t .pf0 heatPage Reg.heat.DR_RD_STAT == 0
          && (List.range 8).all fun i => rgetC t .pf0 heatPage Reg.heat.DR_W i == (leWords (derateBytes r) 8).getD i 0) = true
      ∧ after (.drFetch .pf0 1) s (fun t => rgetC t .pf0 heatPage Reg.heat.DR_RD_STAT == 2) = true
      ∧ (let u := rsetC .pf0 heatPage Reg.heat.DR_RD_LO 2 s
         after (.drFetch .pf0 0) u (fun t => rgetC t .pf0 heatPage Reg.heat.DR_RD_STAT == 1) = true)) := by decide +kernel

theorem test_droop : diePowered flow (191 / 16) = true ∧ flow.fq.droop.isEmpty = true
    ∧ after (.droopDetect 191) flow (fun t => t.fq.droop == [{ core := 191, since := flow.ck.dt, counted := flow.ck.dt }]
        && t.fq.stretched == [191] && t.rf == flow.rf && t.we == flow.we) = true
    ∧ (let s := { flow with fq := { flow.fq with droop := [{ core := 191, since := 999999000, counted := 999999000 }] } }
       s.fq.droop.any (·.core == 191) = true ∧ 999999000 + 1000 ≤ s.ck.dt ∧ 191 ∉ s.fq.longSeen
         ∧ after (.droopRecover 191) s (fun t => t.fq.droop.isEmpty
             && rget t (freqPage 11) Reg.dieFreq.DROOP_CYC 15 == droopCycles s 191 && t.co == s.co) = true
         ∧ after (.longDroop 191) s (fun t => t.fq.longSeen.contains 191 && t.fq.droop == s.fq.droop && t.co == s.co) = true) := by
  decide +kernel

theorem test_thermal : (let r : Int → List Reading := fun v => [{ sensor := .hub 3, value := v }]
    hubRuns hub = true ∧ duePeriod 1000000 hub.fq.lastTherm hub = true ∧ rget hub heatPage Reg.heat.THROTTLE_AT = 95
      ∧ after (.thermalStep (r 1520) 10000) hub (fun t => (hottest t).1 == 0 && rget t heatPage Reg.heat.HOT_T == 1520
          && rget t heatPage Reg.heat.HUB_T 3 == 1520 && rget t weirPage Reg.weir.THERM_CAP_VALID == 1
          && rget t weirPage Reg.weir.THERM_CAP == 9500 && t.fq.lastTherm == some hub.ck.dt) = true
      ∧ after (.thermalStep (r 1680) 10000) hub (fun t => rget t weirPage Reg.weir.THERM_CAP == 8000) = true
      ∧ after (.thermalStep (r 1520) 100) hub (fun t => rget t weirPage Reg.weir.THERM_CAP == floorSum hub) = true
      ∧ (let s := rset weirPage Reg.weir.HOST_CAP 26000 (rset weirPage Reg.weir.THERM_CAP 25479
            (rset weirPage Reg.weir.THERM_CAP_VALID 1 { hub with fq := { hub.fq with below := 9 } }))
         after (.thermalStep (r 1487) 100) s (fun t => (hottest t).1 == -33 && rget t weirPage Reg.weir.THERM_CAP == 25999
             && rget t weirPage Reg.weir.THERM_CAP_VALID == 1 && t.fq.below == 0) = true
           ∧ after (.thermalStep (r 1487) 100) (rset weirPage Reg.weir.THERM_CAP 25480 s) (fun t =>
               rget t weirPage Reg.weir.THERM_CAP_VALID == 0) = true
           ∧ after (.thermalStep (r 1487) 100) { s with fq := { s.fq with below := 3 } } (fun t =>
               t.fq.below == 4 && rget t weirPage Reg.weir.THERM_CAP == 25479) = true
           ∧ after (.thermalStep (r 1488) 100) s (fun t => (hottest t).1 == -32 && t.fq.below == 9
               && rget t weirPage Reg.weir.THERM_CAP == 25479 && rget t weirPage Reg.weir.THERM_CAP_VALID == 1) = true)) := by
  decide +kernel

theorem test_trip : hubRuns flow = true ∧ (tripOf (.stack 5)).2.2 ≤ 1680 ∧ rget flow heatPage Reg.heat.TRIPPED = 0
    ∧ after (.thermalTrip (.stack 5) 1680) flow (fun t => rget t heatPage Reg.heat.TRIPPED == 1 && t.fq.tripPin
        && rget t heatPage Reg.heat.TRIP_DIE == 15 && rget t heatPage Reg.heat.TRIP_STACK == 5
        && rget t heatPage Reg.heat.TRIPS == 1 && decide (effCap t ≤ rget flow weirPage Reg.weir.SHED_CAP)
        && bitAt (hget t heatPage).irqRaw 9 && t.jb.slots == flow.jb.slots && t.pw == flow.pw) = true
    ∧ (let s := rset heatPage Reg.heat.TRIPPED 1 (rset (freqPage 3) Reg.dieFreq.TEMP 1840
          { flow with fq := { flow.fq with tripAt := some 900000000 } } 7)
       s.fq.tripAt = some 900000000 ∧ rget s heatPage Reg.heat.TRIPPED = 1 ∧ 900000000 + 100000000 ≤ s.ck.dt
         ∧ 1840 ≤ toInt 16 (rget s (freqPage 3) Reg.dieFreq.TEMP 7) ∧ diePowered s 3 = true
         ∧ after (.tripDieDown 3) s (fun t => t.pw.falling.contains 3) = true
         ∧ accepts s heatPage 1 (ask .pf0 0) = true ∧ (∃ x ∈ allReadings s, 1600 ≤ x.2)
         ∧ after (.tripClear (ask .pf0 0)) s (fun t => finalOf t heatPage == some 0x0100
             && rget t heatPage Reg.heat.TRIPPED == 1 && t.fq == s.fq) = true
         ∧ (let u := rset (freqPage 3) Reg.dieFreq.TEMP 1599 s 7
            (∀ x ∈ allReadings u, x.2 < 1600)
              ∧ after (.tripClear (ask .pf0 0)) u (fun t => finalOf t heatPage == some 0
                  && rget t heatPage Reg.heat.TRIPPED == 0 && !t.fq.tripPin && !bitAt (hget t heatPage).irqRaw 9) = true)) := by
  decide +kernel

/-! ### Op streams and arithmetic (chapters 10 and 11) -/

/-- Slot 2 runs on core 87 with a granted, powered die; job objects 4 and 5 are physical objects 2600 and 2601, a counter each,
and the stream is that of the worked example of chapter 11. -/
def jobS : State :=
  let im : Image := {
    size := 1, regime := 1, canalN := 0, dev := 0, group := 1, jobId := 9, draw := 0, hubObjects := 0,
    certDigest := [], certOff := 0, certSize := 0, dies := [{ cores := 1, place := 0, sram := 1, objects := 2 }],
    cores := [{ jdie := 0, pin := 0, base := 0, initOff := 0, initSize := 0 }],
    regions := [{ jbase := 0, granules := 1, kind := 0, dataOff := 0, dataSize := 0 }, { jbase := 8, granules := 1, kind := 0, dataOff := 0, dataSize := 0 }], objects := [] }
  let ws := [[0x00000005, 0x00014003, 0, 0], [0x08000003, 4, 1, 0x00040000], [0x8004E020, 0x03FC2000, 0x08001000, 0x04003000],
    [0x00081191, 0x07FC3000, 0, 0x3100], [0x10002122, 0x3100, 0x40000, 0x00400040], [0x84, 5, 1, 0], [0x106, 4, 0, 0], [7, 0, 0, 0]]
  let bs := ws.flatten.flatMap (leBytes 4)
  slotSet 2 { st := .running, image := some im, memGr := [[70], [71]], dies := [5], cores := [87], srams := [0], objs := [(4, 2600), (5, 2601)] }
    (rset (seqPage 87) Reg.sequencer.STATE 1 (rset (corePage .core 87) Reg.core.SLOT 2
      (rset (corePage .core 87) Reg.core.SLOT_VALID 1 (head (corePage .core 87) (fun h => { h with grant := 50 })
        (head (corePage .dma 87) (fun h => { h with grant := 9 }) { flow with
          co := { flow.co with sram := Mem.writeL 0x00 [] (coreAt 87 0) bs }
          sy := { flow.sy with objs := [(2600, (1, 0)), (2601, (1, 5))] } })))))

/-- The sequencer of core 87 at descriptor `pc`, with what it runs. -/
def at87 (pc : Nat) (r : CoreRun) (s : State) : State := setRun 87 r (rset (seqPage 87) Reg.sequencer.PC pc s)

/-- The descriptor of four words. -/
def desc (a b c d : Nat) : Desc := { w0 := a, w1 := b, w2 := c, w3 := d }

/-- Core 87 decodes `d` at its pc. -/
def decoded (s : State) (d : Desc) : Bool := match decodeAt s 87 with | .ok e => d == e | .error _ => false

/-- The loop of the worked example in iteration `i`. -/
def inLoop (i : Nat) : CoreRun := { loops := [{ start := 1, last := 5, i := i, n := 4 }] }

theorem test_loop : controlAt jobS 87 5 = some (desc 5 0x14003 0 0)
    ∧ after (.loop 87) jobS (fun t => seqPc t 87 == 1 && coreRun t 87 == inLoop 0) = true := by decide +kernel

/-- Iteration 2 of the example: VALUE steps to 3, the A band to unit 0x2200, DST to 0x40020. -/
theorem test_wait : (let s := at87 1 (inLoop 2) jobS
    jobOf s 87 = (slotGet s 2).image.map (fun im => (2, slotGet s 2, im)) ∧ localObj (slotGet s 2) 4 = some 2600
      ∧ (coreRun s 87).sigs = [] ∧ controlAt s 87 3 = some (desc 0x08000003 4 3 0x40000)
      ∧ waitHolds (objGet s 2600) 3 = false
      ∧ after (.wait 87) s (fun t => rget t (seqPage 87) Reg.sequencer.STATE == 2 && seqPc t 87 == 2
          && t.sy.waiters == [{ core := 87, obj := 2600, value := 3 }] && t.sy.objs == s.sy.objs) = true
      ∧ (let u := { s with sy := { s.sy with objs := [(2600, (1, 3))] } }
         waitHolds (objGet u 2600) 3 = true
           ∧ after (.wait 87) u (fun t => rget t (seqPage 87) Reg.sequencer.STATE == 1 && seqPc t 87 == 2 && t.sy == u.sy) = true)) := by
  decide +kernel

theorem test_issue : (let s := at87 2 (inLoop 2) jobS
    let m := desc 0x8004E020 0x03FC2200 0x08001000 0x04003000
    seqDecodes s 87 = true ∧ decoded s m = true ∧ depMet (coreRun s 87) m = true ∧ m.op = 0 ∧ unitQuiet s 87 m = false
      ∧ (m.arrays, m.tileCols, m.k) = (8, 4, 256)
      ∧ after (.descriptorIssue 87) s (fun t => seqPc t 87 == 3 && (coreRun t 87).mma == [{ pc := 2, d := m }]
          && t.co.sram == s.co.sram) = true
      ∧ (let u := at87 4 (inLoop 2) jobS
         decoded u (desc 0x10002122 0x3100 0x40020 0x00400040) = true ∧ unitQuiet u 87 (desc 0x10002122 0x3100 0x40020 0x00400040) = false
           ∧ after (.descriptorIssue 87) u (fun t => (coreRun t 87).dma1.length == 1 && seqPc t 87 == 5) = true)
      ∧ (let u := at87 3 { inLoop 2 with mma := [{ pc := 2, d := m }] } jobS
         depMet (coreRun u 87) (desc 0x81191 0x7FC3000 0 0x3100) = false
           ∧ after (.descriptorIssue 87) u (fun t => t == u) = true)
      ∧ (let u := at87 3 (inLoop 2) jobS
         decoded u (desc 0x81191 0x7FC3000 0 0x3100) = true ∧ depMet (coreRun u 87) (desc 0x81191 0x7FC3000 0 0x3100) = true
           ∧ after (.descriptorIssue 87) u (fun t => (coreRun t 87).vec.length == 1) = true)
      ∧ (let u := head (pageOf .arrayGroup 1 5) (fun h => { h with quiesce := true }) s
         unitQuiet u 87 m = true ∧ after (.descriptorIssue 87) u (fun t => t == u) = true)
      ∧ (let u := head (corePage .core 87) (fun h => { h with quiesce := true }) s
         after (.descriptorIssue 87) u (fun t => t == u) = true)
      ∧ (let u := { s with we := { s.we with retained := [21] } }
         inRetention u 87 = true ∧ after (.descriptorIssue 87) u (fun t => t == u) = true)
      ∧ (let u := at87 1 {} jobS
         (match decodeAt u 87 with | .ok _ => false | .error c => c == 9) = true
           ∧ after (.descriptorIssue 87) u (fun t => rget t (seqPage 87) Reg.sequencer.STATE == 5
              && rget t (seqPage 87) Reg.sequencer.ERR_CODE == 9 && rget t (seqPage 87) Reg.sequencer.ERR_PC == 1
              && bitAt (hget t (seqPage 87)).irqStat 10 && (slotGet t 2).st == .faulted && (slotGet t 2).cause == 1) = true)) := by
  decide +kernel

theorem test_descriptor_complete : (let m := desc 0x8004E020 0x03FC2200 0x08001000 0x04003000
    let s := at87 3 { mma := [{ pc := 2, d := m, done := true }] } jobS
    unitQueue (coreRun s 87) .mma = [{ pc := 2, d := m, done := true }]
      ∧ after (.descriptorComplete 87 .mma) s (fun t => unitQueue (coreRun t 87) .mma == []
          && rget t (seqPage 87) Reg.sequencer.RETIRED == 1 && t.sy == s.sy) = true) := by decide +kernel

/-- Core 87 with `op` at descriptor 0. -/
def only (d : Desc) : State :=
  { jobS with co := { jobS.co with sram := Mem.writeL 0x00 jobS.co.sram (coreAt 87 0) ([d.w0, d.w1, d.w2, d.w3].flatMap (leBytes 4)) } }

theorem test_signal : (let d := desc 0x84 5 1 0
    let s := at87 5 (inLoop 3) jobS
    localObj (slotGet s 2) 5 = some 2601 ∧ controlAt s 87 4 = some d ∧ ctrlPair (objGet s 2601).1 = false
      ∧ after (.signalAdd 87) s (fun t => objGet t 2601 == (1, 6) && objGet t 2600 == (1, 0) && seqPc t 87 == 6
          && (coreRun t 87).loops == []) = true
      ∧ (let u := at87 5 (inLoop 1) { jobS with sy := { jobS.sy with objs := [(2601, (2, 0))] } }
         controlAt u 87 4 = some d ∧ after (.signalAdd 87) u (fun t => objGet t 2601 == (2, 1) && seqPc t 87 == 1
           && coreRun t 87 == inLoop 2) = true)
      ∧ (let u := at87 5 (inLoop 1) { jobS with sy := { jobS.sy with objs := [(2601, (0x303, 0x5003))] } }
         controlAt u 87 4 = some d ∧ after (.signalAdd 87) u (fun t => objGet t 2601 == (0x303, 0x6000)) = true)
      ∧ (let u := at87 5 (inLoop 1) { jobS with sy := { jobS.sy with objs := [(2601, (0x303, 0x5002))] } }
         after (.signalAdd 87) u (fun t => objGet t 2601 == (0x303, 0x5003)) = true)
      ∧ (let u := only (desc 0x104 5 77 0)
         controlAt u 87 4 = some (desc 0x104 5 77 0) ∧ after (.signalSet 87) u (fun t => objGet t 2601 == (1, 77)) = true)
      ∧ (let u := { only (desc 0x104 5 77 0) with sy := { jobS.sy with objs := [(2601, (2, 0))] } }
         controlAt u 87 4 = some (desc 0x104 5 77 0) ∧ after (.signalSet 87) u (fun t => objGet t 2601 == (2, 1)) = true)) := by
  decide +kernel

theorem test_mark_end : (let s := at87 6 {} jobS
    slotOfCore s 87 = some 2 ∧ controlAt s 87 6 = some (desc 0x106 4 0 0)
      ∧ after (.mark 87) s (fun t => rget t (seqPage 87) Reg.sequencer.MARK_VAL == 4 && (slotGet t 2).lastMark == 4
          && bitAt (hget t (seqPage 87)).irqStat 8 && bitAt (hget t (slotPage 2)).irqStat 10 && seqPc t 87 == 7) = true
      ∧ (let u := at87 7 {} jobS
         controlAt u 87 7 = some (desc 7 0 0 0) ∧ unitsIdle (coreRun u 87) = true
           ∧ (∀ c ∈ (slotGet u 2).cores, c = 87 ∨ c ∈ (slotGet u 2).ended)
           ∧ after (.endOp 87) u (fun t => rget t (seqPage 87) Reg.sequencer.STATE == 4 && (slotGet t 2).st == .done
              && bitAt (hget t (seqPage 87)).irqStat 9) = true
           ∧ (let v := slotSet 2 { slotGet u 2 with cores := [87, 88] } u
              (∃ c ∈ (slotGet v 2).cores, c ≠ 87 ∧ c ∉ (slotGet v 2).ended)
                ∧ after (.endOp 87) v (fun t => (slotGet t 2).st == .running && (slotGet t 2).ended == [87]) = true))) := by
  decide +kernel

/-- Core 87 with `d` the oldest descriptor of a unit and bytes at some units. -/
def unitS (u : SeqUnit) (d : Desc) (ms : List (Nat × List Byte)) : State :=
  setRun 87 (setUnitQueue {} u [{ pc := 0, d := d }]) { jobS with
    co := { jobS.co with sram := ms.foldl (fun m x => Mem.writeL 0x00 m (coreAt 87 (16 * x.1)) x.2) jobS.co.sram } }

/-- INT32 addition wraps: 0x7FFFFFFF + 1 and 5 + 7. -/
theorem test_vec : (let d := desc 0x00045801 0x00040100 0x110 0x120
    let s := unitS .vec d [(0x100, [0xFF, 0xFF, 0xFF, 0x7F, 5, 0, 0, 0]), (0x110, [1, 0, 0, 0, 7, 0, 0, 0])]
    nextOp (coreRun s 87) .vec = some { pc := 0, d := d } ∧ d.vop = 24 ∧ coreStalled s 87 = false ∧ unitHeld s 87 false = false
      ∧ memoriesWf s
      ∧ unitPoisoned s 87 (vecReads d) = false
      ∧ after (.viadd 87) s (fun t => Mem.readN 0x00 t.co.sram (coreAt 87 0x1200) 8 == [0, 0, 0, 0x80, 12, 0, 0, 0]
          && (coreRun t 87).vec == [{ pc := 0, d := d, done := true }] && t.hbm == s.hbm && t.sy == s.sy) = true
      ∧ after (.visub 87) s (fun t => t == s) = true
      ∧ after (.viadd 87) { s with we := { s.we with duty := 0 } } (fun t => t == { s with we := { s.we with duty := 0 } }) = true
      ∧ (let u := { s with co := { s.co with sramBad := [(87 * 2 ^ 22 + 0x1000) / 8] } }
         unitPoisoned u 87 (vecReads d) = true ∧ slotOfCore u 87 = some 2 ∧ (slotGet u 2).st = .running
           ∧ after (.viadd 87) u (fun t => (slotGet t 2).st == .faulted && (slotGet t 2).cause == 2
              && t.co.sram == u.co.sram) = true)) := by decide +kernel

/-- An INT8 tile with K = 4: the rows of A hold 1, the columns of B hold −2, so every accumulator is −8. -/
theorem test_mma : (let d : Nat → Desc := fun dr => desc (dr * 2 ^ 31 + 0x09000000) 0x000C0100 0x110 0x120
    let u := fun dr => unitS .mma (d dr) [(0x100, List.replicate 32 1), (0x110, List.replicate 32 0xFE)]
    let s := fun dr => { u dr with we := { (u dr).we with credits := [{ core := 87, array := 0, fmt := mmaClass (d dr).fmtA, first := 15625000, last := 15625000 }] } }
    (coreRun (s 1) 87).mma = [{ pc := 0, d := d 1 }] ∧ memoriesWf (s 1) ∧ inRetention (s 1) 87 = false
      ∧ arraysCredited (s 1) 87 (d 1) = true ∧ arraysCredited (u 1) 87 (d 1) = false ∧ coreStalled (s 1) 87 = false ∧ after (.mma 87) (u 1) (fun t => t == u 1) = true
      ∧ unitPoisoned (s 1) 87 (mmaReads (d 1)) = false
      ∧ (d 1).drain = true
      ∧ after (.mma 87) (s 1) (fun t => Mem.readN 0x00 t.co.sram (coreAt 87 0x1200) 8 == [0xF8, 0xFF, 0xFF, 0xFF, 0xF8, 0xFF, 0xFF, 0xFF]
          && Mem.readN 0x00 t.co.sram (coreAt 87 0x12FC) 5 == [0xF8, 0xFF, 0xFF, 0xFF, 0]
          && (coreRun t 87).mma == [{ pc := 0, d := d 1, done := true }] && (coreRun t 87).held == []) = true
      ∧ (d 0).drain = false
      ∧ after (.mma 87) (s 0) (fun t => t.co.sram == (s 0).co.sram
          && (coreRun t 87).held == [{ array := 0, int := true, words := List.replicate 64 0xFFFFFFF8 }]) = true) := by decide +kernel

theorem test_dma : (let d : Nat → Nat → Desc := fun dsp w2 => desc (dsp * 4096 + 2) 0x100 w2 1
    let bs := (List.range 16).map (BitVec.ofNat 8)
    let s := fun dsp w2 => unitS .dma0 (d dsp w2) [(0x100, bs)]
    nextOp (coreRun (s 0 0x120) 87) .dma0 = some { pc := 0, d := d 0 0x120 } ∧ (hget (s 0 0x120) (corePage .dma 87)).grant ≠ 0
      ∧ unitHeld (s 0 0x120) 87 true = false ∧ peerHeld (s 3 3) 87 (d 3 3) = false
      ∧ memoriesWf (s 0 0x120) ∧ (d 0 0x120).ssp = 0 ∧ (d 0 0x120).dsp = 0
      ∧ (coreRead (s 0 0x120) 87 0x1000 16).2 = []
      ∧ after (.dma 87 0) (s 0 0x120) (fun t => Mem.readN 0x00 t.co.sram (coreAt 87 0x1200) 16 == bs
          && Mem.readN 0x00 t.co.sram (coreAt 87 0x1000) 16 == bs && rget t (corePage .dma 87) Reg.dma.BYTES == 16
          && (coreRun t 87).dma0 == [{ pc := 0, d := d 0 0x120, done := true }]) = true
      ∧ (d 2 3).dsp = 2 ∧ (match jobOf (s 2 3) 87 with
          | some (2, x, im) => jobPieces x im writable (64 * 3) 16 == some [(70 * granuleSize + 192, 16)]
          | _ => false) = true
      ∧ after (.dma 87 0) (s 2 3) (fun t => Mem.readN 0x00 t.hbm.data (70 * granuleSize + 192) 16 == bs
          && t.co.sram == (s 2 3).co.sram) = true
      ∧ 3 ≤ (d 3 3).dsp
      ∧ after (.dma 87 0) (s 3 3) (fun t => (coreRun t 87).dma0 == [{ pc := 0, d := d 3 3, done := true, tag := some 0 }]
          && t.ner.nextTag == 1) = true) := by decide +kernel

/-- −0 and the largest subnormal of every format stand; the scale of the formats is that of R271. -/
theorem test_formats : e4m3 ∈ [e4m3, e5m2, fp16, bf16, fp32] ∧ 0x80 < 2 ^ e4m3.w ∧ e4m3.decode 0x80 = .fin true 0 (-9)
    ∧ e4m3.decode 0x80 ≠ .nan ∧ e4m3.encode true (e4m3.decode 0x80) = 0x80 ∧ e4m3.decode 0x7F = .nan
    ∧ e5m2.decode 0x7C = .inf false ∧ e5m2.encode true (.inf false) = 0x7C ∧ e5m2.encode false (.inf false) = 0x7B
    ∧ fp16.encode true (fp16.decode 0x03FF) = 0x03FF ∧ bf16.encode true (bf16.decode 0x807F) = 0x807F
    ∧ fp32.decode 0x3F800000 = .fin false (2 ^ 23) (-23) := by decide +kernel

theorem test_int_tile : (let a : Band := { cols := [[1, 0, 0, 0, 0, 0, 0, 0], [0x80, 0, 0, 0, 0, 0, 0, 0]], scales := [] }
    let b : Band := { cols := [[0xFF, 0, 0, 0, 0, 0, 0, 0], [2, 0, 0, 0, 0, 0, 0, 0]], scales := [] }
    ([100] : List Nat).getD (8 * 0 + 0) 0 < 2 ^ 32
      ∧ (tile 2 2 a b [100]).getD 0 0 = 0xFFFFFF63) := by decide +kernel

/-! ### Sync objects (chapter 12) -/

/-- The worked example of chapter 12: object 4 of the job in slot 11, view 2 of VF3, is physical object 50,452. -/
def objS (ctrl count : Nat) : State :=
  slotSet 11 { st := .running, objs := [(4, 50452)] }
    { flow with br := { flow.br with vfEnable := true }, views := [(11, (3, 2))], sy := { flow.sy with objs := [(50452, (ctrl, count))] } }

/-- The address of a page's register in PF0's control BAR. -/
def bar0 (s : State) (p : Page) (off : Nat) : BitVec 26 :=
  match s.dir.find? fun e => e.page == p with
  | some e => BitVec.ofNat 26 (p.die * 2 ^ 22 + e.num * 4096 + off)
  | none => 0

/-- Completion with the original COUNT. -/
def answers (t : State) (v : Nat) : Bool := t.out.getLast? == some (.completion .ok (leBytes 4 v))

theorem test_object_example : objDie 50452 = 12 ∧ objIndex 50452 = 1300 ∧ objPage 50452 = pageOf .objectPage 5 12
    ∧ ctrlType 0x0010002D = 1 ∧ ctrlOwner 0x0010002D = 11 ∧ ctrlNotify 0x0010002D = true ∧ ctrlHostSet 0x0010002D = false
    ∧ (let w : State := { objS 0x0010002D 0xFFFFFFFE with
          sy := { objs := [(50452, (0x0010002D, 0xFFFFFFFE))], waiters := [{ core := 87, obj := 50452, value := 1 }] } }
       let c := Client.vf 2
       let add := Instr.atomicFetchAdd c (.vfBar0 0x0004C410) false 1
       waitHolds (objGet w 50452) 1 = false
         ∧ after add w (fun t => answers t 0xFFFFFFFE && objGet t 50452 == (0x0010002D, 0xFFFFFFFF)
             && bitAt (rget t (pageOf .objectPage 5 12) Reg.objectPage.NOTIFY_PEND 0) 20 && winNotify t 3 2 0
             && t.sy.waiters == w.sy.waiters
             && after add t (fun t => answers t 0xFFFFFFFF && objGet t 50452 == (0x0010002D, 0)
               && after add t (fun t => answers t 0 && objGet t 50452 == (0x0010002D, 1) && t.sy.waiters == []
                 && rget t (seqPage 87) Reg.sequencer.STATE == 1))) = true) := by decide +kernel

theorem test_atomics : (let s := objS 0x0010002D 41
    let a := bar0 s (pageOf .objectPage 5 12) 0x450
    clientUp s .pf0 = true ∧ pf0Place s a.toNat = .object (pageOf .objectPage 5 12) 50452 true
      ∧ fuseDenied s .pf0 .objectPage = false ∧ offline s (objPage 50452) = false ∧ objDraining s 50452 = false
      ∧ (objGet s 50452).2 < 2 ^ 32 ∧ ctrlPair (objGet s 50452).1 = false
      ∧ after (.atomicFetchAdd .pf0 (.control a) false 0xFFFFFFFF) s (fun t => objGet t 50452 == (0x0010002D, 40)
          && answers t 41 && rget t bridgePage Reg.bridge.ATOMICS == 1) = true
      ∧ after (.atomicCas .pf0 (.control a) false 41 7) s (fun t => objGet t 50452 == (0x0010002D, 7) && answers t 41) = true
      ∧ after (.atomicCas .pf0 (.control a) false 40 7) s (fun t => objGet t 50452 == (0x0010002D, 41) && answers t 41) = true
      ∧ (let f := objS 0 0
         ctrlType (objGet f 50452).1 = 0 ∧ after (.atomicFetchAdd .pf0 (.control a) false 1) f (fun t => t.sy == f.sy
           && t.out.getLast? == some (.completion .abort []) && (hget t (pageOf .objectPage 5 12)).errCode == 0x0100
           && rget t bridgePage Reg.bridge.CA_SENT == 1) = true)) := by decide +kernel

theorem test_count_write : (let p := pageOf .objectPage 5 12
    let s := { objS 0x80000001 5 with
      sy := { objs := [(50452, (0x80000001, 5)), (3, (1, 9))], waiters := [{ core := 87, obj := 50452, value := 8 }] } }
    reachesPage s .pf0 p = true ∧ pageObj s p 20 = some 50452 ∧ offline s (objPage 50452) = false ∧ objDraining s 50452 = false
      ∧ ctrlHostSet (objGet s 50452).1 = true
      ∧ waitHolds (0x80000001, 9) 8 = true
      ∧ after (.countWrite .pf0 p 20 9) s (fun t => objGet t 50452 == (0x80000001, 9) && objGet t 3 == (1, 9)
          && t.sy.waiters == [] && rget t (seqPage 87) Reg.sequencer.STATE == 1) = true
      ∧ after (.countWrite .pf0 p 20 9) (objS 0x80000002 0) (fun t => objGet t 50452 == (0x80000002, 1)) = true
      ∧ ctrlHostSet (objGet (objS 1 5) 50452).1 = false ∧ ctrlType (objGet (objS 0x80000003 5) 50452).1 = 3
      ∧ after (.countWrite .pf0 p 20 9) (objS 1 5) (fun t => t.sy == (objS 1 5).sy && (hget t p).errCode == 0x0100) = true) := by
  decide +kernel

theorem test_notify_clear : (let p := pageOf .objectPage 5 12
    let s := rset p Reg.objectPage.NOTIFY_PEND 0x300000 (objS 0x0010002D 5) 0
    reachesPage s .pf0 p = true ∧ offline s p = false ∧ notifyBit s 50452 = true ∧ notifyBit s 50453 = true
      ∧ (∃ k : Fin 32, bitAt (0x100000 : Word).toNat k.val = true ∧ pageObj s p (32 * 0 + k.val) = some 50452)
      ∧ (∀ k : Fin 32, bitAt (0x100000 : Word).toNat k.val = true → pageObj s p (32 * 0 + k.val) ≠ some 50453)
      ∧ after (.notifyClear .pf0 p 0 0x100000) s (fun t => !notifyBit t 50452 && notifyBit t 50453 && t.sy == s.sy) = true
      ∧ (let w := winPage 3 2 0
         reachesPage s (.vf 2) w = true ∧ pageObj s w 4 = some 50452
           ∧ after (.notifyClear (.vf 2) w 0 0x10) s (fun t => !notifyBit t 50452 && notifyBit t 50453) = true)) := by decide +kernel

theorem test_late_response : (let bank := pageOf .syncBank 1 6
    let req := pageOf .syncBank 2 12
    let s := rset bank Reg.syncBank.EPOCH 8 flow
    req.blk = .syncBank ∧ bank.blk = .syncBank ∧ (7 : BitVec 16).toNat ≠ rget s bank Reg.syncBank.EPOCH
      ∧ after (.lateResponse req bank true 7) s (fun t => rget t req Reg.syncBank.LATE_DISCARDS == 1 && t.sy == s.sy) = true
      ∧ after (.lateResponse req bank false 8) s (fun t => rget t req Reg.syncBank.LATE_DISCARDS == 1) = true
      ∧ after (.lateResponse req bank true 8) s (fun t => t == s) = true
      ∧ (let u := head (pageOf .core 3 5) (fun h => { h with epoch := 2 }) s
         after (.lateResponse (pageOf .core 3 5) bank true 1) u (fun t => rget t bank Reg.syncBank.LATE_DISCARDS == 1) = true
           ∧ after (.lateResponse req (pageOf .core 3 5) true 2) u (fun t => t == u) = true)) := by decide +kernel

/-! ### Jobs (chapter 13) -/

/-- A job image of R349: one job die on die 5, core pinned to 87 with END as its stream, one counter; its digests were computed
outside Lean. -/
def jobImg : List Byte := beBytes 288 0x424a464c0100050020010000000000018877665544332211f4010000000000009e32b16585d53f6bcfd5a266e80bc866c6831b780727c3e4ff913c3ea903186bb98c35fdf773812093c39147523a5e08ae40659da1193cdec8df474b5e36416a82473b83d32dbbe1dd6df8ec9499d24902ca08c334876bc8e69e818beecc046a01000000d0000000080000000100000002000000d8000000100000000100000003000000e8000000000000000000000004000000e80000000c0000000100000005000000f400000010000000000000000105010001000000005700000000000010010000100000000400000001000000000000000000000000000000000000000000000000000000000000000000000007000000000000000000000000000000

/-- What the image says. -/
def jobIm : Image := {
  size := 288, regime := 0, canalN := 0, dev := 0, group := 1, jobId := 0x1122334455667788, draw := 500, hubObjects := 0,
  certDigest := (jobImg.drop 0x50).take 48, certOff := 244, certSize := 16, dies := [{ cores := 1, place := 5, sram := 1, objects := 1 }],
  cores := [{ jdie := 0, pin := 87, base := 0, initOff := 272, initSize := 16 }], regions := [],
  objects := [{ jobj := 4, loc := 0, ctrl := 1, count := 0 }] }

/-- Nothing holds core 87, whose pages are enabled and granted. -/
def room : State :=
  let up := fun (p : Page) s => head p (fun h => { h with en := true }) (granted p s)
  let s := { withTable with ck := { withTable.ck with dt := 2000000000 } }
  let s := rset (corePage .core 87) Reg.core.SLOT_VALID 0 s
  let s := up (corePage .core 87) (up (corePage .dma 87) (up (pageOf .arrayGroup (87 % 16 / 4) 5) s))
  rset weirPage Reg.weir.HOST_CAP 60000 s

/-- The image stands at the start of the host region. -/
def staged : State := stackWrite (hostBase room * granuleSize) jobImg [] room

theorem test_bind : (let r := ask .pf0
    accepts flow admissionPage 1 (r (3 + 5 * 32 + 2 * 512)) = true ∧ (∀ x ∈ flow.views, x.2 ≠ (5, 2))
      ∧ after (.bindSlot (r (3 + 5 * 32 + 2 * 512))) flow (fun t => finalOf t admissionPage == some 0
          && t.views == [(3, (5, 2))]) = true
      ∧ (let s := { flow with views := [(9, (5, 2))] }
         (∃ x ∈ s.views, x.2 = (5, 2))
           ∧ after (.bindSlot (r (3 + 5 * 32 + 2 * 512))) s (fun t => finalOf t admissionPage == some 0x0107 && t.views == s.views) = true
           ∧ after (.bindSlot (r 9)) s (fun t => finalOf t admissionPage == some 0x0100) = true
           ∧ after (.bindSlot (r 8192)) s (fun t => finalOf t admissionPage == some 0x0100) = true
           ∧ accepts s admissionPage 1 (r (9 + 4096)) = true ∧ (slotGet s 9).st = .empty
           ∧ after (.unbindSlot (r (9 + 4096))) s (fun t => finalOf t admissionPage == some 0 && t.views == []) = true)) := by
  decide +kernel

/-- The image that a LOAD reads, and what the unit decides. -/
theorem test_decide_load : (∀ d ∈ jobIm.dies, d.place = 0xFF ∨ d.place < 12)
    ∧ decideFit room 3 jobIm = .takes [{ die := 5, unit := 0, cores := [87] }] [(4, 20480)]
    ∧ decideFit (rset weirPage Reg.weir.HOST_CAP 3799 room) 3 jobIm = .refuse 0x0105
    ∧ decideFit (head (corePage .core 87) (fun h => { h with grant := 43 }) room) 3 jobIm = .refuse 0x0103
    ∧ imageForm jobImg (readImage jobImg) = true ∧ readImage jobImg = jobIm := by decide +kernel

theorem test_refuse_load : (decideLoad (slotSet 3 { st := .done } room) 3 0).1 = .refuse 0x0107
    ∧ (decideLoad room 3 0).1 = .refuse 0x0100 ∧ digestsOk (jobImg.set 0x20 0) jobIm = false := by decide +kernel

theorem test_load : accepts room (slotPage 3) 1 (ask .pf0 0) = true
    ∧ after (.load 3 (ask .pf0 0)) room (fun t => t.jb.queue == [{ slot := 3, load := true, peer := none }]
        && (hget t (slotPage 3)).cmd == some (cmdOf room 1 (ask .pf0 0)) && hubRuns t && room.tenants.length == 32
        && after .admissionDecide t (fun u => (slotGet u 3).st == .empty && (slotGet u 3).lastResult == 0x0100
          && finalOf u (slotPage 3) == some 0x0100 && u.jb.queue == [])) = true := by decide +kernel

theorem test_admit : (let s := accepted { staged with jb := { staged.jb with queue := [{ slot := 3, load := true, peer := none }] } } (slotPage 3) 1 (ask .pf0 0)
    hubRuns s = true ∧ (hget s (slotPage 3)).cmd = some (cmdOf staged 1 (ask .pf0 0))
      ∧ after .admissionDecide s (fun u => u.jb.queue == [] && (slotGet u 3).st == .loaded && (slotGet u 3).cores == [87]
          && slotOfCore u 87 == some 3 && finalOf u (slotPage 3) == some 0 && (slotGet u 3).run == 1
          && objGet u 20480 == (1 + 4 * 3, 0) && committed u == 500
          && Mem.readN 0x00 u.co.sram (coreAt 87 0) 4 == [7, 0, 0, 0]) = true) := by decide +kernel

/-- The slot of `room` after its job was loaded and has faulted. -/
def faulted : State :=
  slotSet 3 {
      st := .faulted, image := some jobIm, copyGr := [20000], dies := [5], cores := [87], run := 4,
      pendingRestart := true, faultAt := some 1000000000 } room

theorem test_restart : (let x := slotGet faulted 3
    accepts faulted (slotPage 3) 4 (ask .pf0 0) = true ∧ mayRestart x = true
      ∧ decideFit { faulted with jb := { faulted.jb with queue := [] } } 3 jobIm
          = .takes [{ die := 5, unit := 0, cores := [87] }] [(4, 20480)]
      ∧ jobIm.group = 1
      ∧ after (.restart 3 (ask .pf0 0)) faulted (fun t => t.jb.queue == [{ slot := 3, load := false, peer := none }]
          && t.jb.slots == faulted.jb.slots
          && after .admissionDecide t (fun u => ((slotGet u 3).st == .starting || (slotGet u 3).st == .running)
            && (slotGet u 3).run == 5 && (slotGet u 3).objs == [(4, 20480)] && slotOfCore u 87 == some 3)
          && after .admissionDecide (rset weirPage Reg.weir.HOST_CAP 100 t) (fun u => (slotGet u 3).st == .faulted
            && (slotGet u 3).lastResult == 0x0105 && finalOf u (slotPage 3) == some 0x0105)) = true
      ∧ after (.restart 3 (ask .pf0 1)) faulted (fun t => finalOf t (slotPage 3) == some 0x0100 && t.jb == faulted.jb) = true
      ∧ 1000000000 + 1000000 ≤ faulted.ck.dt ∧ diesDown faulted 3 = 0 ∧ accepts faulted (slotPage 3) 4 (firmwareReq 0) = true
      ∧ after (.autoRestart 3) faulted (fun t => t.jb.queue == [{ slot := 3, load := false, peer := none }]
          && (slotGet t 3).faultAt == none
          && (jEntry t faulted.jr.nextSeq).map (fun e => (e.func, e.src, e.value)) == some (16, 3, 4)) = true) := by decide +kernel

theorem test_start_cancel : (let s := slotSet 2 { slotGet jobS 2 with st := .loaded } jobS
    accepts s (slotPage 2) 2 (ask .pf0 0) = true ∧ ((slotGet s 2).image.map fun im => (im.group, im.dev)) = some (1, 0)
      ∧ (slotGet s 2).waitGroup = none ∧ (slotGet s 2).cores.all (coreSettled s) = true
      ∧ after (.start 2 (ask .pf0 0)) s (fun t => finalOf t (slotPage 2) == some 0 && (slotGet t 2).st == .running) = true
      ∧ after (.start 2 (ask .pf0 1)) s (fun t => finalOf t (slotPage 2) == some 0x0100 && t.jb == s.jb) = true
      ∧ accepts s (slotPage 2) 3 (ask .pf0 0) = true ∧ holdsCores (slotGet s 2).st = true
      ∧ after (.cancel 2 (ask .pf0 0)) s (fun t => finalOf t (slotPage 2) == some 0 && (slotGet t 2).st == .cancelled
          && (slotGet t 2).cause == 9 && !coreAssigned t 87) = true
      ∧ (let u := slotSet 2 { slotGet s 2 with st := .faulted, pendingRestart := true } s
         after (.cancel 2 (ask .pf0 0)) u (fun t => (slotGet t 2).st == .cancelled && !(slotGet t 2).pendingRestart) = true)
      ∧ after (.cancel 4 (ask .pf0 0)) s (fun t => finalOf t (slotPage 4) == some 0x0100 && t.jb == s.jb) = true
      ∧ accepts s (slotPage 2) 5 (ask .pf0 0) = true
      ∧ after (.release 2 (ask .pf0 0)) s (fun t => finalOf t (slotPage 2) == some 0 && slotGet t 2 == {} && !coreAssigned t 87) = true
      ∧ after (.release 2 (ask .pf0 0)) jobS (fun t => finalOf t (slotPage 2) == some 0x0100 && t.jb == jobS.jb) = true) := by
  decide +kernel

theorem test_job_fault : 1 ≤ (2 : Byte).toNat ∧ (2 : Byte).toNat ≤ 8 ∧ holdsCores (slotGet jobS 2).st = true
    ∧ after (.jobFault 2 2 none 6) jobS (fun t => (slotGet t 2).st == .faulted && (slotGet t 2).cause == 2
        && (slotGet t 2).fcore == 0xFF && (slotGet t 2).fdetail == 6 && (slotGet t 2).objs == []
        && bitAt (hget t (slotPage 2)).irqStat 9 && !coreAssigned t 87 && objGet t 2600 == (0, 0)) = true := by decide +kernel

/-! ### Stacked memory and Nerius (chapter 14) -/

/-- Slot 2 of `jobS` as device 0 of a group of two, in run 4; port 1 leads to device 1, and their session has taken three frames. -/
def peerS : State :=
  let x := slotGet jobS 2
  let p := peerPage 2
  let s := slotSet 2 { x with run := 4, image := x.image.map fun i => { i with group := 2 } } jobS
  rset p Reg.peerTable.MAC_HI_P 0xAA00 (rset p Reg.peerTable.MAC_LO_P 1 (rset p Reg.peerTable.PORTS_P 2
    (rset p Reg.peerTable.VALID_P 1 (rset p Reg.peerTable.TAG_P 0x99 (rset p Reg.peerTable.GROUP_TAG 0x77
      (rset (neriusPage 1) Reg.nerius.LSTATE 2 (rset (neriusPage 1) Reg.nerius.MAC_LO 5
        { s with ner := { s.ner with sessions := [{ port := 1, mac := 0xAA0000000001, rx := 3, tx := 9 }] } }))) 1) 1) 1) 1) 1

/-- The peer's next frame. -/
def peerF (h : NerHdr) (payload : List Byte) : NerFrame :=
  { dst := 5, src := 0xAA0000000001, tags := 0, etype := 0x88B5, fcsOk := true, length := frameLength payload.length, payload := payload
    hdr := { h with groupTag := 0x77, run := 4, srcDev := 1, dstDev := 0, seq := 3, ackSeq := 8, tag := 0x1234 } }

/-- The frame is the next of the session of `s`. -/
def nextIn (s : State) (f : NerFrame) : Bool :=
  linkIsUp s 1 && (portDiscard s 1 f).isNone && decide (f.length ≤ 9216)
    && (match sessGet s 1 f.src.toNat with
      | some x => f.hdr.seq.toNat == x.rx && x.queue == [] && x.credit.length == 3 && x.owed.length == 3
      | none => false)

theorem test_peer_write : (let f := peerF { nerHdr .write with address := 48, last := true } [1, 2, 3]
    let g := peerF { nerHdr .write with address := 64, space := 1 } [1, 2, 3]
    nextIn peerS f = true ∧ memoriesWf peerS ∧ liveSlot peerS 1 f = some 2 ∧ sameRun peerS f 2 = true ∧ f.hdr.op = .write
      ∧ (slotGet peerS 2).image.bind (fun im => jobDieAt (slotGet peerS 2) im 0 48 3) = some (5, 48)
      ∧ after (.neriusWrite 1 f) peerS (fun t => Mem.readN 0x00 t.co.dsram (dieAt 5 47) 5 == [0, 1, 2, 3, 0] && t.hbm == peerS.hbm
          && (match t.out.getLast? with
            | some (.nerius 1 a) => a.hdr.op == .wack && a.hdr.tag == 0x1234 && a.hdr.groupTag == 0x99 && a.hdr.seq == 9 && a.dst == f.src
            | _ => false)) = true
      ∧ nextIn peerS g = true ∧ g.hdr.space = 1
      ∧ (slotGet peerS 2).image.bind (fun im => jobPieces (slotGet peerS 2) im writable 64 3) = some [(70 * granuleSize + 64, 3)]
      ∧ after (.neriusWrite 1 g) peerS (fun t => Mem.readN 0x00 t.hbm.data (70 * granuleSize + 63) 5 == [0, 1, 2, 3, 0]
          && t.out == peerS.out && t.co == peerS.co) = true) := by decide +kernel

theorem test_peer_signal : (let f := peerF { nerHdr .signal with obj := 5, value := 3 } []
    nextIn peerS f = true ∧ localObj (slotGet peerS 2) 5 = some 2601 ∧ ctrlType (objGet peerS 2601).1 = 1
      ∧ after (.neriusSignal 1 f) peerS (fun t => objGet t 2601 == (1, 8) && objGet t 2600 == objGet peerS 2600
          && (match t.out.getLast? with
            | some (.nerius 1 a) => a.hdr.op == .sack && a.hdr.tag == 0x1234
            | _ => false)) = true
      ∧ (let q : QOp := { pc := 0, d := desc 2 0 0 1, done := true, tag := some 0x1234 }
         let s := setRun 87 { dma0 := [q], sigs := [{ dev := some 1, obj := 0, set := false, value := 1, tag := some 0x1234 }] } peerS
         nextIn s (peerF (nerHdr .wack) []) = true ∧ (slotGet s 2).cores = [87]
           ∧ after (.wack 1 (peerF (nerHdr .wack) [])) s (fun t => (coreRun t 87).dma0 == [{ q with tag := none }]
              && t.co.sram == s.co.sram) = true
           ∧ after (.sack 1 (peerF (nerHdr .sack) [])) s (fun t => (coreRun t 87).sigs == []
              && rget t (seqPage 87) Reg.sequencer.RETIRED == 1) = true)) := by decide +kernel

theorem test_sessions : (let fr : NerFrame := peerF { nerHdr .signal with value := 1 } []
    let un := fun (q n : Nat) => ({ frame := { fr with hdr := { fr.hdr with seq := BitVec.ofNat 32 q } }, sent := 0, replays := n } : NerTx)
    let x := fun (n : Nat) => ({
      port := 1, mac := 0xAA0000000001, rx := 3, tx := 10, unacked := [un 8 n, un 9 n], owed := [1, 2, 3], oweFrom := some 5 } : Session)
    let s := fun (n : Nat) => { peerS with ner := { peerS.ner with sessions := [x n] } }
    let mac : BitVec 48 := 0xAA0000000001
    let c := peerF { nerHdr .credit with creditReq := 5, creditRsp := 6, creditCtl := 7 } []
    nextIn (s 0) c = true ∧ sessionNamed (s 0) 1 c.src.toNat = true
      ∧ after (.neriusCredit 1 c) (s 0) (fun t => (sessGet t 1 mac.toNat).map (fun y => (y.rx, y.tx, y.credit, y.owed, y.unacked)) ==
          some (4, 10, [2053, 70, 71], [1, 2, 4], [un 9 0]) && t.out == []) = true
      ∧ after (.hello 1 (peerF (nerHdr .hello) [])) (s 0) (fun t => (sessGet t 1 mac.toNat).map (fun y => (y.rx, y.hello, y.unacked))
          == some (4, true, [un 9 0])) = true
      ∧ after (.nak 1 (peerF (nerHdr .nak) [])) (s 0) (fun t => t.out == [.nerius 1 (un 9 0).frame] && linkIsUp t 1
          && rget t (neriusPage 1) Reg.nerius.REPLAYS == 1) = true
      ∧ after (.ackTimeout 1 mac) (s 0) (fun t => t.out == [.nerius 1 (un 8 0).frame, .nerius 1 (un 9 0).frame] && linkIsUp t 1) = true
      ∧ after (.ackTimeout 1 mac) (s 7) (fun t => rget t (neriusPage 1) Reg.nerius.LSTATE == 3) = true
      ∧ after (.creditSendTimer 1 mac) (s 0) (fun t => (match t.out with
          | [.nerius 1 g] => g.hdr.op == .credit && g.hdr.creditReq == 1 && g.hdr.creditCtl == 3 && g.hdr.seq == 10
          | _ => false) && (sessGet t 1 mac.toNat).map (fun y => (y.owed, y.oweFrom)) == some ([0, 0, 0], none)) = true) := by
  decide +kernel

theorem test_group : (let go := fun (st : JobState) => slotSet 2 { slotGet peerS 2 with st := st } peerS
    let s := go .starting
    let f := peerF (nerHdr .announce) (announcePayload (slotGet s 2))
    let bad := peerF (nerHdr .announce) (List.replicate 56 1)
    nextIn s f = true ∧ anySlot s 1 f = some 2 ∧ holdsCores (slotGet s 2).st = true ∧ sameRun s f 2 = true
      ∧ after (.announce 1 f) s (fun t => (slotGet t 2).announced == [(1, 4)] && (slotGet t 2).st == .running) = true
      ∧ after (.announce 1 bad) s (fun t => (slotGet t 2).st == .faulted && (slotGet t 2).cause == 7) = true
      ∧ after (.groupFaultFrame 1 (peerF (nerHdr .fault) [2])) s (fun t => (slotGet t 2).st == .faulted && (slotGet t 2).cause == 8
          && (slotGet t 2).fdetail == 2 && (slotGet t 2).fdev == 1) = true) := by decide +kernel

theorem test_group_restart : (let w : GroupWait := { since := 0, devs := [1, 2] }
    let u := accepted (slotSet 2 { slotGet peerS 2 with st := .starting, waitGroup := some w } peerS) (slotPage 2) 4 (ask .pf0 0)
    let x := slotGet peerS 2
    let v0 := slotSet 2 { x with st := .faulted, image := x.image.map fun i => { i with dev := 1 } } peerS
    let v := rset (peerPage 2) Reg.peerTable.MAC_HI_P 0xAA00 (rset (peerPage 2) Reg.peerTable.MAC_LO_P 1 (rset (peerPage 2)
      Reg.peerTable.PORTS_P 2 (rset (peerPage 2) Reg.peerTable.VALID_P 1 v0 0) 0) 0) 0
    let f := peerF (nerHdr .restart) []
    let r := { f with hdr := { f.hdr with srcDev := 0, dstDev := 1, run := 5 } }
    nextIn v r = true ∧ anySlot v 1 r = some 2
      ∧ after (.neriusRestart 1 r) v (fun t => t.jb.queue == [{ slot := 2, load := false, peer := some 5 }]) = true
      ∧ after (.restartResult 1 (peerF (nerHdr .restartResult) [0, 0])) u (fun t =>
          (slotGet t 2).waitGroup == some { w with devs := [2] }) = true
      ∧ after (.restartResult 1 (peerF (nerHdr .restartResult) [1, 3])) u (fun t => (slotGet t 2).waitGroup == none
          && (slotGet t 2).st == .faulted && (slotGet t 2).lastResult == 0x0103) = true
      ∧ w.since + 10000000 ≤ u.ck.dt
      ∧ after (.restartResultTimeout 2) u (fun t => (slotGet t 2).st == .faulted && (slotGet t 2).lastResult == 0x010D
          && (slotGet t 2).waitGroup == none && finalOf t (slotPage 2) == some 0x010D) = true) := by decide +kernel

theorem test_ports : (after (.linkTrainingLost 1) peerS (fun t => rget t (neriusPage 1) Reg.nerius.LSTATE == 3
        && t.ner.sessions == [] && rget t (neriusPage 1) Reg.nerius.LINK_ERRORS == 1 && (slotGet t 2).cause == 7) = true)
    ∧ slotLive peerS 2 = true ∧ namesPort peerS 1 2 = true
    ∧ (let s := rset (neriusPage 1) Reg.nerius.LSTATE 1 (head (neriusPage 1) (fun h => { h with en := true }) (granted (neriusPage 1)
        { flow with ner := { since := [(1, 400000000)] } }))
       enActive s (neriusPage 1) = true
         ∧ after (.linkUp 1) s (fun t => linkIsUp t 1 && bitAt (hget t (neriusPage 1)).irqStat 8) = true
         ∧ after (.trainAttemptFail 1) s (fun t => rget t (neriusPage 1) Reg.nerius.LSTATE == 0
            && rget t (neriusPage 1) Reg.nerius.TRAIN_FAILS == 1 && Assoc.get t.ner.since 1 == some 1000000000) = true
         ∧ (let u := rset (neriusPage 1) Reg.nerius.LSTATE 0 { s with ner := { since := [(1, 0)] } }
            after (.trainRetry 1) u (fun t => rget t (neriusPage 1) Reg.nerius.LSTATE == 1
              && Assoc.get t.ner.since 1 == some 1000000000) = true)) := by decide +kernel

theorem test_scrub : (let a := 5 * stackGranules * granuleSize + 4096
    let s := { flow with hbm := { flow.hbm with soft := [a / 32], bad := [a / 32 + 1] } }
    let d := ctrlDie a
    (d = 10 ∨ d = 11) ∧ transitOn s = true ∧ draining s (stackPage d) = false ∧ offline s (stackPage d) = false
      ∧ ctrlDie (a + 32) = d
      ∧ after (.patrolScrub (BitVec.ofNat 4 d |>.toNat |> fun n => ⟨n % 12, Nat.mod_lt _ (by decide)⟩) a) s
          (fun t => t.hbm.soft == [] && t.hbm.bad == s.hbm.bad && t.hbm.marks == []) = true
      ∧ after (.patrolScrub ⟨d % 12, Nat.mod_lt _ (by decide)⟩ (a + 32)) s (fun t => t.hbm.marks.map (·.1) == [(a + 32) / granuleSize]) = true) := by
  decide +kernel

theorem test_host_region : (let s := slotSet 3 { st := .done, copyGr := [allGranules - 4000] } flow
    reachesBlock s .pf0 (stackPage 0) = true
      ∧ after (.hostGranulesWrite .pf0 3999) s (fun t => rget t (stackPage 0) Reg.stackCtrl.HOST_GRANULES == 3999
          && hostBase t == allGranules - 3999) = true
      ∧ after (.hostGranulesWrite .pf0 4000) s (fun t => (hget t (stackPage 0)).errCode == 0x0100 && hostBase t == hostBase s) = true
      ∧ after (.hostGranulesWrite .pf0 18433) s (fun t => (hget t (stackPage 0)).errCode == 0x0100) = true) := by decide +kernel

theorem test_discards : (let f := peerF (nerHdr .credit) []
    let n := fun (g : NerFrame) (c : Fld) => after (.neriusFrameDiscard 1 g) peerS (fun t => rget t (neriusPage 1) c == 1
      && t.ner == peerS.ner && t.out == peerS.out)
    n { f with length := 63 } Reg.nerius.RUNTS = true ∧ n { f with length := 9601 } Reg.nerius.JABBER = true
      ∧ n { f with fcsOk := false } Reg.nerius.FCS_ERR = true ∧ n { f with dst := 6 } Reg.nerius.MAC_MISS = true
      ∧ n { f with tags := 2 } Reg.nerius.NOT_NERIUS = true ∧ n { f with etype := 0x0800 } Reg.nerius.NOT_NERIUS = true) := by
  decide +kernel

/-! ### The host bridge (chapter 15) -/

/-- The window write of the worked example, cut down to 12 bytes over a 256 B edge. -/
theorem test_window : (let s := rset bridgePage Reg.bridge.WIN_BASE 55296 flow
    let a := 0x1B000100FC
    let bs := (List.range 12).map (BitVec.ofNat 8)
    linkUp s = true ∧ memoriesWf s ∧ rangeOpen s a 12 = true ∧ 55296 * granuleSize + 0x100FC = a
      ∧ after (.bar2Write 0x100FC bs false) s (fun t => Mem.readN 0x00 t.hbm.data a 12 == bs && t.co == s.co && t.out == s.out
          && after (.bar2Read 0x10100 4) t (fun u => u.out == [.completion .ok [4, 5, 6, 7]])) = true
      ∧ after (.bar2Write 0x100FC bs true) s (fun t => t.hbm == s.hbm && rget t bridgePage Reg.bridge.RX_POISONED == 1) = true
      ∧ (let u := head (stackPage 7) (fun h => { h with phase := .draining }) s
         rangeOpen u a 12 = false ∧ after (.bar2Write 0x100FC bs false) u (fun t => t == u) = true
           ∧ after (.bar2Read 0x100FC 4) u (fun t => (match t.out with
              | [.completion .poisoned bs] => decide (bs.length = 4)
              | _ => false)) = true)
      ∧ readCompletions (fun _ _ => false) 0x3E [1, 2, 3] = [.completion .ok [1, 2], .completion .ok [3]]
      ∧ (∀ f : Fin 16, f.val = 0 → after (.unsupportedRequest f) s (fun t => t.out == [.completion .unsupported []]
          && rget t bridgePage Reg.bridge.UR_SENT == 1) = true)
      ∧ after (.bar2Read 0xFFFFFFFFF 4) s (fun t => t.out == [.completion .unsupported []]) = true
      ∧ reachesBlock s .pf0 bridgePage = true
      ∧ after (.winBaseWrite .pf0 77824) s (fun t => rget t bridgePage Reg.bridge.WIN_BASE == 77824) = true
      ∧ after (.winBaseWrite .pf0 77825) s (fun t => (hget t bridgePage).errCode == 0x0100
          && rget t bridgePage Reg.bridge.WIN_BASE == 55296) = true) := by decide +kernel

theorem test_link_config : (let b := { hub.br with pba := [(0, 19)], msixOn := [0, 3], unmasked := [(3, 1)], vfEnable := true }
    let s := { hub with br := { b with xfers := [(3, 0), (0, 0)] } }
    hubRuns hub = true ∧ (16 : Fin 17).val ∈ [1, 2, 4, 8, 16]
      ∧ after (.pcieLinkUp 3 16) hub (fun t => rget t bridgePage Reg.bridge.RATE == 3 && rget t bridgePage Reg.bridge.WIDTH == 16) = true
      ∧ linkUp s = true ∧ hasFunction s 3 = true
      ∧ after (.msixUnmask 0 19) s (fun t => t.out == [.msix 0 19] && t.br.pba == [] && t.br.unmasked.contains (0, 19)) = true
      ∧ after (.msixUnmask 0 20) s (fun t => t.out == [] && t.br.pba == [(0, 19)]) = true
      ∧ after (.pcieConfigWrite 3 (.msixEnable false)) s (fun t => t.br.msixOn == [0]) = true
      ∧ after (.pcieConfigWrite 3 (.msixMask 1)) s (fun t => t.br.unmasked == []) = true
      ∧ after (.pcieConfigWrite 3 (.maxReadRequest 4096)) s (fun t => Assoc.get t.br.mrrs 3 == some 4096) = true
      ∧ after (.pcieConfigWrite 0 (.vfEnable false)) s (fun t => !t.br.vfEnable && t.br.msixOn == [0] && t.br.xfers == [(0, 0)]) = true) := by
  decide +kernel

/-- The transfer of the worked example, 8 bytes long: channel 3 fills core 87 of slot 2, and post-adds job object 4. -/
def xferS (dir : Nat) : State :=
  let p := dmaPage 3
  rset p Reg.bridgeDma.HOST_LO 0x1000 (rset p Reg.bridgeDma.SPACE 2 (rset p Reg.bridgeDma.SLOT 2 (rset p Reg.bridgeDma.DIR dir
    (rset p Reg.bridgeDma.DEV_LO 0x20000 (rset p Reg.bridgeDma.LEN 8 (rset p Reg.bridgeDma.POST_OBJ 4 (rset p Reg.bridgeDma.POST_EN 1
      { jobS with views := [(2, (3, 2))], br := { jobS.br with vfEnable := true } })))))))

theorem test_xfer : (let s := xferS 0
    let r := ask .pf0 0
    let bs : List Byte := [1, 2, 3, 4, 5, 6, 7, 8]
    let is := fun (e : Except Nat XferAt) => match e with | .ok (.core 87 a) => a == 0x20000 | _ => false
    let bad := fun (s : State) => match xferCheck s 3 (xferOf s 3) with | .error c => c | .ok _ => 0
    accepts s (dmaPage 3) 1 r = true ∧ memoriesWf s ∧ is (xferCheck s 3 (xferOf s 3)) = true
      ∧ xferOpen s (.core 87 0x20000) = true ∧ postObj s (xferOf s 3) = some 2600 ∧ ctrlPair (objGet s 2600).1 = false
      ∧ after (.xfer 3 r .ok bs) s (fun t => finalOf t (dmaPage 3) == some 0 && Mem.readN 0x00 t.co.sram (coreAt 87 0x20000) 8 == bs
          && objGet t 2600 == (1, 1) && rget t (dmaPage 3) Reg.bridgeDma.BYTES_DONE == 8) = true
      ∧ after (.xfer 3 r .ok []) s (fun t => t.br.xfers == [(3, 1000000000)] && t.sy == s.sy
          && (hget t (dmaPage 3)).cmd == some (cmdOf s 1 r)) = true
      ∧ after (.xfer 3 r .poisoned bs) s (fun t => finalOf t (dmaPage 3) == some 0x010C && t.sy == s.sy) = true
      ∧ after (.xfer 3 (ask .pf0 1) .ok bs) s (fun t => finalOf t (dmaPage 3) == some 0x0100 && t.co == s.co) = true
      ∧ (let u := { s with views := [(2, (4, 2))] }
         bad u = 0x0108 ∧ after (.xfer 3 r .ok bs) u (fun t => finalOf t (dmaPage 3) == some 0x0108 && t.co == u.co) = true)
      ∧ (let u := xferS 1
         after (.xfer 3 r .ok []) u (fun t => finalOf t (dmaPage 3) == some 0 && objGet t 2600 == (1, 1)
           && t.out.contains (.hostWrite 3 0x1000 (List.replicate 8 0))) = true
         ∧ (let v := { u with co := { u.co with sramBad := [(coreAt 87 0x20000) / 8] } }
            (xferRead v (.core 87 0x20000) 8).2 = true
              ∧ after (.xfer 3 r .ok []) v (fun t => finalOf t (dmaPage 3) == some 0x010C && t.sy == v.sy) = true))) := by decide +kernel

theorem test_xfer_waits : (let s := accepted { xferS 0 with br := { (xferS 0).br with xfers := [(3, 900000000)] } } (dmaPage 3) 1 (ask .pf0 0)
    900000000 + 50000000 ≤ s.ck.dt ∧ (hget s (dmaPage 3)).cmd.isSome = true
      ∧ after (.dmaCompletionTimeout 3) s (fun t => finalOf t (dmaPage 3) == some 0x010D && t.br.xfers == []
          && rget t bridgePage Reg.bridge.CPL_TIMEOUTS == 1) = true
      ∧ (let u := { s with br := { s.br with msixOn := [0, 3, 4], unmasked := [(3, 2), (4, 2)], pba := [(3, 1)] } }
         linkUp u = true ∧ (u.br.xfers.any fun x => x.1 == 3) = true
           ∧ after (.vfFlr 2) u (fun t => t.br.msixOn == [0, 4] && t.br.unmasked == [(4, 2)] && t.br.pba == [] && t.br.xfers == []
              && finalOf t (dmaPage 3) == some 0x010B && t.rf == u.rf && t.jb == u.jb) = true
           ∧ after .pf0Flr (rset bridgePage Reg.bridge.ROUTE_0 0 (rset bridgePage Reg.bridge.WIN_BASE 9 u) 2) (fun t =>
              !t.br.vfEnable && t.br.msixOn == [] && t.br.xfers == [] && rget t bridgePage Reg.bridge.WIN_BASE == 0
              && rget t bridgePage Reg.bridge.ROUTE_0 2 == 8 && linkUp t) = true)) := by decide +kernel

/-! ### The gateway (chapter 16) -/

/-- A page with its allotment, grant and EN. -/
def live (p : Page) (s : State) : State := head p (fun h => { h with en := true }) (granted p s)

/-- The gateway and its ports run. -/
def gwS : State := (List.range 9).foldl (fun s q => live (portPage q) s) (live gwPage hub)

/-- The tree, comparator 5, limiter 3 and route 40 of the worked example, with no key and SITE_CHANNEL as the only egress. -/
def treeS : State :=
  let w := fun (i v : Nat) (s : State) => rset gwPage Reg.gateway.CMP v s (20 + i)
  let s := w 0 0x00020000 (w 1 0x200007FF (w 2 0x180 (w 3 0x18F gwS)))
  let s := rset gwPage Reg.gateway.LIM 2000 (rset gwPage Reg.gateway.LIM 16 s 7) 6
  { rset gwPage Reg.gateway.ROOT 100 s 1 with
    gw := { routes := [(40, [0x08000371, 0, 0, 0x19, 0, 0, 0, 0])]
            nodes := [(100, 0x0000003300650014), (101, 0xA2), (102, 2)] } }

def canF (id : Nat) (n : Nat) : CanFrame :=
  { ident := BitVec.ofNat 29 id, ide := false, fdf := true, brs := false, payload := List.replicate n 0x5A }

theorem test_can_rx : canOnBus treeS 1 = true ∧ canWellFormed (canF 0x185 16) = true
    ∧ after (.canFrameRx 1 (canF 0x185 16)) (rset (portPage 1) Reg.canPort.FD_EN 1 treeS) (fun t =>
        rget t (portPage 1) Reg.port.RX_FRAMES == 1 && (routeGet t 40).getD 7 0 == 1
        && (t.gw.copies.map fun x => (x.egress, x.cls, x.route, x.cells, x.frame.payload.length)) == [(11, 6, 40, 1, 16)]
        && Assoc.get t.gw.buckets 3 == some (15000000, 1000000)) = true
    ∧ after (.canFrameRx 1 (canF 0x190 16)) (rset (portPage 1) Reg.canPort.FD_EN 1 treeS) (fun t =>
        rget t (portPage 1) Reg.port.DROP 8 == 1 && t.gw == treeS.gw) = true
    ∧ (let s := { treeS with gw := { treeS.gw with buckets := [(3, (999999, 1000000))] } }
       after (.canFrameRx 1 (canF 0x185 16)) (rset (portPage 1) Reg.canPort.FD_EN 1 s) (fun t =>
         rget t (portPage 1) Reg.port.DROP 12 == 1 && t.gw.copies == []) = true)
    ∧ (let s := rset (portPage 1) Reg.canPort.BUS_OFF 1 (rset (portPage 1) Reg.canPort.TEC 255 treeS)
       portActive s 1 = true ∧ after (.canBusOffRecovery 1) s (fun t => rget t (portPage 1) Reg.canPort.BUS_OFF == 0
         && rget t (portPage 1) Reg.canPort.TEC == 0) = true) := by decide +kernel

/-- A route of its own at port 2's root, with W0 and MAX_LEN 25. -/
def leafS (w0 : Nat) : State :=
  { rset gwPage Reg.gateway.ROOT 7 gwS 2 with gw := { routes := [(9, [w0, 0, 0, 25, 0, 0, 0, 0])], nodes := [(7, 4 * 9 + 2)] } }

def rawF (n : Nat) : GwFrame := { k0 := 1, kind := 4, port := 2, payload := List.replicate n 1, time := 0 }

theorem test_route : (let s := leafS 0x08000031
    treeNode s (rget s gwPage Reg.gateway.ROOT 2) = 4 * 9 + 2 ∧ (routeGet s 9).length = 8
      ∧ egressList 0x08000031 2 = [11] ∧ portActive s 11 = true ∧ usedGuar s 6 + 1 ≤ rget s gwPage Reg.gateway.GUAR 6
      ∧ (gwFrame (rawF 25) s).gw.copies.map (fun x => (x.egress, x.cls, x.route, x.cells)) = [(11, 6, 9, 1)]
      ∧ (routeGet (gwFrame (rawF 25) s) 9).getD 7 0 = 1
      ∧ rget (gwFrame (rawF 26) s) (portPage 2) Reg.port.DROP 11 = 1
      ∧ rget (gwFrame (rawF 25) (leafS 0x08000030)) (portPage 2) Reg.port.DROP 8 = 1
      ∧ (routeGet (gwFrame (rawF 25) (leafS 0x08000030)) 9).getD 7 0 = 0
      ∧ rget (gwFrame (rawF 25) (leafS 0x08000033)) (portPage 2) Reg.port.DROP 8 = 1
      ∧ (routeGet (gwFrame (rawF 25) (leafS 0x08000033)) 9).getD 7 0 = 1
      ∧ rget (gwDrop 2 13 s) (portPage 2) Reg.port.DROP 13 = 1) := by decide +kernel

theorem test_eth_rx : (let f : EthFrame := { dst := 0x5, src := 9, tags := [], etype := 0x0806, payload := [1], length := 64, fcsOk := true }
    let s := gwS
    let f := { f with dst := 0xFFFFFFFFFFFF }
    let d := fun (f : EthFrame) k => after (.ethFrameRx f) s (fun t => rget t ethPage Reg.port.DROP k == 1
      && rget t ethPage Reg.port.RX_FRAMES == 1)
    portActive s 4 = true ∧ ethAccepts s f.dst.toNat = true ∧ isPtp s f.etype.toNat f.payload = false
      ∧ rget s ethPage Reg.ethPort.IP_ADDR = 0
      ∧ d { f with length := 63 } 1 = true ∧ d { f with length := 1519 } 2 = true ∧ d { f with fcsOk := false } 3 = true
      ∧ d { f with tags := [1, 2] } 6 = true ∧ d { f with etype := 0x8808 } 7 = true ∧ d f 8 = true
      ∧ ethAccepts s 6 = false ∧ after (.ethFrameRx { f with dst := 6 }) s (fun t => t == s) = true) := by decide +kernel

/-- CRC-16/MODBUS of 01 03 00 00 00 01 is 0x0A84, low byte first. -/
theorem test_serial_rx : (let p : List Byte := [1, 3, 0, 0, 0, 1]
    let s := rset (portPage 5) Reg.uartPort.MODE 0 (rset gwPage Reg.gateway.ROOT 7 { gwS with
      gw := { routes := [(9, [0x04000031, 0, 0, 25, 0, 0, 0, 0])], nodes := [(7, 4 * 9 + 2)] } } 5)
    let s := rset gwPage Reg.gateway.ROOT 7 s 7
    crcModbus p = 0x0A84 ∧ portActive s 5 = true
      ∧ after (.modbusAduRx 0 (p ++ [0x84, 0x0A])) s (fun t =>
          (t.gw.copies.map fun x => (x.frame.k0, x.frame.kind, x.frame.payload)) == [(0x0301, 3, p)]) = true
      ∧ after (.modbusAduRx 0 (p ++ [0x84, 0x0B])) s (fun t => rget t (portPage 5) Reg.port.DROP 3 == 1) = true
      ∧ after (.modbusAduRx 0 [1, 2, 3]) s (fun t => rget t (portPage 5) Reg.port.DROP 4 == 1) = true
      ∧ after (.modbusAduRx 0 (List.replicate 257 0)) s (fun t => rget t (portPage 5) Reg.port.DROP 5 == 1) = true
      ∧ (let u := rset (portPage 5) Reg.uartPort.MODE 1 s
         after (.rawUartRx 0 [7, 8]) u (fun t => (t.gw.copies.map fun x => (x.frame.k0, x.frame.kind, x.frame.payload)) == [(7, 4, [7, 8])]) = true
           ∧ after (.rawUartRx 0 (List.replicate 257 0)) u (fun t => rget t (portPage 5) Reg.port.DROP 5 == 1) = true)
      ∧ (let r : PmbResult := { addr := 0x20, command := 0x8B, proto := 3, data := [1, 2], pecOk := true, acked := true }
         let u := rset (portPage 7) Reg.pmbPort.POLL (0x20 + 0x80 + 0x8B * 256 + 2 * 65536 + 2 ^ 20 + 2 ^ 21) s 4
         portTakes u 7 = true ∧ portActive u 7 = true ∧ r.data.length ≤ 255 ∧ pollDue u 7 4 = true
           ∧ after (.pmbusAlertRead 0 r) u (fun t => (t.gw.copies.map fun x => (x.frame.k0, x.frame.kind)) == [(0x38B20, 5)]) = true
           ∧ after (.pmbusAlertRead 0 { r with pecOk := false }) u (fun t => rget t (portPage 7) Reg.port.DROP 3 == 1) = true
           ∧ after (.pmbusPoll 0 4 { r with acked := false }) u (fun t => rget t (portPage 7) Reg.port.DROP 7 == 1
              && Assoc.get t.gw.polls (7, 4) == some u.ck.dt) = true
           ∧ after (.pmbusPoll 0 4 r) u (fun t => (t.gw.copies.map fun x => (x.frame.k0, x.frame.kind)) == [(0x28B20, 5)]) = true
           ∧ (let v := rset (portPage 7) Reg.pmbPort.POLL (0x20 + 0x80 + 0x8B * 256 + 3 * 65536 + 2 ^ 20 + 2 ^ 21) u 4
              after (.pmbusPoll 0 4 r) v (fun t => t == v) = true))) := by
  decide +kernel

/-- A copy of `rawF` waits for an egress. -/
def copyS (q : Nat) : State := { gwS with gw := { copies := [{ egress := q, cls := 3, route := 9, words := [0x31, 0, 0, 25, 0, 0, 0, 0],
                                                               frame := rawF 6, cells := 1 }] } }

theorem test_egress : ((nextCopy (copyS 5) 5).map fun x => x.1.egress) = some 5 ∧ portActive (copyS 5) 5 = true
    ∧ after (.egressSend 5) (rset (portPage 5) Reg.uartPort.MODE 1 (copyS 5)) (fun t => t.out == [.uart 5 (List.replicate 6 1)]
        && t.gw.copies == [] && rget t gwPage Reg.gateway.FORWARDED == 1 && rget t (portPage 5) Reg.port.TX_FRAMES == 1) = true
    ∧ after (.egressSend 5) (rset (portPage 5) Reg.uartPort.MODE 0 (copyS 5)) (fun t =>
        t.out == [.uart 5 (List.replicate 6 1 ++ leBytes 2 (crcModbus (List.replicate 6 1)))]) = true
    ∧ after (.egressSend 8) (copyS 8) (fun t => t.out == [.pmb 8 (List.replicate 6 1)]) = true
    ∧ after (.egressSend 4) (copyS 4) (fun t => (match t.out with
        | [.eth _ _ _ 0x88B6 bs] => bs == [1, 4, 2, 0, 0, 0, 0, 1, 0, 0, 0, 0, 0, 6, 0, 0] ++ List.replicate 6 1
        | _ => false)) = true
    ∧ (let c := canF 0x123 8
       let s := { gwS with gw := { copies := [{ egress := 0, cls := 3, route := 9, words := [0x31, 0, 0, 25, 0, 0, 0, 0], frame := rawF 8,
                                                cells := 1, can := some c, held := true }] } }
       let s := rset (portPage 0) Reg.canPort.FD_EN 1 (rset (portPage 0) Reg.canPort.TEC 4 s)
       ((heldCopy s 0).bind (·.can)) = some c ∧ canMayStart s 0 c = true
         ∧ after (.egressSend 0) s (fun t => t.out == [.can 0 c] && rget t (portPage 0) Reg.canPort.TEC == 3) = true)
    ∧ (let s := copyS 9
       gwActive s = true ∧ serviceUp s = true ∧ ((nextCopy s 9).map fun x => x.1.egress) = some 9 ∧ 1000000 ≤ bucketNow s 128 5000 32
         ∧ siteCommandOk s 1 false 0 (List.replicate 6 1) = false
         ∧ after .slowDeliver s (fun t => t.gw.copies == [] && (t.gw.seen.map fun x => (x.length, x.take 4, x.drop 32))
             == [(38, [1, 0, 0, 0], List.replicate 6 1)]) = true) := by decide +kernel

theorem test_routes : (let r := ask .pf0
    let w := fun (i v : Nat) (s : State) => rset gwPage Reg.gateway.RT_W v s i
    let s := w 0 0x04010371 (w 1 0x000D0C03 (w 3 0x19 (w 4 0x00290028 gwS)))
    accepts s gwPage 1 (r 40) = true ∧ routeBad (routeStage s) = false
      ∧ after (.routeSet (r 40)) s (fun t => finalOf t gwPage == some 0
          && routeGet t 40 == [0x04010371, 0x000D0C03, 0, 0x19, 0x00290028, 0, 0, 0]
          && routeGet t 41 == routeGet s 41) = true
      ∧ (let u := { s with gw := { s.gw with routes := [(40, [1, 2, 3, 4, 5, 6, 7, 8])] } }
         accepts u gwPage 2 (r 40) = true
           ∧ after (.routeGet (r 40)) u (fun t => finalOf t gwPage == some 0 && rget t gwPage Reg.gateway.RT_W 7 == 8) = true)
      ∧ routeBad (routeStage (w 3 58 s)) = true
      ∧ after (.routeSet (r 40)) (w 3 58 s) (fun t => finalOf t gwPage == some 0x0100 && t.gw == s.gw) = true
      ∧ after (.routeSet (r 4096)) s (fun t => finalOf t gwPage == some 0x0100) = true
      ∧ accepts s gwPage 2 (r 4096) = true ∧ after (.routeGet (r 4096)) s (fun t => finalOf t gwPage == some 0x0100) = true
      ∧ accepts s gwPage 3 (r 0x641) = true
      ∧ after (.rootSet (r 0x641)) s (fun t => finalOf t gwPage == some 0 && rget t gwPage Reg.gateway.ROOT 1 == 100
          && rget t gwPage Reg.gateway.ROOT 2 == rget s gwPage Reg.gateway.ROOT 2) = true
      ∧ after (.rootSet (r 0x64D)) s (fun t => finalOf t gwPage == some 0x0100) = true
      ∧ after (.rootSet (r (2 ^ 19))) s (fun t => finalOf t gwPage == some 0x0100) = true) := by decide +kernel

theorem test_gw_save : (let s := rset spiPage Reg.spiNor.SFDP_OK 1 gwS
    accepts s gwPage 4 (ask .pf0 0) = true ∧ memoriesWf s ∧ rget s spiPage Reg.spiNor.SFDP_OK = 1 ∧ gwNewest s = none
      ∧ after (.gwSave (ask .pf0 1)) s (fun t => finalOf t gwPage == some 0x0100 && t.bt == s.bt) = true) := by decide +kernel

/-! ### The site bus (chapter 17) -/

/-- The layout and bit rates of the worked example on port 0, an AES-256 key in slot 3, and GT equal to device time; module 7
is SYNCED and may be master at rank 1. -/
def busS : State :=
  let p := portPage 0
  let s := live sbPage gwS
  let s := rset p Reg.canPort.NOM_BRP 1 (rset p Reg.canPort.NOM_TSEG1 62 (rset p Reg.canPort.NOM_TSEG2 15 s))
  let s := rset p Reg.canPort.DATA_BRP 0 (rset p Reg.canPort.DATA_TSEG1 29 (rset p Reg.canPort.DATA_TSEG2 8 s))
  let s := rset p Reg.canPort.FD_EN 1 (rset sbPage Reg.siteBus.SLOTS_M1 39 (rset sbPage Reg.siteBus.SLOT_LEN 500 s))
  let s := rset sbPage Reg.siteBus.SLOT_TYPE (1 + 2 * 4 ^ 8 + 3 * 4 ^ 13) (rset sbPage Reg.siteBus.MODULE_NO 7 (rset sbPage Reg.siteBus.REF_ID 0x10
    (rset sbPage Reg.siteBus.PS_ID 0x20 (rset sbPage Reg.siteBus.WAKE_ID 0x30 (rset sbPage Reg.siteBus.CMD_ID 0x40 (rset sbPage Reg.siteBus.SB_KEY 3
    (rset sbPage Reg.siteBus.CMD_KEY 3 (rset sbPage Reg.siteBus.MASTER_CAP 1 (rset sbPage Reg.siteBus.RANK 1
    (rset sbPage Reg.siteBus.FV_BASE 100 (rset sbPage Reg.siteBus.WAKE_PORT 1 s)))))))))))
  { s with
    sb := { st := 3 }
    sec := { s.sec with slots := [(3, { st := .valid, attr := 1 + 2 ^ 6 + 2 ^ 7 + 2 ^ 16, key := (List.range 32).map (BitVec.ofNat 8) })] } }

/-- Device time moved on. -/
def later (ns : Nat) (s : State) : State := { s with ck := { s.ck with dt := s.ck.dt + ns } }

/-- The worked example: D of a reference is 328.125 µs and of a power-state frame 188.125 µs; slot 8 opens at 4,000 µs, and the frame
starts by 4,271.875 µs. -/
theorem test_durations : frameNs busS 0 (fdFrame 0x11 (List.replicate 48 0)) = 328125
    ∧ frameNs busS 0 (fdFrame 0x20 (List.replicate 20 0)) = 188125
    ∧ slotNow busS = 0 ∧ cycleNow busS = 50 ∧ windowFits (later 131875 busS) 328125 = true ∧ windowFits (later 131876 busS) 328125 = false
    ∧ slotNow (later 3999999 busS) = 7 ∧ slotNow (later 4000000 busS) = 8
    ∧ windowFits (later 4271875 busS) 188125 = true ∧ windowFits (later 4271876 busS) 188125 = false := by decide +kernel

/-- A frame signed by another module that holds the same key, whose counter stands at `n`. -/
def signedBy (i n : Nat) (f : CanFrame) : CanFrame :=
  match canSign 3 i f { busS with sb := { busS.sb with fv := [(i, n)] } } with
  | some x => x.1
  | none => f

/-- The reference of cycle `c` of the master at rank 0; it names `m` for the one before. -/
def refF (c m : Nat) : CanFrame :=
  signedBy 101 9 (fdFrame 0x10 ([16, 0, 39, 0] ++ beBytes 2 500 ++ beBytes 4 c ++ beBytes 8 m ++ List.replicate 23 0))

/-- The form of a reference, as a Bool. -/
def isRef (s : State) (r : Nat) (f : CanFrame) : Bool :=
  !f.ide && f.fdf && f.payload.length == 48 && decide (r < 8) && f.ident.toNat == sbReg s Reg.siteBus.REF_ID + r
    && beNat (sliceB f.payload 0 1) == 16 + r && beNat (sliceB f.payload 2 1) == sbReg s Reg.siteBus.SLOTS_M1
    && beNat (sliceB f.payload 4 2) == sbReg s Reg.siteBus.SLOT_LEN

/-- A module that listens and has the stamp of reference 49. -/
def listenS : State := { busS with sb := { busS.sb with st := 1, stamp := some (980000100, 49), missed := 2, listen := some 5 } }

/-- A synchronised module with the stamps of references 48 and 49. -/
def ranS : State := { busS with sb := { busS.sb with stamp := some (980000000, 49), last := some (960000000, 960000000) } }

/-- A frame with other bytes. -/
def altered (i : Nat) (f : CanFrame) : CanFrame := { f with payload := f.payload.set i 1 }

theorem test_reference : (let s := listenS
    let f := refF 50 980000000
    sbActive s = true ∧ isRef s 0 f = true ∧ (canVerify 3 101 f s).isSome = true
      ∧ after (.referenceRx f) s (fun t => sbReg t Reg.siteBus.REF_RX == 1 && sbReg t Reg.siteBus.MASTER_RANK == 0 && t.sb.missed == 0
          && t.sb.listen == none && t.sb.anchorGt == 980000000 && t.sb.anchorDt == 980000100 && t.sb.st == 2
          && t.sb.stamp == some (1000000000, 50) && fvGet t 101 == 10) = true
      ∧ (let bad := altered 20 f
         isRef s 0 bad = true ∧ canVerify 3 101 bad s = none ∧ after (.referenceRx bad) s (fun t => t == s) = true)
      ∧ (let u := later 500000 s
         slotNow u = 1 ∧ u.sb.closed ≠ some (cycleNow u)
           ∧ after .refMissed u (fun t => sbReg t Reg.siteBus.REF_MISSED == 1 && t.sb.missed == 3 && t.sb.st == 1
              && t.sb.closed == some 50) = true
           ∧ after .refMissed { u with sb := { u.sb with seen := some 50, st := 3 } } (fun t => t.sb.missed == 2 && t.sb.st == 3) = true
           ∧ after .refMissed { u with sb := { u.sb with st := 3, missed := 1 } } (fun t => t.sb.st == 3) = true)
      ∧ 5 + 2 * cycleNs s ≤ s.ck.dt
      ∧ after .masterListenExpire s (fun t => sbMaster t && t.sb.listen == none && t.sb.anchorGt == 1000000000
          && sbReg t Reg.siteBus.MASTER_CHANGES == 1) = true) := by decide +kernel

/-- The third correction of the worked example: −23.0 µs mutes a SYNCED module with a guard of 40 µs. -/
theorem test_mute : after (.referenceRx (refF 50 979977000)) ranS (fun t => t.sb.st == 4
        && sbReg t Reg.siteBus.MUTES == 1 && t.sb.rate == -500 * 65536
        && sbReg t Reg.siteBus.LAST_CORR == 2 ^ 32 - 23000) = true := by decide +kernel

theorem test_own_slots : (let s := busS
    canOnBus s (sbPort s) = true ∧ rget s sbPage Reg.siteBus.MASTER_CAP = 1 ∧ s.sb.txCycle ≠ some (cycleNow s)
      ∧ (cmacKey s 3 6).isSome = true
      ∧ after (.referenceTx .sent) s (fun t => sbMaster t && t.sb.txCycle == some 50 && t.sb.prev == some 1000000000
          && (match t.out with
            | [.can 0 f] => f.ident == 0x11 && f.payload.head? == some 17 && f.payload.length == 48
            | _ => false)) = true
      ∧ after (.referenceTx .sent) (later 131876 s) (fun t => sbReg t Reg.siteBus.TX_FAIL == 1 && sbReg t Reg.siteBus.LAST_FAIL_KIND == 4
          && t.out == []) = true
      ∧ (let f := fdFrame 0x20 (List.replicate 20 0)
         let x : GwCopy := { egress := 0, cls := 6, route := 1, words := List.replicate 8 0, frame := rawF 20, cells := 1, can := some f, slot := some 8 }
         let u := later 4000000 { s with gw := { s.gw with copies := [x] } }
         ownCopy u 8 = some x ∧ sbSynced u = true ∧ slotType u 8 = 2 ∧ (8, cycleNow u) ∉ u.sb.own
           ∧ after (.ownSlotTx 8 .sent) u (fun t => t.out == [.can 0 f] && t.gw.copies == [] && t.sb.own == [(8, 50)]) = true
           ∧ after (.ownSlotTx 8 .lostArbitration) u (fun t => t.out == [] && sbReg t Reg.siteBus.LAST_FAIL_KIND == 2
              && sbReg t Reg.siteBus.LAST_FAIL_SLOT == 8 && bitAt (sbReg t Reg.siteBus.OWN_FAIL 0) 8 && t.gw.copies == []
              && sbReg t Reg.siteBus.INTRUSIONS == 1) = true
           ∧ after (.ownSlotTx 8 .sent) (later 271876 u) (fun t => t.out == [] && sbReg t Reg.siteBus.LAST_FAIL_KIND == 4
              && t.gw.copies == []) = true)) := by decide +kernel

theorem test_power_state : (let b : List Byte := [1, 0] ++ beBytes 2 2500 ++ beBytes 4 9000 ++ beBytes 4 0x80
    let f : CanFrame := { fdFrame 0x23 b with brs := false }
    gwActive busS = true
      ∧ after (.powerStateRx f true 3) busS (fun t => rget t weirPage Reg.weir.SITE_CAP == 9000
          && rget t weirPage Reg.weir.SITE_CAP_VALID == 1 && t.sb.hold == some 3500000000 && sbReg t Reg.siteBus.PS_ACCEPTED == 1) = true
      ∧ after (.powerStateRx { f with payload := b.set 1 1 } true 3) (rset weirPage Reg.weir.SITE_CAP_VALID 1 busS) (fun t =>
          rget t weirPage Reg.weir.SITE_CAP_VALID == 0 && t.sb.hold == none) = true
      ∧ after (.powerStateRx f true 4) busS (fun t => sbReg t Reg.siteBus.PS_REJECTED == 1 && t.sb == busS.sb) = true
      ∧ after (.powerStateRx { f with payload := b.set 11 0x40 } true 3) busS (fun t => sbReg t Reg.siteBus.PS_REJECTED == 1) = true
      ∧ (let u := { busS with sb := { busS.sb with hold := some 1000000000 } }
         after .psHoldExpire u (fun t => t.sb.hold == none && rget t weirPage Reg.weir.SITE_CAP == 4000
           && rget t weirPage Reg.weir.SITE_CAP_VALID == 1) = true)) := by decide +kernel

/-- A command to PG_CMD of the gateway page: ROOT_SET with 0x641, tag 0xABCD. -/
def commandBytes : List Byte :=
  [7, 0, 0, 0] ++ beBytes 4 ((bar0 busS gwPage 0x30).toNat / 4) ++ beBytes 4 3 ++ beBytes 4 0x641 ++ beBytes 4 0xABCD

theorem test_remote : (let f := fdFrame 0x40 commandBytes
    let s := busS
    serviceUp s = true ∧ siteCommandOk s (canK0 f) true 3 f.payload = true ∧ siteCommandOk s (canK0 f) false 3 f.payload = false
      ∧ (match jcPage s (beNat (sliceB f.payload 4 4)) with
        | some (.page p) => p == gwPage
        | _ => false) = true
      ∧ after (.siteBusCommand f true 3) s (fun t => rget t gwPage Reg.gateway.ROOT 1 == 100 && finalOf t gwPage == some 0
          && t.sb.replies.map (·.tag) == [0xABCD]) = true
      ∧ after (.siteBusCommand f false 3) s (fun t => t == s) = true) := by decide +kernel

theorem test_management : (let w : List Byte := [1, 7] ++ (commandBytes.drop 2) ++ beBytes 8 5 ++ beBytes 4 0
    let b := w ++ Crypto.cmac ((List.range 32).map (BitVec.ofNat 8)) w
    let s := rset ethPage Reg.ethPort.IP_ADDR 0x0A000002 (rset ethPage Reg.ethPort.MGMT_UDP 5000 busS)
    portActive s 4 = true ∧ ipAddr s ≠ 0 ∧ mgmtUdp s ≠ 0 ∧ mgmtReject s b = none
      ∧ after (.mgmtCommand 9 0x0A000001 777 b) s (fun t => rget t gwPage Reg.gateway.ROOT 1 == 100 && fvGet t 112 == 5
          && (t.sb.replies.map fun x => (x.tag, x.via)) == [(0xABCD, some (9, (0x0A000001, 777)))]) = true
      ∧ (mgmtReject s (b.set 47 0)).isSome = true
      ∧ after (.mgmtCommand 9 0x0A000001 777 (b.set 47 0)) s (fun t => t.sb == s.sb
          && rget t ethPage Reg.ethPort.MGMT_REJECTED == 1) = true) := by decide +kernel

theorem test_reply : (let x : SbReply := { page := gwPage, tag := 0xABCD, via := none, result := some 0x10000 }
    let s := later 6500000 { busS with sb := { busS.sb with replies := [x] } }
    slotType s (slotNow s) = 3 ∧ s.sb.replies.find? (·.result.isSome) = some x
      ∧ canMayStart s 0 { fdFrame 0x41 [] with payload := List.replicate 20 0 } = true
      ∧ after .commandReply s (fun t => t.sb.replies == [] && (match t.out with
          | [.can 0 f] => f.ident == 0x41 && sliceB f.payload 4 8 == [0, 0, 0xAB, 0xCD, 0, 1, 0, 0]
          | _ => false)) = true
      ∧ (let y := { x with via := some (9, (0x0A000001, 777)) }
         let u := rset ethPage Reg.ethPort.IP_ADDR 0x0A000002 (rset ethPage Reg.ethPort.MGMT_UDP 5000 { s with sb := { s.sb with replies := [y] } })
         after .commandReply u (fun t => t.sb.replies == [] && (match t.out with
           | [.udp 9 0x0A000001 777 b] => sliceB b 4 8 == [0, 0, 0xAB, 0xCD, 0, 1, 0, 0]
           | _ => false)) = true)) := by decide +kernel

/-- A wake frame of module 5 for module 7. -/
def wakeF : CanFrame := signedBy 121 4 { fdFrame 0x30 ([1, 5] ++ beBytes 4 0x80) with brs := false }

/-- The device woke from DRY by frame `f` on port 1. -/
def keptS (f : CanFrame) : State := rset timePage Reg.time.XTAL32_OK 1 { busS with ck := { busS.ck with kept := some (1, f) } }

theorem test_wake : (let f := wakeF
    let s := keptS wakeF
    wakePattern s 1 f = true ∧ (canVerify 3 121 f s).isSome = true ∧ canOnBus s 1 = true
      ∧ after .wakeVerify s (fun t => t.ck.kept == none && t.sb.acks == [(1, 1)] && sbReg t Reg.siteBus.WAKE_SENDER == 5 && t.pw == s.pw) = true
      ∧ (let bad := altered 12 wakeF
         let u := keptS bad
         canVerify 3 121 bad u = none ∧ rget u powerPage Reg.powerState.DIE_ON = 0 ∧ u.pw.falling = []
           ∧ after .wakeVerify u (fun t => t.ck.kept == none && t.pw.mode == .dry && t.pw.dryWhy == .command) = true
           ∧ after (.wakeFrameRx 1 bad) u (fun t => t == u) = true)
      ∧ after (.wakeFrameRx 1 f) s (fun t => t.sb.acks == [(1, 0)] && t.out == []) = true) := by decide +kernel

theorem test_wake_ack_tx : (let s := rset (portPage 1) Reg.canPort.FD_EN 1 { busS with sb := { busS.sb with acks := [(1, 1), (2, 0)] } }
    canMayStart s 1 { fdFrame 0x31 [] with payload := List.replicate 12 0 } = true ∧ (cmacKey s 3 6).isSome = true
      ∧ after .wakeAckTx s (fun t => t.sb.acks == [(2, 0)] && (match t.out with
          | [.can 1 f] => f.ident == 0x31 && f.payload.take 3 == [1, 7, 1] && f.payload.length == 12
          | _ => false)) = true) := by decide +kernel

/-- A WAKE_SEND to modules 3 and 5 runs, `n` frames sent. -/
def sendS (n : Nat) : State :=
  accepted { rset (portPage 1) Reg.canPort.FD_EN 1 busS with sb := { busS.sb with wake := some { mask := 0x28, sent := n, last := 995000000 } } }
    sbPage 1 (ask .pf0 0x28)

/-- Module `m`'s acknowledgement. -/
def ackF (m : Nat) : CanFrame := signedBy (148 + m) 1 (fdFrame 0x31 [1, BitVec.ofNat 8 m, 0])

theorem test_wake_send : (let s := rset (portPage 1) Reg.canPort.FD_EN 1 busS
    accepts s sbPage 1 (ask .pf0 0x28) = true ∧ wakeOnBus s = false ∧ 0 < sbReg s Reg.siteBus.WAKE_TRIES
      ∧ after (.wakeSend (ask .pf0 0x28)) s (fun t => t.sb.wake.map (fun w => (w.mask, w.sent, w.last)) == some (0x28, 1, 1000000000)
          && finalOf t sbPage == none && t.out.length == 1) = true
      ∧ after (.wakeSend (ask .pf0 0)) s (fun t => finalOf t sbPage == some 0x0100 && t.out == []) = true) := by decide +kernel

theorem test_wake_acks : wakeRunning (sendS 3) = true
    ∧ after .wakeSendRepeat (sendS 3) (fun t => t.sb.wake.map (fun w => (w.sent, w.last)) == some (4, 1000000000)) = true
    ∧ after .wakeSendRepeat (sendS 20) (fun t => t.sb.wake == none && finalOf t sbPage == some 0x010D
        && bitAt (hget t sbPage).irqStat 11) = true
    ∧ (let u := rset sbPage Reg.siteBus.ACK_MASK 0x20 (sendS 3)
       (ackF 3).payload.length = 12 ∧ (canVerify 3 151 (ackF 3) u).isSome = true
         ∧ (∀ i : Fin 32, bitAt 0x28 i.val = true → i.val = 3 ∨ bitAt (sbReg u Reg.siteBus.ACK_MASK) i.val = true)
         ∧ after (.wakeAckRx (ackF 3)) u (fun t => t.sb.wake == none && finalOf t sbPage == some 0) = true
         ∧ after (.wakeAckRx (ackF 3)) (sendS 3) (fun t => sbReg t Reg.siteBus.ACK_MASK == 8 && finalOf t sbPage == none
             && t.sb.wake == (sendS 3).sb.wake) = true) := by decide +kernel

/-! ### Site I/O (chapter 18) -/

/-- A channel's limits, priority and state, its present current and its demand. -/
def chanS (n steady hold inrush ms short prio st now : Nat) (s : State) : State :=
  let w := fun (f : Fld) (v : Nat) (s : State) => rset auxPage f v s n
  setDemand n (st != 0) (w Reg.aux.STEADY steady (w Reg.aux.HOLD hold (w Reg.aux.INRUSH inrush (w Reg.aux.INRUSH_MS ms
    (w Reg.aux.SHORT_A short (w Reg.aux.PRIO prio (w Reg.aux.STATE st (w Reg.aux.I_NOW now s))))))))

/-- The floodlights, pump and fans of the worked example with the given states and currents; the pump has been in inrush for
80,000 µs. -/
def auxS (st2 now2 st3 now3 st5 now5 : Nat) : State :=
  let s := head auxPage (fun h => { h with allotReq := 24000, grant := 24000 }) (live auxPage hub)
  setAuxRun 3 { used := 80000000, since := s.ck.dt }
    (chanS 2 400 100 1200 200 20 3 st2 now2 (chanS 3 600 300 1500 300 25 6 st3 now3 (chanS 5 200 50 500 50 8 5 st5 now5 s)))

/-- The currents with AUX2, AUX3 and AUX5 at the given values. -/
def amps (a b c : Nat) : List Nat := [0, 0, a, b, 0, c]

/-- The worked example: the sum 25.0 A holds the pump; the floodlights' short leaves them in FAULT and out of the sum, and the pump
is released with its timer where it was. -/
theorem test_aux_grant : (let s := auxS 3 4000 1 15000 3 2000
    auxSum s = 21000 ∧ auxOver (setCurrents (amps 8000 15000 2000) s) = true
      ∧ after (.auxGrantExcess (amps 8000 15000 2000)) s (fun t => chState t 3 == 2 && chState t 2 == 3 && chState t 5 == 3
          && blockWord t .pf0 auxPage 0x174 % 2 ^ 20 == 80000 && rget t auxPage Reg.aux.HOLDS 3 == 1 && auxSum t == 13000 && t.io.excess == none) = true
      ∧ auxOver (setCurrents (amps 4000 15000 2000) s) = false
      ∧ after (.auxGrantExcess (amps 4000 15000 2000)) s (fun t => t.io.excess == none && chState t 3 == 1) = true
      ∧ (let u := auxS 3 19500 2 3000 3 2000
         auxOver (setCurrents (amps 19500 3000 2000) u) = true
           ∧ after (.auxGrantExcess (amps 19500 3000 2000)) u (fun t => t.io.excess == some 1000000000) = true
           ∧ after (.auxEscalate (amps 19500 3000 2000)) { u with io := { u.io with excess := some 999999500 } } (fun t =>
               chState t 2 == 5 && chState t 3 == 2 && chState t 5 == 3 && demanded t 2) = true
           ∧ after (.auxEscalate (amps 19500 3000 2000)) { u with io := { u.io with excess := some 999999501 } } (fun t =>
               chState t 2 == 3) = true
           ∧ after (.auxShort 2 20000) u (fun t => chState t 2 == 6 && rget t auxPage Reg.aux.CAUSE 2 == 1
               && rget t auxPage Reg.aux.SHORTS 2 == 1 && auxSum t == 5000 && chState t 3 == 2 && chState t 5 == 3) = true)
      ∧ (let u := auxS 6 0 2 3000 3 2000
         duePeriod 1000 u.io.relAt u = true ∧ auxOver (setCurrents (amps 0 3000 2000) u) = false
           ∧ after (.auxReleaseCheck (amps 0 3000 2000)) u (fun t => chState t 3 == 1 && (auxRun t 3).used == 80000000) = true)
      ∧ (let u := auxS 5 0 3 6000 3 2000
         after (.auxReleaseCheck (amps 0 6000 2000)) u (fun t => chState t 2 == 1 && (auxRun t 2).used == 0) = true
           ∧ after (.auxReleaseCheck (amps 0 10001 2000)) u (fun t => chState t 2 == 5) = true)) := by decide +kernel

theorem test_aux_currents : (let s := auxS 3 4000 1 15000 3 2000
    let at_ := fun (n : Nat) (used : Nat) (s : State) => setAuxRun n { used := used, since := s.ck.dt } s
    inrushNs s 3 = 80000000 ∧ after (.inrushSettled 3) s (fun t => chState t 3 == 3 && chState t 2 == 3) = true
      ∧ after (.inrushSettled 3) (at_ 3 999999 s) (fun t => chState t 3 == 1) = true
      ∧ after (.inrushTimeout 3 6000) (at_ 3 300000000 s) (fun t => chState t 3 == 3) = true
      ∧ after (.inrushTimeout 3 6001) (at_ 3 300000000 s) (fun t => chState t 3 == 6 && rget t auxPage Reg.aux.CAUSE 3 == 2
          && bitAt (hget t auxPage).irqStat 8) = true
      ∧ after (.inrushTimeout 3 6001) (at_ 3 299999999 s) (fun t => chState t 3 == 1) = true
      ∧ after (.auxLimitEnter 2 4001) s (fun t => chState t 2 == 4 && chNow t 2 == 4001 && (auxRun t 2).since == s.ck.dt) = true
      ∧ after (.auxLimitEnter 2 4000) s (fun t => chState t 2 == 3) = true
      ∧ (let u := setAuxRun 2 { used := 0, since := 990000000 } (auxS 4 4000 1 15000 3 2000)
         after (.auxLimitingEnd 2 4000) u (fun t => chState t 2 == 3) = true
           ∧ after (.auxOverload 2) u (fun t => chState t 2 == 6 && rget t auxPage Reg.aux.CAUSE 2 == 3) = true
           ∧ after (.auxOverload 2) (setAuxRun 2 { used := 0, since := 990000001 } u) (fun t => chState t 2 == 4) = true)
      ∧ after (.auxShort 2 19999) s (fun t => chState t 2 == 3) = true
      ∧ after (.auxShort 1 30000) (rset auxPage Reg.aux.SHORT_A 8 s 1) (fun t => chState t 1 == 0) = true) := by decide +kernel

/-- Channels 2, 3 and 5 with no demand; the wanted demands 2 and 5 fit, all three with a grant of 10,000 mA do not. -/
theorem test_aux_commands : (let s := auxS 0 0 0 0 0 0
    let r := ask .pf0
    accepts s auxPage 1 (r 0x2424) = true ∧ auxSetBad s 2 true = false ∧ auxFits s 0x24 = true
      ∧ after (.auxSet (r 0x2424)) s (fun t => finalOf t auxPage == some 0 && chState t 2 == 1 && chState t 5 == 1 && chState t 3 == 0
          && demanded t 2 && demanded t 5 && !demanded t 3) = true
      ∧ after (.auxSet (r 0x0424)) (auxS 3 0 0 0 3 0) (fun t => chState t 2 == 3 && chState t 5 == 0 && !demanded t 5) = true
      ∧ (let u := head auxPage (fun h => { h with grant := 10000 }) s
         auxFits u 0x2C = false ∧ after (.auxSet (r 0x2C2C)) u (fun t => finalOf t auxPage == some 0x101 && t.rf == u.rf) = true)
      ∧ (let u := auxS 6 0 0 0 0 0
         after (.auxSet (r 0x0404)) u (fun t => finalOf t auxPage == some 0x100) = true
           ∧ accepts u auxPage 2 (r 0x24) = true
           ∧ after (.auxClear (r 0x24)) u (fun t => finalOf t auxPage == some 0 && chState t 2 == 0 && !demanded t 2) = true
           ∧ after (.auxClear (r 0x100)) u (fun t => finalOf t auxPage == some 0x100 && chState t 2 == 6) = true)
      ∧ after (.auxSet (r 0x0404)) { rset auxPage Reg.aux.EPO_MASK 4 s with io := { s.io with epoLatched := true } } (fun t =>
          finalOf t auxPage == some 0x100) = true
      ∧ after (.auxSet (r 0x0404)) (rset auxPage Reg.aux.OWNER 1 s 2) (fun t => finalOf t auxPage == some 0x100) = true
      ∧ after (.auxSet (r 0x0404)) (rset auxPage Reg.aux.INRUSH 1201 s 2) (fun t => finalOf t auxPage == some 0x100) = true
      ∧ after (.auxSet (r 0x10404)) s (fun t => finalOf t auxPage == some 0x100) = true) := by decide +kernel

/-- EPO_DISC 100 ms, TAMP_DISC 100 ms, channel 5 in EPO_MASK and ON; a tamper is answered at level `resp`. -/
def dualS (resp : Nat) : State :=
  let s := rset dualPage Reg.dualIn.EPO_DISC 100 (rset dualPage Reg.dualIn.TAMP_DISC 100 (live dualPage (auxS 3 0 6 0 3 0)))
  let s := rset auxPage Reg.aux.EPO_MASK 0x28 s
  { s with fuse := { s.fuse with tamperResp := resp }, fuseOn := { s.fuseOn with tamperResp := resp }
           sec := { s.sec with slots := [(3, { st := .valid })] } }

/-- The worked example: 100 ms is 3,277 ticks; agreement at tick 3,276 is accepted and tick 3,277 is a discrepancy fault. -/
theorem test_epo : (let s := dualS 0
    let timing := fun (ns : Nat) => later ns { s with io := { s.io with epo := { s.io.epo with a := true, timing := some s.ck.dt } } }
    discTicks s false = 3277 ∧ islandOn s = true ∧ hubRuns s = true
      ∧ after (.dualChannelDisagree false) s (fun t => t.io.epo.timing == some s.ck.dt) = true ∧ s.io.epo.a = s.io.epo.b
      ∧ insideWindow (timing 99975586) false = true ∧ insideWindow (timing 100006104) false = false
      ∧ after (.epoAccept true) (timing 99975586) (fun t => t.io.epo.accepted && t.io.epoLatched && t.io.epo.timing == none
          && rget t dualPage Reg.dualIn.EPO_TIME == 1099975586 && chState t 5 == 0 && !demanded t 5 && chState t 3 == 6 && chState t 2 == 3) = true
      ∧ after (.epoAccept true) (timing 100006104) (fun t => !t.io.epo.accepted && !t.io.epoLatched) = true
      ∧ after (.discrepancyFault false) (timing 100006104) (fun t => t.io.epo.fault && t.io.epoLatched && t.io.epo.timing == none
          && rget t dualPage Reg.dualIn.EPO_DFAULTS == 1 && chState t 5 == 0) = true
      ∧ after (.discrepancyFault false) (timing 99975586) (fun t => !t.io.epo.fault) = true
      ∧ (let u := { s with io := { s.io with epoLatched := true, epo := { s.io.epo with fault := true, calm := some s.ck.dt } } }
         after (.clearReady false) (later 100006104 u) (fun t => t.io.epo.ready) = true
           ∧ after (.clearReady false) (later 99975586 u) (fun t => !t.io.epo.ready) = true
           ∧ after (.epoReset (ask .pf0 0)) u (fun t => finalOf t dualPage == some 0x100 && t.io.epoLatched) = true
           ∧ accepts u dualPage 2 (ask .pf0 1) = true
           ∧ after (.discClear (ask .pf0 1)) u (fun t => finalOf t dualPage == some 0x100) = true
           ∧ after (.discClear (ask .pf0 1)) { u with io := { u.io with epo := { u.io.epo with ready := true } } } (fun t =>
               finalOf t dualPage == some 0 && !t.io.epo.fault && t.io.epoLatched) = true)
      ∧ accepts s dualPage 1 (ask .pf0 0) = true
      ∧ after (.epoReset (ask .pf0 0)) { s with io := { s.io with epoLatched := true } } (fun t => finalOf t dualPage == some 0 && !t.io.epoLatched) = true
      ∧ (let u := rset wakePage Reg.wake.WAKE_EN 0x1FFF dry
         wakeEn u 4 = true ∧ insideWindow u false = true
           ∧ after (.epoAccept true) u (fun t => t.io.epo.accepted && t.pw.mode == .booting) = true)) := by decide +kernel

theorem test_tamper_pair : (let timing := fun (ns resp : Nat) => later ns { dualS resp with
      io := { (dualS resp).io with tamp := { a := true, timing := some 1000000000 } } }
    insideWindow (timing 5 0) true = true
      ∧ after (.tamperAssertionAccept true) (timing 5 0) (fun t => t.io.tamp.accepted && rget t keyPage Reg.keyStore.TAMPERED == 1
          && rget t tamperPage Reg.tamper.TAMPER_CAUSE == 1 && rget t dualPage Reg.dualIn.TAMP_TIME == 1000000005 && t.sec.slots.length == 1
          && (ksGet t 3).st == .valid) = true
      ∧ after (.tamperAssertionAccept true) (timing 5 1) (fun t => !t.sec.advance && (ksGet t 3).st != .valid) = true
      ∧ after (.discrepancyFault true) (timing 100006104 2) (fun t => t.io.tamp.fault && t.sec.advance && t.sec.erase
          && rget t dualPage Reg.dualIn.TAMP_DFAULTS == 1 && (ksGet t 3).st != .valid) = true
      ∧ after (.tamperAssertionAccept false) { dualS 0 with io := { (dualS 0).io with tamp := { a := true, b := true, accepted := true } } }
          (fun t => !t.io.tamp.accepted && t.sec == (dualS 0).sec) = true) := by decide +kernel

theorem test_alert : (let s := rset dualPage Reg.dualIn.ALERT_MASK 1 (dualS 0)
    alertSrc s &&& 1 = 1 ∧ after .alertHoldExpire s (fun t => t.io.alertLow && t.io.alertAt == s.ck.dt) = true
      ∧ (let u := { rset dualPage Reg.dualIn.ALERT_MASK 2 s with io := { s.io with alertLow := true, alertAt := 990000000 } }
         after .alertHoldExpire u (fun t => !t.io.alertLow) = true
           ∧ after .alertHoldExpire { u with io := { u.io with alertAt := 990000001 } } (fun t => t.io.alertLow) = true)) := by decide +kernel

/-! ### The site channel and the Castle table (chapter 19) -/

/-- The site channel LIVE with the windows of the worked example and a camera of 4 x 2 pixels in blocks of 2 x 2. -/
def scS : State :=
  let w := fun (f : Fld) (v : Nat) (s : State) => rset sitePage f v s
  let win := fun (i o c : Nat) (s : State) => rset sitePage Reg.siteChannel.OPEN o (rset sitePage Reg.siteChannel.CLOSE c s i) i
  let s := sitePages.foldl (fun s x => live x.1 s) (live sitePage flow)
  let s := win 0 24000 26000 (win 1 24000 27000 (win 2 25000 40000 (win 3 25000 40000 (win 4 25000 40100 (win 5 25000 40200 s)))))
  w Reg.siteChannel.STATE 3 (w Reg.siteChannel.CASTLED 0 (w Reg.siteChannel.CAUSE_LATCH 0 (w Reg.siteChannel.CAM_W 4 (w Reg.siteChannel.CAM_H 2
    (w Reg.siteChannel.DS 1 (w Reg.siteChannel.KICKS_A 3 (w Reg.siteChannel.KICKS_B 3 (w Reg.siteChannel.FRAMES 4000
    (w Reg.siteChannel.OUT_BASE 64 s)))))))))

/-- The pipeline with these frames. -/
def pipeS (fs : List PipeFrame) (s : State) : State := { s with sc := { s.sc with pipe := fs } }

def camF : CamFrame :=
  { counter := 7, lines := [[1, 2, 3, 4], [5, 6, 7, 0x4008]], crcOk := true, eccBad := false, eccCorrected := 2, ignored := 1 }

/-- Frame 4,001, whose origin is 1 s of device time. -/
def frame1 : PipeFrame := { num := 4001, origin := 1000000000, lines := [[1, 2, 3, 4], [5, 6, 7, 8]] }

theorem test_camera : pipeRuns scS = true ∧ camBad scS camF = false
    ∧ after (.csiFrameStart camF) scS (fun t => t.sc.pipe == [frame1] && siteReg t Reg.siteChannel.FRAMES == 4001
        && siteReg t Reg.siteChannel.CSI_CORRECTED == 2 && siteReg t Reg.siteChannel.CSI_IGNORED == 1 && !castled t) = true
    ∧ camBad scS { camF with crcOk := false } = true ∧ camBad scS { camF with lines := [[1, 2, 3, 4]] } = true
    ∧ camBad { scS with sc := { scS.sc with lastCounter := some 7 } } camF = true
    ∧ camBad { scS with sc := { scS.sc with lastCounter := some 6 } } camF = false
    ∧ after (.csiFrameStart { camF with eccBad := true }) scS (fun t => t.sc.pipe == [] && castled t && siteState t == 2
        && siteReg t Reg.siteChannel.FRAME_ERRS == 1 && siteReg t Reg.siteChannel.LAST_CAUSE == 3
        && siteReg t Reg.siteChannel.FRAMES == 4001 && siteReg t Reg.siteChannel.CASTLES == 1) = true
    ∧ (let s := { scS with sc := { scS.sc with lastOrigin := some 900000000 } }
       after .frameTimeout s (fun t => castled t && t.sc.timeoutSeen && siteReg t Reg.siteChannel.FRAME_ERRS == 1) = true
         ∧ after .frameTimeout { s with sc := { s.sc with lastOrigin := some 900000001 } } (fun t => !castled t) = true) := by
  decide +kernel

/-- Pixel 1 of test line 0 of frame 1 is 0x9E37 + 0x0101 = 0x9F38, of which RAW14 keeps 0x1F38. -/
theorem test_lines : testPixel true 1 0 1 = 0x9F38 ∧ testPixel false 1 0 1 = 0x1F38 ∧ testPixel true 2 1 0 = 0x3C6E + 0x3C6F
    ∧ (let s := later 25080000 (pipeS [frame1] scS)
       let lines := testLines s 4001
       s.sc.pipe.find? (fun f => !f.inject) = some frame1 ∧ lines.map (·.length) = [4]
         ∧ after (.testPatternInject lines) s (fun t => t.sc.pipe == [{ frame1 with inject := true, settled := [0] }] && !castled t) = true
         ∧ after (.testPatternInject [[1, 2, 3, 4]]) s (fun t => (t.sc.pipe.map (·.bad)) == [true] && !castled t) = true
         ∧ after (.testPatternInject lines) (later 1000000 s) (fun t => castled t && siteReg t Reg.siteChannel.LAST_CAUSE == 5
             && siteReg t Reg.siteChannel.WINDOW_ERRS == 1 && (t.sc.pipe.map (·.clean)) == [false]) = true) := by decide +kernel

/-- The tensor of frame 1 is 14 and 22; BF16 of 14.0 is 0x4160 and of 22.0 0x41B0. -/
theorem test_preprocess : (let f : PipeFrame := { frame1 with inject := true, settled := [0] }
    let s := later 25300000 (pipeS [f] scS)
    preNext s.sc.pipe = some f ∧ (inputBlock s f).length = 292 ∧ (inputBlock s f).take 4 = [0xA1, 0x0F, 0, 0]
      ∧ (inputBlock s f).drop 288 = [0x60, 0x41, 0xB0, 0x41] ∧ memoriesWf s
      ∧ after .preprocessWrite s (fun t => rget t (seqPage 0) Reg.sequencer.STATE == 1 && rget t (seqPage 96) Reg.sequencer.STATE == 1
          && Mem.read 0 t.co.sram (coreAt 0 0) == 0xA1 && Mem.read 0 t.co.sram (coreAt 96 291) == 0x41
          && (t.sc.pipe.map (·.pre)) == [some s.ck.dt] && !castled t) = true
      ∧ after .preprocessWrite (pipeS [{ f with bad := true }] s) (fun t => t.sc.pipe == [] && castled t
          && siteReg t Reg.siteChannel.LAST_CAUSE == 3) = true
      ∧ preNext [f, { f with num := 4002 }] = some f ∧ preNext [{ f with pre := some 1 }, { f with num := 4002 }] = none
      ∧ after (.stageWindowClose 4) (pipeS [f] (later 40100000 scS)) (fun t => castled t && (t.sc.pipe.map (·.settled)) == [[4, 0]]) = true
      ∧ after (.stageWindowClose 4) (pipeS [f] (later 40099999 scS)) (fun t => !castled t) = true) := by decide +kernel

/-- Source 2 on port 3 with key 0x55, DATA_ID 0x1234, AGE_MS 50 and MAX_DELTA 3. -/
def srcS (r : SrcRun) : State :=
  let w := fun (f : Fld) (v : Nat) (s : State) => rset sitePage f v s 2
  { w Reg.siteChannel.SRC_VALID 1 (w Reg.siteChannel.SRC_PORT 3 (w Reg.siteChannel.SRC_KEYV 0x55 (w Reg.siteChannel.DATA_ID 0x1234
      (w Reg.siteChannel.AGE_MS 50 (w Reg.siteChannel.MAX_DELTA 3 (w Reg.siteChannel.CASTLE_ON_FAIL 1 (w Reg.siteChannel.SRC_OK 1 scS))))))) with
    sc := { scS.sc with srcs := [(2, r)] } }

/-- A payload with counter c and sender time u. -/
def e2eB (c u : Nat) : List Byte :=
  let b := beBytes 2 c ++ beBytes 4 u
  b ++ beBytes 2 (crc16 (beBytes 2 0x1234 ++ b ++ [9])) ++ [9]

theorem test_telemetry : (let r : SrcRun := { counter := 10, time := 500, stamp := 900000000, seen := true, failed := false, begun := true }
    let s := srcS { r with stamp := 960000000 }
    let t := fun (bs : List Byte) (s : State) => after (.telemetryRx 3 0x55 bs) s
    hubRuns s = true ∧ scEnabled s = true ∧ e2eGood s 2 (e2eB 11 600) = true ∧ e2eGood s 2 (e2eB 11 600 ++ [0]) = false
      ∧ t (e2eB 11 600) s (fun t => siteReg t Reg.siteChannel.SRC_OK 2 == 1 && (srcRun t 2).counter == 11 && (srcRun t 2).time == 600
          && (srcRun t 2).stamp == 1000000000 && !castled t) = true
      ∧ t (e2eB 10 600) s (fun t => siteReg t Reg.siteChannel.REPEATS == 1 && (srcRun t 2).stamp == 960000000) = true
      ∧ t (e2eB 13 600) s (fun t => siteReg t Reg.siteChannel.SRC_OK 2 == 1) = true
      ∧ t (e2eB 14 600) s (fun t => siteReg t Reg.siteChannel.SRC_OK 2 == 0 && siteReg t Reg.siteChannel.LAST_FAIL 2 == 3 && castled t
          && siteReg t Reg.siteChannel.LAST_CAUSE == 4 && (srcRun t 2).counter == 14) = true
      ∧ t (e2eB 11 499) s (fun t => siteReg t Reg.siteChannel.LAST_FAIL 2 == 2 && (srcRun t 2).counter == 10) = true
      ∧ t (e2eB 11 600 ++ [0]) s (fun t => siteReg t Reg.siteChannel.LAST_FAIL 2 == 1 && castled t) = true
      ∧ after (.telemetryRx 4 0x55 (e2eB 11 600)) s (fun t => siteReg t Reg.siteChannel.UNMATCHED == 1 && t.sc == s.sc) = true
      ∧ t (e2eB 11 600) (rset sitePage Reg.siteChannel.SRC_OK 0 (srcS {}) 2) (fun t => (srcRun t 2).seen && siteReg t Reg.siteChannel.SRC_OK 2 == 0) = true
      ∧ sourceAged (srcS r) 2 = true ∧ t (e2eB 11 600) (srcS r) (fun t => castled t && siteReg t Reg.siteChannel.SRC_OK 2 == 1
          && (srcRun t 2).counter == 11) = true
      ∧ after (.sourceAgeExpire 2) (srcS r) (fun t => siteReg t Reg.siteChannel.SRC_OK 2 == 0 && siteReg t Reg.siteChannel.LAST_FAIL 2 == 4
          && (srcRun t 2).aged) = true
      ∧ after (.sourceAgeExpire 2) (srcS { r with stamp := 950000001 }) (fun t => siteReg t Reg.siteChannel.SRC_OK 2 == 1) = true) := by
  decide +kernel

/-- An action block of frame 4,001 with a cap and no demand. -/
def actionB (cap : Nat) : List Byte :=
  let b := leBytes 4 4001 ++ leBytes 4 cap ++ List.replicate 52 0
  b ++ leBytes 4 (crc32 b)

/-- Both cores have reached END for frame 4,001, at 31.601 ms, with these blocks in their SRAM. -/
def endS (a b : List Byte) : State :=
  let f : PipeFrame := { frame1 with inject := true, pre := some 1025300000, endA := true, endB := true, settled := [3, 2, 1, 0] }
  let s := later 31601000 (pipeS [f] scS)
  { s with co := { s.co with sram := Mem.writeL 0 (Mem.writeL 0 [] (coreAt 0 1024) a) (coreAt 96 1024) b } }

theorem test_compare : (let s := endS (actionB 18000) (actionB 18000)
    let f : PipeFrame := { frame1 with inject := true, pre := some 1025300000, endA := true, endB := true, settled := [3, 2, 1, 0] }
    s.sc.pipe.find? (fun f => f.endA && f.endB && f.action.isNone) = some f ∧ (coreRead s 0 1024 64).1 = actionB 18000
      ∧ (coreRead s 0 1024 64).2 = [] ∧ actionGood s 4001 (actionB 18000) = true ∧ actionGood s 4001 (actionB 40001) = false
      ∧ after .compare s (fun t => (t.sc.pipe.map (·.action)) == [some (actionB 18000)] && !castled t) = true
      ∧ after .compare (endS (actionB 18000) (actionB 18010)) (fun t => t.sc.pipe == [] && castled t
          && siteReg t Reg.siteChannel.LAST_CAUSE == 6 && siteReg t Reg.siteChannel.MISMATCHES == 1) = true
      ∧ after .compare (endS (actionB 40001) (actionB 40001)) (fun t => t.sc.pipe == [] && castled t
          && siteReg t Reg.siteChannel.LAST_CAUSE == 7) = true) := by decide +kernel

/-- The agreed actions of frame 4,001 wait in state `st`. -/
def publishS (st : Nat) : State :=
  let f : PipeFrame := { frame1 with inject := true, pre := some 1025300000, endA := true, endB := true, settled := [4, 3, 2, 1, 0],
                                     action := some (actionB 18000) }
  rset sitePage Reg.siteChannel.STATE st (later 31602000 (pipeS [f] scS))

theorem test_publish : (let s := publishS 3
    (s.sc.pipe.find? (fun f => f.action.isSome)).isSome = true
      ∧ after .publish s (fun t => t.sc.pipe == [] && t.sc.inForce == some 1000000000 && rget t weirPage Reg.weir.SC_CAP_VALID == 1
          && rget t weirPage Reg.weir.SC_CAP == 18000 && siteState t == 3) = true
      ∧ (let u := rset sitePage Reg.siteChannel.CASTLED 1 (rset sitePage Reg.siteChannel.CLEAN 15 (publishS 2))
         after .publish u (fun t => siteState t == 2 && castled t && siteReg t Reg.siteChannel.SHADOW_ACTIONS 1 == 18000
             && siteReg t Reg.siteChannel.CLEAN == 16 && t.sc.inForce == none) = true
           ∧ (let v := { u with sc := { u.sc with armed := true } }
              powerCondition v = false ∧ maintCondition v = false
                ∧ after .publish v (fun t => siteState t == 3 && !castled t && t.sc.inForce == some 1000000000) = true
                ∧ after .publish { v with sc := { v.sc with castledAt := 500000000 } } (fun t => siteState t == 2 && castled t) = true
                ∧ after .publish (rset sitePage Reg.siteChannel.CLEAN 14 v) (fun t => siteState t == 2 && castled t) = true))
      ∧ (let u := { scS with sc := { scS.sc with inForce := some 900000000 } }
         after .resultAgeExpire u (fun t => castled t && siteReg t Reg.siteChannel.LAST_CAUSE == 9) = true
           ∧ after .resultAgeExpire { u with sc := { u.sc with inForce := some 900000001 } } (fun t => !castled t) = true)) := by decide +kernel

/-- Rule 5: active while a source 2 is not OK for three evaluations, cap 9,000 and channel 4 on. -/
def ruleS (x : Bool × Nat) : State :=
  let w := fun (i v : Nat) (s : State) => rset castlePage Reg.castle.RULE v s (20 + i)
  { rset castlePage Reg.castle.CASTLE_CAP 20000 (rset castlePage Reg.castle.PS_PERIOD 50 (w 0 0x00020842 (w 1 1 (w 3 0x00102328
      (rset sitePage Reg.siteChannel.CASTLED 1 scS))))) with sc := { scS.sc with rules := [(5, x)], lastEval := some 999000000 } }

theorem test_table : duePeriod 1000000 (some 999000000) (ruleS (false, 0)) = true
    ∧ (let s := ruleS (false, 1)
       bitAt (ruleWord s 5 0) 11 = true ∧ ruleCondition s 5 = true
         ∧ after .castleEvaluate s (fun t => !ruleActive t 5 && Assoc.get t.sc.rules 5 == some (false, 2) && rget t weirPage Reg.weir.SC_CAP == 20000) = true
         ∧ after .castleEvaluate (ruleS (false, 2)) (fun t => ruleActive t 5 && rget t castlePage Reg.castle.CAP_OUT == 9000
             && rget t weirPage Reg.weir.SC_CAP == 9000 && bitAt (rget t castlePage Reg.castle.AUX_OUT) 4) = true
         ∧ after .castleEvaluate (ruleS (true, 1)) (fun t => ruleActive t 5 && Assoc.get t.sc.rules 5 == some (true, 0)) = true)
    ∧ castled (ruleS (false, 0)) = true ∧ psDue (ruleS (false, 0)) = true
    ∧ after .castlePsInject (ruleS (false, 0)) (fun t => t.sc.lastPs == some 1000000000) = true
    ∧ psDue { ruleS (false, 0) with sc := { lastPs := some 950000001 } } = false := by decide +kernel

/-- A site record with a 16-byte image for each core, under an AES-256 key in slot 3. -/
def recordBytes : List Byte :=
  let b := fun (m : List Byte) => leBytes 4 0x4C465343 ++ leBytes 2 1 ++ leBytes 2 0 ++ leBytes 4 6 ++ leBytes 4 96 ++ leBytes 4 0 ++ leBytes 4 16
    ++ leBytes 4 16 ++ leBytes 4 0x40 ++ leBytes 4 0x50 ++ List.replicate 12 0 ++ m ++ List.replicate 16 0x11 ++ List.replicate 16 0x22
  b (Crypto.cmac ((List.range 32).map (BitVec.ofNat 8)) (b (List.replicate 16 0)))

def loadS : State :=
  rset sitePage Reg.siteChannel.SC_KEY 3 { rset sitePage Reg.siteChannel.STATE 1 (vfTab [0, 1, 2, 3, 96, 97, 98, 99] scS) with
    bt := { scS.bt with flash := Mem.writeL 0xFF [] 0x400000 recordBytes }
    sec := { scS.sec with slots := [(3, { st := .valid, attr := 1 + 2 ^ 7 + 2 ^ 17, key := (List.range 32).map (BitVec.ofNat 8) })] } }

/-- The record is at the archive of the reset. -/
theorem test_record : siteRecord loadS = some 0x400000 ∧ siteDiesUp loadS = true ∧ siteGrants loadS = true ∧ memoriesWf loadS
    ∧ siteState loadS = 1 ∧ recField loadS 0x400000 0x18 4 = 16 := by decide +kernel

theorem test_site_load : after .siteLoad loadS (fun t => siteState t == 2 && t.sc.loadedA && t.sc.loadedB && t.sc.streamA == 0x40
        && Mem.read 0 t.co.sram (coreAt 0 15) == 0x11 && Mem.read 0 t.co.sram (coreAt 0 16) == 0
        && Mem.read 0 t.co.sram (coreAt 96 0) == 0x22) = true := by decide +kernel

theorem test_site_commands : (let s := rset sitePage Reg.siteChannel.STATE 1 scS
    siteRecord s = none ∧ after .siteLoad s (fun t => castled t && siteReg t Reg.siteChannel.LAST_CAUSE == 2 && siteState t == 1) = true
      ∧ accepts scS sitePage 1 (ask .pf0 0) = true
      ∧ after (.castle (ask .pf0 0)) scS (fun t => castled t && siteState t == 2 && finalOf t sitePage == some 0
          && siteReg t Reg.siteChannel.LAST_CAUSE == 0) = true
      ∧ accepts scS sitePage 2 (ask .pf0 0) = true
      ∧ after (.uncastle (ask .pf0 0)) scS (fun t => finalOf t sitePage == some 0x100) = true
      ∧ after (.uncastle (ask .pf0 0)) (rset sitePage Reg.siteChannel.CASTLED 1 (rset sitePage Reg.siteChannel.STATE 2 scS)) (fun t =>
          finalOf t sitePage == some 0 && t.sc.armed) = true
      ∧ accepts s sitePage 3 (ask .pf0 0) = true
      ∧ after (.scReload (ask .pf0 0)) s (fun t => finalOf t sitePage == some 0x109 && castled t) = true) := by decide +kernel

theorem test_reload : accepts loadS sitePage 3 (ask .pf0 0) = true
    ∧ after (.scReload (ask .pf0 0)) loadS (fun t => siteState t == 1 && castled t && !t.sc.loadedA && finalOf t sitePage == none) = true := by
  decide +kernel

/-! ### Fuses, keys and tamper (chapter 20) -/

/-- The key store, its grant and the fuse and tamper pages; the running image has SVN 4. -/
def keyS : State :=
  rset keyPage Reg.keyStore.LOADED 1 (rset (hubPage .boot) Reg.boot.FW_SVN 4 (live fusePage (live tamperPage (live keyPage hub))))

/-- Slot `n` as given. -/
def slotS (n : Nat) (k : KeySlot) (s : State) : State := { s with sec := { s.sec with slots := Assoc.set s.sec.slots n k } }

/-- A field staged in FUSE_VAL. -/
def stagedFuse (v : Nat) : State := rset fusePage Reg.fuse.FUSE_VAL v keyS

theorem test_fuse : (let p := fun (code : Nat) (s : State) => after (.fuseProgram (ask .pf0 (BitVec.ofNat 32 code))) s
    accepts (stagedFuse 5) fusePage 1 (ask .pf0 2) = true
      ∧ p 2 (stagedFuse 5) (fun t => finalOf t fusePage == some 0 && t.fuse.denyPf0 == 5 && t.fuse.denySb == 0 && t.fuseOn.denyPf0 == 0
          && t.jr.committed == [keyS.jr.nextSeq]) = true
      ∧ p 2 { stagedFuse 5 with fuse := { keyS.fuse with denyPf0 := 2 } } (fun t => finalOf t fusePage == some 0x100 && t.fuse.denyPf0 == 2) = true
      ∧ p 2 { stagedFuse 7 with fuse := { keyS.fuse with denyPf0 := 2 } } (fun t => t.fuse.denyPf0 == 7) = true
      ∧ p 2 { stagedFuse 5 with fuse := { keyS.fuse with commission := 1 } } (fun t => finalOf t fusePage == some 0x100) = true
      ∧ p 9 (stagedFuse 15) (fun t => t.fuse.svnFloor == 15) = true
      ∧ p 9 (stagedFuse 31) (fun t => finalOf t fusePage == some 0x100) = true
      ∧ p 8 (stagedFuse 1) (fun t => finalOf t fusePage == some 0x100) = true
      ∧ p 6 (rset (hubPage .powerState) Reg.powerState.V48 3999 (stagedFuse 1)) (fun t => finalOf t fusePage == some 0x100) = true
      ∧ p 6 (rset keyPage Reg.keyStore.TAMPERED 1 (stagedFuse 1)) (fun t => finalOf t fusePage == some 0x100) = true) := by decide +kernel

def wrapKey : List Byte := (List.range 32).map (BitVec.ofNat 8)

/-- A transport blob of an AES-256 key for slot 13, wrapped with slot 40. -/
def blob : List Byte :=
  let iv := List.replicate 12 3
  blobSeal wrapKey (blobHead 1 0x42041 40 9 0 (List.replicate 16 0) iv) (List.replicate 32 0x77) iv

/-- The worked example: slot 13 at GEN 6 in cell B, slot 40 the wrapping key, the blob in PF0's buffer. -/
def importS : State :=
  let s := { keyS with sec := { keyS.sec with commits := [(13, 0x8000000D)], cells := [((13, 1), List.replicate 128 5)] } }
  bufPut .pf0 blob (slotS 13 { st := .valid, attr := 0x42041, gen := 6, cell := 1, key := List.replicate 32 1 }
    (slotS 40 { st := .valid, attr := 0x40401, key := wrapKey } s))

theorem test_blob : blob.length = 116 ∧ bufBytes importS .pf0 116 = blob ∧ transportGood importS blob = true ∧ blobField blob 0x0C 1 = 40
    ∧ wrapOk importS .pf0 40 = true ∧ attrPersist 0x42041 = true
    ∧ ((blobOpen wrapKey blob).map fun k => (k.take 32 == List.replicate 32 0x77 && (k.drop 32).all (· == 0))) = some true := by decide +kernel

/-- The commit word 0x8000_000D names cell B; the replacement's is 0x8000_000E, GEN 7 in cell A. -/
theorem test_import : (let r := ask .pf0 0x800D
    accepts importS keyPage 2 r = true ∧ argS r = 13 ∧ argReplace r = true ∧ mayPlace importS 13 true = true ∧ mayPlace importS 13 false = false
      ∧ after (.keyImport r) importS (fun t => finalOf t keyPage == some 0 && commitGet t 13 == 0x8000000E && (ksGet t 13).gen == 7
          && (ksGet t 13).cell == 0 && (ksGet t 13).st == .valid && (ksGet t 13).attr == 0x46041
          && cellGet t 13 1 == List.replicate 128 5 && (ksGet t 40).uses == 1 && (ksGet t 40).key == wrapKey) = true
      ∧ after (.keyImport r) (bufPut .pf0 (blob.take 115 ++ [(blob.getD 115 0) + 1]) importS) (fun t => finalOf t keyPage == some 0x109
          && commitGet t 13 == 0x8000000D && (ksGet t 13).gen == 6) = true
      ∧ after (.keyImport (ask .pf0 13)) importS (fun t => finalOf t keyPage == some 0x100) = true
      ∧ after (.keyImport r) (slotS 40 { st := .valid, attr := 0x00401, key := wrapKey } importS) (fun t => finalOf t keyPage == some 0x100) = true) := by
  decide +kernel

theorem test_key_gen : (let s := rset keyPage Reg.keyStore.KS_ATTR 0x42041 importS
    let s := rsetC .pf0 keyPage Reg.keyStore.KS_ATTR 0x42041 s
    accepts s keyPage 1 (ask .pf0 0x800D) = true ∧ attrOk 0x42041 = true ∧ entropyBad s = false ∧ stagedAttr s .pf0 = 0x42041
      ∧ after (.keyGen (ask .pf0 0x800D)) s (fun t => finalOf t keyPage == some 0 && commitGet t 13 == 0x8000000E && (ksGet t 13).gen == 7
          && (ksGet t 13).attr == 0x42041 && (ksGet t 13).key.length == 32) = true
      ∧ after (.keyGen (ask .pf0 0x000D)) s (fun t => finalOf t keyPage == some 0x100) = true
      ∧ after (.keyGen (ask .pf0 0x808D)) s (fun t => finalOf t keyPage == some 0x100) = true
      ∧ after (.keyGen (ask .pf0 5)) (rsetC .pf0 keyPage Reg.keyStore.KS_ATTR 6 s) (fun t => finalOf t keyPage == some 0x100) = true
      ∧ after (.keyGen (ask .pf0 5)) (rset keyPage Reg.keyStore.ENTROPY_FAIL 1 s) (fun t => finalOf t keyPage == some 0x10C) = true
      ∧ after (.keyGen (ask .pf0 5)) (head keyPage (fun h => { h with grant := 0 }) (rsetC .pf0 keyPage Reg.keyStore.KS_ATTR 3 s)) (fun t =>
          finalOf t keyPage == some 0x101) = true
      ∧ after (.keyDelete (ask .pf0 13)) s (fun t => finalOf t keyPage == some 0 && commitGet t 13 == 0x0000000F && (ksGet t 13).st == .empty
          && (ksGet t 13).gen == 7) = true
      ∧ accepts s keyPage 6 (ask .pf0 13) = true ∧ after (.keyDelete (ask .pf0 0x80D)) s (fun t => finalOf t keyPage == some 0x100) = true) := by
  decide +kernel

/-- A derivation key in slot 8, with label "A" and no context in the buffer; the destination is volatile. -/
def deriveS : State :=
  rsetC .pf0 keyPage Reg.keyStore.KS_ATTR 0x40041 (bufPut .pf0 [1, 0x41, 0]
    (slotS 8 { st := .valid, attr := 0x40102, key := List.replicate 48 9 } keyS))

theorem test_derive : (let r := ask .pf0 0x0908
    accepts deriveS keyPage 4 r = true ∧ labelContext (bufBytes deriveS .pf0 512) 0 = some ([0x41], []) ∧ slotBit deriveS 8 8 = true
      ∧ derivedOk 0x40041 = true ∧ argT r = 9
      ∧ after (.keyDerive r) deriveS (fun t => finalOf t keyPage == some 0 && (ksGet t 9).st == .valid && (ksGet t 9).attr == 0x48041
          && (ksGet t 9).gen == 1 && commitGet t 9 == 0) = true
      ∧ after (.keyDerive (ask .pf0 0x0909)) deriveS (fun t => finalOf t keyPage == some 0x100) = true
      ∧ after (.keyDerive r) (bufPut .pf0 [0, 0x41, 0] deriveS) (fun t => finalOf t keyPage == some 0x100) = true) := by decide +kernel

/-- The key of a derivation is the KDF's, 256 bits. -/
theorem test_derived_key : after (.keyDerive (ask .pf0 0x0908)) deriveS (fun t => (ksGet t 9).key.length == 32) = true := by decide +kernel

/-- The base point of P-384. -/
def basePoint : List Byte := Crypto.p384Public 1

theorem test_agree : (let r := ask .pf0 0x0907
    let s := rsetC .pf0 keyPage Reg.keyStore.KS_ATTR 0x40041 (bufPut .pf0 (basePoint ++ [1, 0x41, 0])
      (slotS 7 { st := .valid, attr := 0x40004, key := List.replicate 47 0 ++ [1] } keyS))
    accepts s keyPage 5 r = true ∧ grantOk s keyPage = true ∧ labelContext (bufBytes s .pf0 512) 96 = some ([0x41], [])
      ∧ Crypto.p384Shared (scalar (List.replicate 47 0 ++ [1])) basePoint = some (basePoint.take 48)
      ∧ after (.keyAgree r) s (fun t => finalOf t keyPage == some 0 && (ksGet t 9).st == .valid && attrOrigin (ksGet t 9).attr == 3) = true
      ∧ after (.keyAgree r) (bufPut .pf0 (List.replicate 96 0) s) (fun t => finalOf t keyPage == some 0x100) = true
      ∧ accepts s keyPage 11 (ask .pf0 7) = true
      ∧ after (.getPub (ask .pf0 7)) s (fun t => finalOf t keyPage == some 0 && bufBytes t .pf0 96 == basePoint && (ksGet t 7).uses == 1) = true
      ∧ after (.getPub (ask .pf0 8)) s (fun t => finalOf t keyPage == some 0x100) = true) := by decide +kernel

theorem test_use : (let s := slotS 8 { st := .valid, attr := 0x40802, key := List.replicate 48 9 } (slotS 12
      { st := .valid, attr := 0x41001, key := wrapKey } (slotS 40 { st := .valid, attr := 0x40401, key := wrapKey } keyS))
    accepts s keyPage 3 (ask .pf0 (12 + 40 * 256)) = true ∧ attrExport (ksGet s 12).attr = true ∧ wrapOk s .pf0 40 = true
      ∧ after (.keyExport (ask .pf0 (12 + 40 * 256))) s (fun t => finalOf t keyPage == some 0 && (ksGet t 12).uses == 1
          && bufBytes t .pf0 8 == [0x42, 0x4B, 0x46, 0x4C, 1, 0, 1, 1]) = true
      ∧ after (.keyExport (ask .pf0 (8 + 40 * 256))) s (fun t => finalOf t keyPage == some 0x100) = true
      ∧ accepts s keyPage 7 (ask .pf0 256) = true ∧ accepts s keyPage 7 (ask .pf0 8) = true ∧ attrOrigin (ksGet s 8).attr = 0
      ∧ slotUsable s .pf0 8 = true ∧ attrExport (ksGet s 8).attr = false ∧ grantOk s keyPage = true ∧ entropyBad s = false
      ∧ after (.attest (ask .pf0 12)) s (fun t => finalOf t keyPage == some 0x100) = true
      ∧ accepts s keyPage 8 (ask .pf0 8) = true ∧ ksHas s 8 2 11 = true
      ∧ after (.challenge (ask .pf0 8)) s (fun t => finalOf t keyPage == some 0 && (ksGet t 8).uses == 1) = true
      ∧ after (.challenge (ask .pf0 12)) s (fun t => finalOf t keyPage == some 0x100) = true) := by decide +kernel

/-- A tamper response level in effect, with one key. -/
def tamperS (resp : Nat) : State := { slotS 8 { st := .valid, attr := 1, key := wrapKey } keyS with fuseOn := { keyS.fuseOn with tamperResp := resp } }

theorem test_tamper : after (.tamperMonitorTrip .mesh) (tamperS 0) (fun t => tampered t && rget t tamperPage Reg.tamper.TAMPER_CAUSE == 2
        && bitAt (rget t tamperPage Reg.tamper.MON_STAT) 2 && (ksGet t 8).st == .valid) = true
    ∧ after (.tamperMonitorTrip .thermal) (tamperS 1) (fun t => (ksGet t 8).st == .zeroized && !t.sec.advance) = true
    ∧ after (.tamperMonitorTrip .clock) (tamperS 2) (fun t => (ksGet t 8).st == .zeroized && t.sec.advance && t.sec.erase) = true
    ∧ after (.tamperMonitorTrip .mesh) dry (fun t => tampered t && t.pw.mode == .booting) = true
    ∧ bistDue (tamperS 1) .supply = true
    ∧ after (.bistRun .supply false false) (tamperS 1) (fun t => !tampered t && rget t tamperPage Reg.tamper.BIST_FAILS == 1) = true
    ∧ (let s := { tamperS 1 with sec := { (tamperS 1).sec with bist := [(3, (900000000, 1))] } }
       bistDue s .supply = true ∧ after (.bistRun .supply false false) s (fun t => tampered t && rget t tamperPage Reg.tamper.TAMPER_CAUSE == 6) = true
         ∧ after (.bistRun .supply true false) s (fun t => !tampered t && bistGet t .supply == some (1000000000, 0)) = true
         ∧ after (.bistRun .supply true true) s (fun t => tampered t && rget t tamperPage Reg.tamper.TAMPER_CAUSE == 3) = true)
    ∧ (let z := fun (a : Word) => after (.zeroize (ask .pf0 a)) (tamperS 0)
       accepts (tamperS 0) keyPage 9 (ask .pf0 1) = true
         ∧ z 0 (fun t => finalOf t keyPage == some 0 && (ksGet t 8).st == .zeroized && rget t tamperPage Reg.tamper.TAMPER_CAUSE == 8
             && !t.sec.advance) = true
         ∧ z 1 (fun t => finalOf t keyPage == none && t.sec.advance && t.sec.erase) = true
         ∧ z 2 (fun t => finalOf t keyPage == some 0x100 && !tampered t) = true)
    ∧ (let s := { keyS with sec := { keyS.sec with advance := true, erase := true, commits := [(13, 0x8000000D)], cells := [((13, 1), [1])] } }
       islandOn s = true ∧ reservoirCharged s = true
         ∧ after .epochAdvance s (fun t => epochCount t == 1 && !t.sec.advance && t.fuse.epoch == 1) = true
         ∧ after .keyCopyOverwrite s (fun t => commitGet t 13 == 0 && cellGet t 13 1 == List.replicate 128 0 && !t.sec.erase) = true)
    ∧ after (.entropyFail true) keyS (fun t => rget t keyPage Reg.keyStore.ENTROPY_FAIL == 1) = true
    ∧ after .entropyRecover (rset keyPage Reg.keyStore.ENTROPY_FAIL 1 keyS) (fun t => rget t keyPage Reg.keyStore.ENTROPY_FAIL == 0) = true := by
  decide +kernel

theorem test_tamper_clear : (let s := rset keyPage Reg.keyStore.TAMPERED 1 (rset tamperPage Reg.tamper.TAMPER_CAUSE 2 (tamperS 0))
    accepts s keyPage 10 (ask .pf0 0) = true ∧ tamperQuiet s = true
      ∧ after (.tamperClear (ask .pf0 0)) s (fun t => finalOf t keyPage == some 0 && !tampered t && rget t tamperPage Reg.tamper.TAMPER_CAUSE == 0) = true
      ∧ after (.tamperClear (ask .pf0 1)) s (fun t => finalOf t keyPage == some 0x100 && tampered t) = true
      ∧ after (.tamperClear (ask .pf0 0)) (rset tamperPage Reg.tamper.MON_STAT 4 s) (fun t => finalOf t keyPage == some 0x100 && tampered t) = true) := by
  decide +kernel

/-! ### The event recorder (chapter 21) -/

/-- The limiter's drop of the worked example, and the door's tamper. -/
def dropEv : Event := { code := 0x700C, die := 12, inst := 1, detailA := 5, detailB := 6 }
def doorEv : Event := { code := 0xA001, die := 12, inst := 0, detailA := 1, detailB := 2 }

/-- The hub's recorder with the next record 905,000. -/
def recS : State := { live eventPage hub with ev := { nextSeq := 905000, opSec := 61, opSaved := 1 } }

/-- A record as the recorder takes it. -/
def recOf (code sev : Nat) : Rec :=
  { uid := 1, cycle := 0, stamp := 0, code := code, sev := sev, deferred := false, limited := false, die := 12, inst := 1, repeats := 0,
    a := 5, b := 6, check := 0 }

/-- The window opened 999,999,999 ns ago, or a full second ago. -/
def windowS (opened : Nat) : State :=
  { recS with ev := { recS.ev with intake := [recOf 0x700C 1], windows := [((0x700C, 12, 1), { opened := opened, count := 1, last := some 1 })] } }

theorem test_events : severityOf 0x700C false = 1 ∧ severityOf 0xA001 false = 3 ∧ limitOf recS 0x700C = (1, 1000000000)
    ∧ knownCode 0x700C = true ∧ knownCode 0xA001 = true
    ∧ after (.eventRaise doorEv) recS (fun t => (t.ev.tamperQ.map fun r => (r.code, r.sev, r.a)) == [(0xA001, 3, 1)] && t.ev.intake == []) = true
    ∧ after (.eventRaise dropEv) recS (fun t => (t.ev.intake.map fun r => (r.code, r.sev, r.inst, r.a, r.b)) == [(0x700C, 1, 1, 5, 6)]) = true
    ∧ after (.eventRaise dropEv) (windowS 1) (fun t => (t.ev.intake.map fun r => (r.repeats, r.limited)) == [(1, true)]) = true
    ∧ after (.eventRaise dropEv) (windowS 0) (fun t => (t.ev.intake.map fun r => (r.repeats, r.limited)) == [(0, false), (0, false)]) = true
    ∧ after (.eventRaise dropEv) dry (fun t => (t.ev.dry.map fun x => (x.at_, x.body.code)) == [(5000000, 0x700C)] && t.ev.intake == []) = true
    ∧ (let s := { dry with ev := { dry.ev with dry := List.replicate 16 { at_ := 7, next := 8, body := recOf 0x1001 1 } } }
       after (.eventRaise dropEv) s (fun t => t.ev.dryLost == 1 && t.ev.dry.length == 16) = true) := by decide +kernel

theorem test_record_write : mayWrite recS = true
    ∧ (let s := { recS with ev := { recS.ev with tamperQ := [recOf 0xA001 3], intake := [recOf 0x700C 1] } }
       after .eventRecordWrite s (fun t => (t.ev.ring.map fun r => (r.stamp, r.code, r.check == recCheck r)) == [(905000, 0xA001, true)]
           && t.ev.tamperQ == [] && t.ev.intake.length == 1 && t.ev.nextSeq == 905001
           && (t.ev.ff.map fun r => (r.stamp, r.check == recCheck r)) == [(61 + recS.jr.cycles * 2 ^ 32, true)]
           && bitAt (hget t eventPage).irqStat 8) = true)
    ∧ (let s := { recS with ev := { recS.ev with intake := [recOf 0xE004 0] } }
       after .eventRecordWrite s (fun t => t.ev.ff == [] && t.ev.ring.length == 1 && t.ev.intake == []) = true)
    ∧ after .opSecondsCheckpoint recS (fun t => t.ev.opSaved == 61) = true
    ∧ after .opSecondsCheckpoint { recS with ev := { recS.ev with opSaved := 2 } } (fun t => t.ev.opSaved == 2) = true
    ∧ (let s := { recS with ev := { recS.ev with dry := [{ at_ := 5, next := 6, body := recOf 0x1001 1 }] } }
       after .dryBufferFlush s (fun t => t.ev.dry == [] && (t.ev.intake.map fun r => (r.code, r.deferred, r.a)) == [(0x1001, true, 5)]) = true)
    ∧ after .dryBufferFlush { recS with ev := { recS.ev with dryLost := 3 } } (fun t => rget t eventPage Reg.eventLog.LOST == 3 && t.ev.dryLost == 0)
      = true := by decide +kernel

/-- A full running log of WARN records: a WARN record displaces its oldest, and an INFO record is lost. -/
theorem test_full_log : (List.replicate 16384 (recOf 0x700C 1)).length = 16384
    ∧ ringReplace (recOf 0x1001 1) (recOf 0xA001 3 :: recOf 0x700C 1 :: [recOf 0x2001 2]) = some [recOf 0xA001 3, recOf 0x2001 2, recOf 0x1001 1]
    ∧ ringReplace (recOf 0xE004 0) [recOf 0x700C 1] = none := by
  refine ⟨List.length_replicate, ?_⟩
  decide +kernel

theorem test_fetch : (let s := { recS with ev := { recS.ev with
      ring := [{ recOf 0x700C 1 with stamp := 905000 }, { recOf 0x1001 1 with stamp := 905003 }]
      ff := [{ recOf 0xA001 3 with check := recCheck (recOf 0xA001 3) }] } }
    reachesBlock s .pf0 eventPage = true
      ∧ after (.ffFetch .pf0 4096) s (fun t => rgetC t .pf0 eventPage Reg.eventLog.RD_STAT == 0 && rgetC t .pf0 eventPage Reg.eventLog.RD_W 2 == 0x0C03A001
          && rgetC t .siteBus eventPage Reg.eventLog.RD_W 2 == 0) = true
      ∧ after (.ffFetch .pf0 1) s (fun t => rgetC t .pf0 eventPage Reg.eventLog.RD_STAT == 1) = true
      ∧ (let s := rsetC .pf0 eventPage Reg.eventLog.RD_RL_SEQ_LO 905001 s
         after (.rlFetch .pf0 0) s (fun t => rgetC t .pf0 eventPage Reg.eventLog.RD_W 0 == 905003
             && rgetC t .pf0 eventPage Reg.eventLog.RD_STAT == 2) = true)
      ∧ (ringFrom s 905001).map (·.stamp) = some 905003 ∧ ringFrom s 905004 = none
      ∧ accepts s eventPage 1 (ask .pf0 0) = true
      ∧ after (.ffClear (ask .pf0 0)) s (fun t => finalOf t eventPage == some 0 && t.ev.ff == [] && t.ev.ring.length == 2) = true
      ∧ after (.ffClear (ask .pf0 0)) (rset keyPage Reg.keyStore.TAMPERED 1 s) (fun t => finalOf t eventPage == some 0x100 && t.ev.ff.length == 1)
        = true) := by decide +kernel

/-! ### The frames: a row of each family, and a state in which it answers -/

theorem test_frames : (let moves := fun (c : Instr) (s : State) => after c s (fun _ => true)
    Rules.isHeaderRow (.quiesceReq .pf0 bootP true) = true ∧ moves (.quiesceReq .pf0 bootP true) hub = true
      ∧ Rules.isJournalRow (.journalFetch .pf0 1) = true ∧ moves (.journalFetch .pf0 1) hub = true
      ∧ Rules.isLogFetchRow (.ffFetch .pf0 1) = true ∧ moves (.ffFetch .pf0 1) hub = true
      ∧ Rules.isSupplyRow (.v48MinWrite .pf0 0) = true
      ∧ Rules.isClockRow (.alarmWrite .pf0 5) = true ∧ moves (.alarmWrite .pf0 5) hub = true
      ∧ Rules.isImageRow .tapReset = true
      ∧ Rules.isWeirRow (.setHostCap (ask .pf0 0)) = true ∧ moves (.setHostCap (ask .pf0 0)) (live weirPage hub) = true
      ∧ Rules.isEnergyRecordRow (.closeNow (ask .pf0 0)) = true
      ∧ Rules.isSpateRow (.tripClear (ask .pf0 0)) = true ∧ moves (.tripClear (ask .pf0 0)) (live heatPage hub) = true
      ∧ Rules.isSequencerRow (.descriptorComplete 0 .mma) = true
      ∧ Rules.isSlotRow (.bindSlot (ask .pf0 0)) = true
      ∧ Rules.isJobRow (.cancel 2 (ask .pf0 0)) = true
      ∧ Rules.isLinkRow (.linkUp 0) = true
      ∧ Rules.isBridgeRow .pf0Flr = true ∧ moves .pf0Flr hub = true
      ∧ Rules.isIngressRow (.canFrameRx 1 (canF 0x190 16)) = true ∧ moves (.canFrameRx 1 (canF 0x190 16)) (rset (portPage 1) Reg.canPort.FD_EN 1 treeS) = true
      ∧ Rules.isRouteRow (.routeGet (ask .pf0 40)) = true ∧ moves (.routeGet (ask .pf0 40)) treeS = true
      ∧ Rules.isSiteBusRow .refMissed = true
      ∧ Rules.isSiteIORow (.epoReset (ask .pf0 0)) = true ∧ moves (.epoReset (ask .pf0 0)) (dualS 0) = true
      ∧ Rules.isSiteChannelRow (.castle (ask .pf0 0)) = true ∧ moves (.castle (ask .pf0 0)) scS = true
      ∧ Rules.isKeyRow (.keyDelete (ask .pf0 13)) = true ∧ moves (.keyDelete (ask .pf0 13)) importS = true
      ∧ Rules.isTamperResponseRow .entropyRecover = true
      ∧ Rules.isFuseRow (.fuseProgram (ask .pf0 2)) = true ∧ moves (.fuseProgram (ask .pf0 2)) (stagedFuse 5) = true
      ∧ Rules.isEventRow (.eventRaise dropEv) = true ∧ moves (.eventRaise dropEv) recS = true) := by decide +kernel

/-! ### Further clauses of the statements -/

theorem test_header_views : (let w := slotPage 11
    Client.isVf (.vf 2) = true ∧ isView w.blk = true ∧ reachesPage (objS 0 0) (.vf 2) w = true
      ∧ after (.lockSet (.vf 2) w 1) (objS 0 0) (fun t => t == (objS 0 0)) = true)
    ∧ (let s := head port (fun h => { h with quiesce := true }) hub
       let a : BitVec 26 := BitVec.ofNat 26 (addrOf hub port 0x008 * 4)
       after (.registerWrite .pf0 a 15#4 0x2) s (fun t => after (.blockDisable .pf0 port) s (fun u => t == u)) = true) := by decide +kernel

theorem test_supply_waits : (let s := { State.reset with pw := { State.reset.pw with exhausted := true, qualified := true } }
    s.pw.mode = .dry ∧ s.ck.pending = 0
      ∧ after (.dryExitQualified 4000) s (fun t => t.pw.mode == .dry && t.pw.qualified) = true
      ∧ after (.dryExitQualified 6000) { s with pw := { s.pw with qualified := false } } (fun t => t.pw.mode == .booting) = true) := by
  decide +kernel

theorem test_die_up_waits : (let s := rset powerPage Reg.powerState.DIE_ON 0x010 { readyToRise with pw := { readyToRise.pw with falling := [4] } }
    accepts s powerPage 1 (ask .pf0 0x030) = true ∧ s.pw.rising = none
      ∧ after (.dieUp (ask .pf0 0x030)) s (fun t => t.pw.rising == none && t.pw.upQueue == [4, 5]) = true
      ∧ (let u := { readyToRise with pw := { readyToRise.pw with rising := some 6 } }
         u.pw.rising ≠ none ∧ after (.dieUp (ask .pf0 0x030)) u (fun t => t.pw.rising == some 6 && t.pw.upQueue == diesToRise u 0x030
           && (hget t powerPage).cmd == some (cmdOf u 1 (ask .pf0 0x030))) = true)) := by decide +kernel

theorem test_lockstep_in_boot : (∀ s ∈ [{ hub with pw := { hub.pw with mode := .booting, phase := .cores } }, { hub with bt := { hub.bt with running := false } }],
    coresCompare s = true ∧ after .lockstepMismatch s (fun t => begins s t 3) = true) := by decide +kernel

theorem test_epoch_premises : (let s := { wanting with ck := { flow.ck with dt := 1000000056 } }
    protRuns s = true ∧ duePeriod 64 s.we.lastEpoch s = true ∧ 14 ≤ s.ck.dt % 64 / 4
      ∧ (let u := { s with we := { s.we with lastEpoch := some 1000000056 } }
         grantedNow u = true ∧ after (.creditRequest 191 [(31, 1)]) u (fun t => Assoc.get t.we.requests 191 == some [(31, 1)]
           && t.we.late == u.we.late) = true))
    ∧ protRuns flow = true := by decide +kernel

theorem test_aux_enters : (let s := rset auxPage Reg.aux.DEMAND 1 (head auxPage (fun h => { h with en := true, allotReq := 10, grant := 10 })
      { flow with we := { flow.we with ramp := [auxPage], room := 100 } })
    auxPage ∈ s.we.ramp ∧ (atV48 s (hget s auxPage).allotReq : Rat) ≤ s.we.room ∧ auxGrant s ≠ 0 ∧ offline s auxPage = false
      ∧ draining s auxPage = false ∧ demanded s 0 = true ∧ chState s 0 = 0
      ∧ after (.rampRoomEnable auxPage) s (fun t => chState t 0 == 1 && chState t 1 == chState s 1 && t.we.room == 90) = true)
    ∧ (let s := head sitePage (fun h => { h with allotReq := 10, grant := 10, en := true }) { flow with we := { flow.we with ramp := [sitePage], room := 100 } }
       sitePage ∈ s.we.ramp ∧ after (.rampRoomEnable sitePage) s (fun t => t.we.ramp.isEmpty && t.pw == s.pw && t.jb == s.jb && t.ev == s.ev) = true)
    ∧ (hget flow auxPage).phase ≠ .inReset := by decide +kernel

theorem test_vf_enable_in_recovery : (let s := rset bootPage Reg.boot.RECOVERY 1 hub
    recovery s = true ∧ after (.pcieConfigWrite 0 (.vfEnable true)) s (fun t => t == s) = true) := by decide +kernel

/-- The worked example of chapter 14: object 7 of group 0x5A31 is signalled by device 0 to device 1. -/
def wireH : NerHdr :=
  { op := .signal, groupTag := 0x5A31, run := 2, srcDev := 0, dstDev := 1, space := 0, die := 0, last := false, seq := 0x1F40, ackSeq := 0xB12
    creditReq := 0, creditRsp := 0, creditCtl := 0, tag := 3, address := 0, obj := 7, act := false, value := 1 }

theorem test_header_octets : headerBytes wireH 0 = beBytes 40 0x10025A3100000002010000000000_1F4000000B1200000000000300000007000000000001_00000000
    ∧ headerPlain wireH = true ∧ headerOf (headerBytes wireH 0) = some (wireH, 0)
    ∧ (let w : NerHdr := { wireH with op := .write, space := 1, die := 11, last := true, address := 0x123456789ABCDEF0, obj := 0, value := 0 }
       headerPlain w = true ∧ ((headerBytes w 256).drop 8).take 4 = [1, 0x6E, 1, 0] ∧ headerOf (headerBytes w 256) = some (w, 256)) := by decide +kernel

theorem test_fabric : hops 0 11 = 5 ∧ route 0 11 = [1, 2, 3, 7, 11] ∧ hops 7 4 = 3 ∧ hops 5 5 = 0 ∧ route 9 2 = [10, 6, 2]
    ∧ portLink 3 1 = .nerius 1 ∧ portLink 1 0 = .hubLane 0 ∧ portLink 0 0 = .unconnected ∧ portLink 4 0 = .die 0
    ∧ (let s := rset bridgePage Reg.bridge.WIN_BASE 55296 flow
       let d := ctrlDie 0x1B00010000
       let bs := (List.range 64).map (BitVec.ofNat 8)
       rangeOpen s 0x1B00010000 64 = true ∧ 55296 * granuleSize + 0x10000 = 0x1B00010000
         ∧ after (.bar2Write 0x10000 bs false) s (fun t => (t.en.counted.map fun x => (x.cls, x.count, x.tag == .func 0)).head? == some (16, 1, true)
             && t.en.counted.length == 1 + hops (hostEntry d) d) = true) := by decide +kernel

theorem test_lands : landAt 5 1 = .site 0 ∧ landAt 5 12 = .site 11 ∧ siteSignals.getD 11 "" = "SHED_N" ∧ landAt 5 18 = .site 17
    ∧ siteSignals.getD 17 "" = "THERM_TRIP_N" ∧ landAt 5 23 = .site 22 ∧ siteSignals.getD 22 "" = "CAN1_RXD"
    ∧ landAt 6 9 = .site 32 ∧ siteSignals.getD 32 "" = "GPIO5" ∧ landAt 8 8 = .site 79 ∧ siteSignals.getD 79 "" = "JTAG_TRST_N"
    ∧ rowName 8 = "H" ∧ rowName 20 = "AA" ∧ rowName 72 = "CT"
    ∧ landAt 8 9 = .unconnected ∧ landAt 4 25 = .v48In ∧ landAt 1 1 = .gnd ∧ landAt 11 55 = .pcie true 15 true ∧ landAt 11 56 = .pcie true 15 false
    ∧ siteSignals.length = 80 := by decide +kernel

theorem test_lands_counted : (let grid := (List.range 72).flatMap fun r => (List.range 72).map fun c => landAt (r + 1) (c + 1)
    (grid.filter (· == .v48In)).length = 96 ∧ (grid.filter (· == .unconnected)).length = 80) := by decide +kernel

theorem test_takes : portTakes treeS 1 = true ∧ portTakes gwS 4 = true ∧ portTakes gwS 5 = true ∧ portTakes (leafS 0x08000031) 11 = true
    ∧ bitAt 0x08000031 0 = true := by decide +kernel

theorem test_flr_waiters : (let w := fun (c : Client) => ({ page := bootP, client := c, act := .cmd 2 (ask c 0) .ok [] } : Waiting)
    let s := { hub with br := { hub.br with vfEnable := true }, jr := { hub.jr with deferred := [w (.vf 2), w .pf0, w (.vf 3)] } }
    linkUp s = true ∧ after (.vfFlr 2) s (fun t => (t.jr.deferred.map (·.client)) == [.pf0, .vf 3]) = true
      ∧ after .pf0Flr s (fun t => (t.jr.deferred.filter (·.client.isVf)).isEmpty) = true) := by decide +kernel

theorem test_poison : (let u := xferS 1
    let v := { u with co := { u.co with sramBad := [(coreAt 87 0x20000) / 8] } }
    after (.xfer 3 (ask .pf0 0) .ok []) v (fun t => t.out.contains (.hostPoison 3 0x1000 (xferRead v (.core 87 0x20000) 8).1)
      && rget t (dmaPage 3) Reg.bridgeDma.BYTES_DONE == 0) = true)
    ∧ after (.xfer 3 (ask .pf0 0) .ok [1, 2, 3, 4, 5, 6, 7, 8]) (xferS 0) (fun t =>
        (hostReads (xferS 0) 3 0x1000 8).all fun o => t.out.contains o) = true := by decide +kernel

/-- Without a reading of V48_IN every demand fits, and without a grant the channel goes to GRANT_OFF. -/
theorem test_aux_without_grant : (let s := head auxPage (fun h => { h with grant := 0 }) (rset powerPage Reg.powerState.V48 0 (auxS 0 0 0 0 0 0))
    accepts s auxPage 1 (ask .pf0 0x0404) = true ∧ s.we.ramp.contains auxPage = false ∧ auxGrant s = 0
      ∧ auxFits s 4 = true ∧ chState s 2 = 0 ∧ after (.auxSet (ask .pf0 0x0404)) s (fun t => finalOf t auxPage == some 0 && chState t 2 == 5) = true)
    ∧ (let s := auxS 3 0 0 0 3 0
       auxSetBad s 2 false = false ∧ after (.auxSet (ask .pf0 0x04)) s (fun t => finalOf t auxPage == some 0 && !demanded t 2 && chState t 2 == 0
         && chState t 5 == 3) = true
         ∧ (let u := auxS 0 0 0 0 3 0
            auxSetBad u 2 true = false ∧ auxFits u (maskOf 8 fun m => m == 2 || demanded u m) = true
              ∧ after (.auxSet (ask .pf0 0x0404)) u (fun t => demanded t 2 && chState t 5 == 3) = true)) := by decide +kernel

theorem test_aux_orders : (let u := { auxS 3 19500 2 3000 3 2000 with io := { (auxS 3 19500 2 3000 3 2000).io with excess := some 999999500 } }
    let s1 := setCurrents (amps 19500 3000 2000) u
    auxOver s1 = true ∧ (offOrder s1 4 ++ offOrder s1 3 ++ offOrder s1 2).head? = some 2)
    ∧ (let u := auxS 6 0 2 3000 3 2000
       let s1 := setCurrents (amps 0 3000 2000) u
       ((onOrder s1 2).find? fun n => decide (chInrush u n - chHold u n ≤ auxGrant u - auxSum s1)) = some 3) := by decide +kernel

theorem test_monitor_bit : (let s := { dualS 0 with io := { (dualS 0).io with tamp := { a := false, b := false, accepted := true, fault := true, timing := some 1000000000 } } }
    insideWindow s true = true ∧ after (.tamperAssertionAccept false) s (fun t => bitAt (rget t tamperPage Reg.tamper.MON_STAT) 1) = true)
    ∧ (let s := { dualS 0 with io := { (dualS 0).io with tamp := { ready := true, fault := true } } }
       accepts s dualPage 2 (ask .pf0 2) = true
         ∧ after (.discClear (ask .pf0 2)) s (fun t => finalOf t dualPage == some 0 && !t.io.tamp.fault && !bitAt (rget t tamperPage Reg.tamper.MON_STAT) 1)
           = true) := by decide +kernel

theorem test_camera_idle : (let s := head sitePage (fun h => { h with quiesce := true }) scS
    pipeRuns s = true ∧ takesWork s sitePage = false ∧ after (.csiFrameStart camF) s (fun t => t == s) = true)
    ∧ takesWork scS sitePage = true
    ∧ (let s := { scS with sc := { scS.sc with lastOrigin := some 900000000, lastCounter := some 6 } }
       frameLate s = true ∧ frameLate scS = false ∧ camBad (frameTimeout s) camF = false
         ∧ after (.csiFrameStart camF) s (fun t => castled t && (t.sc.pipe.map (·.num)) == [4001] && siteReg t Reg.siteChannel.FRAME_ERRS == 1) = true) := by
  decide +kernel

theorem test_telemetry_returns : (let r : SrcRun := { counter := 10, time := 500, stamp := 960000000, seen := true, failed := false, begun := true }
    let back := fun (r : SrcRun) => rset sitePage Reg.siteChannel.SRC_OK 0 (srcS r) 2
    (List.range 32).all (fun i => !sourceAged (srcS r) i) = true
      ∧ after (.telemetryRx 3 0x55 (e2eB 11 600)) (back { r with failed := true, good := 1 }) (fun t => siteReg t Reg.siteChannel.SRC_OK 2 == 1
          && (srcRun t 2).counter == 11) = true
      ∧ after (.telemetryRx 3 0x55 (e2eB 11 600)) (back { r with failed := true, good := 0 }) (fun t => siteReg t Reg.siteChannel.SRC_OK 2 == 0) = true
      ∧ after (.telemetryRx 3 0x55 (e2eB 11 600)) (back { r with aged := true }) (fun t => siteReg t Reg.siteChannel.SRC_OK 2 == 1
          && !(srcRun t 2).aged) = true) := by decide +kernel

theorem test_publish_late : (let s := publishS 3
    resultAged s = false ∧ (List.range 32).all (fun i => !sourceAged s i) = true)
    ∧ (let s := { publishS 3 with sc := { (publishS 3).sc with inForce := some 900000000 } }
       resultAged s = true ∧ after .publish s (fun t => castled t && siteReg t Reg.siteChannel.LAST_CAUSE == 9 && siteState t != 3) = true) := by
  decide +kernel

theorem test_dry_buffer_first : (let s := { recS with ev := { recS.ev with dry := [{ at_ := 5, next := 6, body := recOf 0x1001 1 }], dryLost := 2 } }
    after (.eventRaise dropEv) s (fun t => t.ev.dry == [] && t.ev.dryLost == 0 && (t.ev.intake.map (·.code)) == [0x1001, 0x700C]
      && rget t eventPage Reg.eventLog.LOST == 2) = true)
    ∧ dieTime recS 12 = recS.ck.dt ∧ recS.ev.dry = [] ∧ recS.ev.dryLost = 0 ∧ hubRuns recS = true
    ∧ keyS.ev.tamperQ = [] := by decide +kernel

theorem test_fetch_stats : (let s := busy bootP 1 (ask .pf0 5) hub
    let f := fun (seq : Nat) (s : State) (st : Nat) => after (.journalFetch .siteBus 0) (rsetC .siteBus journalPage Reg.journal.RD_SEQ_LO seq s)
      (fun t => rgetC t .siteBus journalPage Reg.journal.RD_STAT == st)
    f 1 s 0 = true ∧ f 2 s 2 = true ∧ f 0 s 1 = true
      ∧ (let u := { s with jr := { s.jr with nextSeq := 9000 } }
         1 < jOldest u ∧ f 1 u 1 = true)
      ∧ (jEntry s 1).map (fun e => (entryWords e).all (· < 2 ^ 32)) = some true ∧ jOldest s ≤ 1 ∧ s.jr.writing = none) := by decide +kernel

theorem test_waiting_ff_clear : (let w : Waiting := { page := eventPage, client := .pf0, act := .cmd 1 (ask .pf0 0) .ok [] }
    let s := { recS with ev := { recS.ev with ff := [recOf 0xA001 3] }, jr := { recS.jr with deferred := [w] } }
    hubRuns s = true ∧ tooSoon s = false ∧ gate s eventPage .pf0 1 = none ∧ tampered s = false
      ∧ jRetry s Client.pf0.index (addrOf s eventPage 0x030) 7 = none ∧ foreignSlot s .pf0 eventPage = false
      ∧ after .commandAcceptDeferred s (fun t => t.ev.ff == [] && t.jr.deferred.isEmpty && finalOf t eventPage == some 0 && t.jr.nextSeq == 2) = true
      ∧ (let v : Waiting := { w with act := .cmd 9 (ask .pf0 0) .ok [] }
         let u := { s with jr := { s.jr with deferred := [v] } }
         gate u eventPage .pf0 9 = some 7
           ∧ after .commandAcceptDeferred u (fun t => (hget t eventPage).errCode == 7 && t.jr == { u.jr with deferred := [] }
               && (cget t eventPage .pf0).result == 7) = true)) := by decide +kernel

theorem test_remote_complete : gwActive busS = true ∧ accepts busS gwPage 3 { client := .siteBus, source := .canFd, arg := 0x641, tag := 0xABCD } = true
    ∧ busS.sb.replies = [] ∧ (0x641 : Word).toNat % 16 ≤ 12
    ∧ after (.siteBusCommand (fdFrame 0x40 commandBytes) true 3) busS (fun t => t.gw == busS.gw && t.sb.replies.map (·.seq) == [some busS.jr.nextSeq])
      = true := by decide +kernel

theorem test_broadcast_nothing_waits : (List.range 12).all (fun d => !waits hub .pf0 (pageOf .dieFreq 0 d)) = true
    ∧ hubRuns hub = true ∧ hub.jr.writing = none ∧ (hget flow (freqPage 5)).quiesce = false
    ∧ (Client.isVf .pf0 && isView port.blk) = false := by decide +kernel

/-- The master of PTP, with one of whose data set nothing is better (log entry 111). -/
def masterS : State := rset timePage Reg.time.PTP_EN 1 (rset timePage Reg.time.PTP_ROLE 1 hub)
def announceM : PtpMsg := { ptpAsk .announce with rank := 0 }

theorem test_ptp_announce : ptpMasters masterS = true ∧ announceM.rank ≤ Config.ptpRank
    ∧ ∃ t, exec (.ptpMessage announceM) masterS = .next t ∧ ptpMasters t = false := by
  have m : ptpMasters masterS = true := by decide +kernel
  have r : announceM.rank ≤ Config.ptpRank := Nat.zero_le _
  have p : rbit masterS timePage Reg.time.PTP_ROLE = true := by decide +kernel
  have a : (hubRuns masterS && rbit masterS timePage Reg.time.PTP_EN && decide (announceM.domain.toNat = rget masterS timePage Reg.time.DOMAIN)
      && (announceM.udp == rbit masterS timePage Reg.time.TRANSPORT)) = true := by decide +kernel
  refine ⟨m, r, _, rfl, ?_⟩
  rw [if_pos a, if_pos m, show ptpMaster announceM masterS = masterS from rfl, ptpAnnounce, if_pos ⟨rfl, p, r⟩]
  decide +kernel

end Sys2Proof.Tests
end

section
/-! PG_CTRL written through its address (R60–R62): the write is `ctrlWrite` on the page, each row of PG_CTRL is `ctrlTake`, and
clearing DRAIN_REQ leaves a page without the request, and what its grant stands on, as they were. -/

namespace Sys2Proof.Machine

/-! ### PG_CTRL writes that reach their page -/

theorem reachesPage_of_reachesCtrl {s : State} {c : Client} {p : Page} (h : reachesCtrl s c p = true) :
    reachesPage s c p = true := by
  simp only [reachesCtrl, Bool.and_eq_true] at h
  exact h.1.1

theorem clientUp_of_reachesPage {s : State} {c : Client} {p : Page} (h : reachesPage s c p = true) :
    clientUp s c = true := by
  simp only [reachesPage, Bool.and_eq_true] at h
  exact h.1.1

/-- A PG_CTRL access that reaches its page takes effect at once. -/
theorem ctrlAccess_takes {s : State} {c : Client} {p : Page} (h : reachesCtrl s c p = true) (a : Access)
    (f : State → State) : inOrder c p a (ownedWrite c p 0x008 f) s = f s := by
  rw [inOrder_takes (reachesPage_of_reachesCtrl h), ownedWrite_takes h]

/-- A write of all four bytes at the address of PG_CTRL writes the register as a whole (R60). -/
theorem exec_registerWrite_ctrl {s : State} {c : Client} {a : BitVec 26} {p : Page} (hd : a.toNat / 2 ^ 22 ≠ 15)
    (ho : a.toNat % 4096 = 0x008) (hr : reachesCtrl s c p = true) (hp : placeOf s c a.toNat = .page p) (v : Word) :
    exec (.registerWrite c a 15#4 v) s = .next (ctrlWrite p v.toNat s) := by
  have hu : clientUp s c = true := clientUp_of_reachesPage (reachesPage_of_reachesCtrl hr)
  have halign : a.toNat % 4 = 0 := by omega
  have hw : regWrite c p 0x008 v.toNat = ownedWrite c p 0x008 (ctrlWrite p v.toNat) := rfl
  simp only [exec, execRegisterWrite, hu, hd, hp, ho, halign, hw, ctrlAccess_takes hr, decide_false, Bool.and_false,
    Bool.not_true, Bool.false_eq_true, if_false]
  rfl

section Rows

variable {s : State} {c : Client} {p : Page}

theorem exec_resetReq (h : reachesCtrl s c p = true) : exec (.resetReq c p) s = .next (resetBlock p s) :=
  congrArg Host.Outcome.next (ctrlAccess_takes h _ _)

theorem exec_drainReq (h : reachesCtrl s c p = true) : exec (.drainReq c p) s = .next (drainBlock p s) :=
  congrArg Host.Outcome.next (ctrlAccess_takes h _ _)

theorem exec_quiesceReq (h : reachesCtrl s c p = true) (on : Bool) :
    exec (.quiesceReq c p on) s = .next (quiesceBlock p on s) :=
  congrArg Host.Outcome.next (ctrlAccess_takes h _ _)

theorem exec_blockDisable (h : reachesCtrl s c p = true) : exec (.blockDisable c p) s = .next (disableBlock p s) :=
  congrArg Host.Outcome.next (ctrlAccess_takes h _ _)

theorem exec_blockEnable (h : reachesCtrl s c p = true) : exec (.blockEnable c p) s = .next (enableBlock p s) :=
  congrArg Host.Outcome.next (ctrlAccess_takes h _ _)

end Rows

/-! ### A header that keeps EN -/

/-- The site channel is enabled by EN of its page and its fuse alone (R539, R575). -/
theorem scEnabled_hset {s : State} {p : Page} {h : Header} (he : h.en = (hget s p).en) :
    scEnabled (hset p h s) = scEnabled s := by
  by_cases hp : p = hubPage .siteChannel
  · subst hp; simp [scEnabled, he]
  · simp [scEnabled, hget_hset_other hp]

/-- A client reaches PG_CTRL whatever the page's header holds beside EN. -/
theorem reachesCtrl_hset {s : State} {p : Page} {h : Header} (he : h.en = (hget s p).en) (c : Client) (q : Page) :
    reachesCtrl (hset p h s) c q = reachesCtrl s c q := by
  have hpage : reachesPage (hset p h s) c q = reachesPage s c q := rfl
  simp only [reachesCtrl, hpage, hubOwns, scEnabled_hset he]

theorem reachesCtrl_quiesceBlock {s : State} {c : Client} {p : Page} (h : reachesCtrl s c p = true) (on : Bool) :
    reachesCtrl (quiesceBlock p on s) c p = true := by
  rw [quiesceBlock, hmod, reachesCtrl_hset (by rfl), h]

@[simp] theorem hget_quiesceBlock_same (p : Page) (on : Bool) (s : State) :
    hget (quiesceBlock p on s) p = { hget s p with quiesce := on } := by
  simp [quiesceBlock, hmod]

/-! ### DRAIN_REQ cleared -/

theorem clearDrain_of_not_requested {s : State} {p : Page} (hb : p.blk ≠ .stackCtrl) (hd : (hget s p).drainReq = false) :
    clearDrain p s = s := by
  have ht : togetherWith p = [p] := by unfold togetherWith; split <;> simp_all
  simp [clearDrain, ht, hd]

/-- `t` has the header of page `p`, the registers and the power state of `s`. -/
def SamePage (p : Page) (s t : State) : Prop := hget t p = hget s p ∧ t.rf = s.rf ∧ t.pw = s.pw

theorem SamePage.trans {p : Page} {s t u : State} (h : SamePage p s t) (k : SamePage p t u) : SamePage p s u :=
  ⟨k.1.trans h.1, k.2.1.trans h.2.1, k.2.2.trans h.2.2⟩

theorem samePage_hmod {p q : Page} (h : q ≠ p) (f : Header → Header) (s : State) : SamePage p s (hmod q f s) :=
  ⟨by simp [hmod, hget_hset_other h], by simp [hmod], by simp [hmod]⟩

theorem samePage_irqLevel {p q : Page} (h : q ≠ p) (b : Nat) (on : Bool) (s : State) : SamePage p s (irqLevel q b on s) :=
  ⟨hget_irqLevel_other h b on s, by simp, by simp⟩

/-- A stack controller going to its off state touches no other page. -/
theorem samePage_offState {p q : Page} (h : q ≠ p) (hq : q.blk = .stackCtrl) (s : State) : SamePage p s (offState q s) := by
  have hoff : offState q s = rampLeave q (irqLevel q 4 false (hmod q (fun h => { h with
      phase := .run, en := false, quiesce := false, drainReq := false, resetReq := false, epoch := nextEpoch h.epoch }) s)) := by
    simp only [offState, hq]
  have hramp : ∀ u, SamePage p u (rampLeave q u) := fun _ => ⟨rfl, rfl, rfl⟩
  rw [hoff]
  exact ((samePage_hmod h _ s).trans (samePage_irqLevel h 4 false _)).trans (hramp _)

/-- The pages whose drain is cleared with `p`'s are `p` itself and stack controllers (R398). -/
theorem eq_or_stackCtrl_of_mem_togetherWith {p q : Page} (h : q ∈ togetherWith p) : q = p ∨ q.blk = .stackCtrl := by
  unfold togetherWith at h
  split at h
  · simp only [List.mem_cons, List.not_mem_nil, or_false] at h
    rcases h with rfl | rfl <;> exact .inr rfl
  · exact .inl (List.mem_singleton.1 h)

/-- DRAIN_REQ written 0 leaves a page that has no such request as it was (R62), with all that its grant stands on. -/
theorem samePage_clearDrain {s : State} {p : Page} (hd : (hget s p).drainReq = false) : SamePage p s (clearDrain p s) := by
  unfold clearDrain
  refine List.foldlRecOn (motive := SamePage p s) _ _ ⟨rfl, rfl, rfl⟩ fun t ht q hq => ?_
  by_cases hqp : q = p
  · subst hqp
    simpa [ht.1, hd] using ht
  · have hstack : q.blk = .stackCtrl := (eq_or_stackCtrl_of_mem_togetherWith hq).resolve_left hqp
    split
    · exact ht
    · split
      · exact ht.trans (samePage_offState hqp hstack t)
      · exact ht.trans (samePage_hmod hqp _ t)

/-- OFFLINE stands on the page's phase, the registers and the power state (R47, R63, R166). -/
theorem offline_congr {s t : State} {p : Page} (hph : (hget t p).phase = (hget s p).phase) (hrf : t.rf = s.rf)
    (hpw : t.pw = s.pw) : offline t p = offline s p := by
  have hrec : recovery t = recovery s := by unfold recovery rbit rget; rw [hrf]
  have hdie : diePowered t p.die = diePowered s p.die := by unfold diePowered rget; rw [hrf]
  have htr : transitOn t = transitOn s := by unfold transitOn; rw [hpw]
  have hhub : hubRuns t = hubRuns s := by unfold hubRuns; rw [hpw]
  unfold offline
  rw [hph, hrec, hdie, htr, hhub, hpw]

/-- GRANT_OK stands on the page's phase, request and grant, the registers and the power state (R64, R65). -/
theorem grantOk_congr {s t : State} {p : Page} (hph : (hget t p).phase = (hget s p).phase)
    (hreq : (hget t p).allotReq = (hget s p).allotReq) (hgr : (hget t p).grant = (hget s p).grant) (hrf : t.rf = s.rf)
    (hpw : t.pw = s.pw) : grantOk t p = grantOk s p := by
  have hcost : atV48 t (hget s p).allotReq = atV48 s (hget s p).allotReq := by unfold atV48 v48 rget; rw [hrf]
  unfold grantOk
  rw [hreq, hgr, hcost, offline_congr hph hrf hpw]

/-! ### What each PG_CTRL value does -/

theorem ctrlWrite_reset {v : Nat} (h : bitAt v 3 = true) (p : Page) (s : State) : ctrlWrite p v s = resetBlock p s := by
  simp [ctrlWrite, h]

theorem ctrlWrite_drain {v : Nat} (h3 : bitAt v 3 = false) (h2 : bitAt v 2 = true) (h : v % 4 ≠ 0) (p : Page) (s : State) :
    ctrlWrite p v s = drainBlock p s := by
  simp [ctrlWrite, h3, h2, h]

theorem ctrlWrite_quiesce_en {v : Nat} (h : v % 16 = 3) (p : Page) (s : State) :
    ctrlWrite p v s = quiesceBlock p true (clearDrain p s) := by
  simp [ctrlWrite, bitAt, show v / 8 % 2 = 0 by omega, show v / 4 % 2 = 0 by omega, show v / 2 % 2 = 1 by omega,
    show v % 2 = 1 by omega]

theorem ctrlWrite_quiesce {v : Nat} (h : v % 16 = 2) (p : Page) (s : State) :
    ctrlWrite p v s = disableBlock p (quiesceBlock p true (clearDrain p s)) := by
  simp [ctrlWrite, bitAt, show v / 8 % 2 = 0 by omega, show v / 4 % 2 = 0 by omega, show v / 2 % 2 = 1 by omega,
    show v % 2 = 0 by omega]

theorem ctrlWrite_en {v : Nat} (h : v % 16 = 1) (p : Page) (s : State) :
    ctrlWrite p v s = enableBlock p (quiesceBlock p false (clearDrain p s)) := by
  simp [ctrlWrite, bitAt, show v / 8 % 2 = 0 by omega, show v / 4 % 2 = 0 by omega, show v / 2 % 2 = 0 by omega,
    show v % 2 = 1 by omega]

theorem enableBlock_noGrant {s : State} {p : Page} (he : (hget s p).en = false) (hg : grantOk s p = false) :
    enableBlock p s = pgErr p Code.noGrant s := by
  simp [enableBlock, he, hg]

/-- EN alone, without a grant: EN stays 0 and the page records NO_GRANT (R61). -/
theorem ctrlWrite_en_noGrant {s : State} {p : Page} {v : Nat} (h : v % 16 = 1) (he : (hget s p).en = false)
    (hd : (hget s p).drainReq = false) (hg : grantOk s p = false) :
    (hget (ctrlWrite p v s) p).en = false ∧ (hget (ctrlWrite p v s) p).errCode = Code.noGrant := by
  obtain ⟨hhdr, hrf, hpw⟩ := samePage_clearDrain hd
  have he' : (hget (quiesceBlock p false (clearDrain p s)) p).en = false := by simp [hhdr, he]
  have hg' : grantOk (quiesceBlock p false (clearDrain p s)) p = false :=
    (grantOk_congr (t := quiesceBlock p false (clearDrain p s)) (by simp [hhdr]) (by simp [hhdr]) (by simp [hhdr])
      hrf hpw).trans hg
  rw [ctrlWrite_en h, enableBlock_noGrant he' hg', hget_pgErr_same]
  exact ⟨he', rfl⟩

/-- Settles O7: a PG_CTRL write is `ctrlWrite`, whose branch for the highest request bit is the row of that bit alone. -/
theorem controlWriteTakesHighestRequest : Obligations.ControlWriteTakesHighestRequest := by
  intro c a v p s hd ho hr hp
  simp only [exec_registerWrite_ctrl hd ho hr hp]
  refine ⟨fun h3 => ?reset, fun h3 h2 hlow => ?drain, fun hv hdr hb => ?quiesceEn, fun hv hdr hb => ?quiesce,
    fun hv hdr hb => ?en, fun hv he hdr hg => ⟨_, rfl, ctrlWrite_en_noGrant hv he hdr hg⟩⟩
  case reset => rw [ctrlWrite_reset h3, exec_resetReq hr]
  case drain => rw [ctrlWrite_drain h3 h2 hlow, exec_drainReq hr]
  case quiesceEn => rw [ctrlWrite_quiesce_en hv, clearDrain_of_not_requested hb hdr, exec_quiesceReq hr]
  case quiesce =>
    rw [ctrlWrite_quiesce hv, clearDrain_of_not_requested hb hdr]
    exact (exec_blockDisable (reachesCtrl_quiesceBlock hr true)).symm
  case en =>
    rw [ctrlWrite_en hv, clearDrain_of_not_requested hb hdr]
    exact (exec_blockEnable (reachesCtrl_quiesceBlock hr false)).symm

end Sys2Proof.Machine
end

section
/-! The end of a command (R88): its final code in the journal. -/

namespace Sys2Proof.Machine

/-! ### The final code of a command (R88) -/

/-- The slots alone say which entry stands. -/
@[simp] theorem jEntry_settled (s : State) (u : List JEntry) (c : List Nat) (q : Nat) :
    jEntry { s with jr := { s.jr with unsettled := u, committed := c } } q = jEntry s q := rfl

/-- A command whose slot still holds its number: the code stands in RESULT of its entry. -/
theorem jFinish_of_entry {s : State} {e x : JEntry} (h : jEntry s e.seq = some x) (code : Nat) :
    (jFinish e code s).jr.slots = Assoc.set s.jr.slots (e.seq % 8192) { x with result := code }
      ∧ (jFinish e code s).jr.nextSeq = s.jr.nextSeq := by
  simp [jFinish, h]

/-- A command whose slot has gone to a later number: a COMPLETION takes the next number. -/
theorem jFinish_of_no_entry {s : State} {e : JEntry} (h : jEntry s e.seq = none) (code : Nat) :
    (jFinish e code s).jr.nextSeq = s.jr.nextSeq + 1
      ∧ (jFinish e code s).jr.slots = Assoc.set s.jr.slots (s.jr.nextSeq % 8192)
          { e with seq := s.jr.nextSeq, time := s.ck.dt, kind := .completion, result := code,
                   value := e.seq % 2 ^ 32, arg := e.seq / 2 ^ 32 % 32768 } := by
  simp [jFinish, h, jWrite]

/-- What the page that executes `r` tells the journal of it (R84). -/
def runEntry (s : State) (p : Page) (r : CmdRun) (code : Nat) : JEntry :=
  { seq := r.seq, time := s.ck.dt, addr := addrOf s p 0x030, result := code, func := r.client.index, src := r.source.code,
    kind := .command, value := r.opcode, arg := r.arg, tag := r.tag }

/-- Of all that the end of a command does, `jFinish` alone touches the journal. -/
theorem finishCmd_jr {s : State} {p : Page} {r : CmdRun} (h : (hget s p).cmd = some r) (code : Nat) :
    (finishCmd p code s).jr = (jFinish (runEntry s p r code) code (hset p { hget s p with cmd := none } s)).jr := by
  simp only [finishCmd, h]
  split <;> simp [runEntry]

/-- COMMAND_COMPLETE with the command's code at hand ends the command. -/
theorem exec_commandComplete {s : State} {p : Page} {r : CmdRun} {code : Nat} (hu : hubRuns s = true)
    (hc : (hget s p).cmd = some r) (hf : r.final = some code) : exec (.commandComplete p) s = .next (finishCmd p code s) := by
  simp [exec, execCommandComplete, hu, hc, hf]

/-- Settles O8: COMMAND_COMPLETE is `finishCmd`, whose part in the journal is `jFinish`. -/
theorem finalCodeReachesEntryOrCompletion : Obligations.FinalCodeReachesEntryOrCompletion := by
  intro p r code s hu hc hf
  refine ⟨_, exec_commandComplete hu hc hf, fun e he => ?entry, fun hn => ?completion⟩ <;> rw [finishCmd_jr hc]
  case entry => exact jFinish_of_entry (e := runEntry s p r code) (s := hset p _ s) he code
  case completion => exact jFinish_of_no_entry (e := runEntry s p r code) (s := hset p _ s) hn code

end Sys2Proof.Machine
end

section
/-! A reset of the journal page (R95): it clears what the page shows of the journal, and nothing that a page reset sets off,
down to the castling of the site channel with its frames through the gateway, reaches the journal or its page. -/

namespace Sys2Proof.Machine

/-! ### Association lists under a filter -/

section FilteredLists

variable {κ α : Type} [DecidableEq κ] {p : κ × α → Bool} {k : κ}

theorem Assoc.get_filter_kept (h : ∀ v, p (k, v) = true) (m : List (κ × α)) :
    Assoc.get (m.filter p) k = Assoc.get m k := by
  induction m with
  | nil => rfl
  | cons x m ih =>
    obtain ⟨k', v⟩ := x
    by_cases hk : k' = k
    · subst hk; simp [Assoc.get, h]
    · by_cases hp : p (k', v) = true <;> simp [Assoc.get, hk, hp, ih]

theorem Assoc.get_filter_dropped (h : ∀ v, p (k, v) = false) (m : List (κ × α)) : Assoc.get (m.filter p) k = none := by
  induction m with
  | nil => rfl
  | cons x m ih =>
    obtain ⟨k', v⟩ := x
    by_cases hk : k' = k
    · subst hk; simp [h, ih]
    · by_cases hp : p (k', v) = true <;> simp [Assoc.get, hk, hp, ih]

theorem Assoc.filter_set_dropped (h : ∀ v, p (k, v) = false) (v : α) (m : List (κ × α)) :
    (Assoc.set m k v).filter p = m.filter p := by
  induction m with
  | nil => simp [Assoc.set, h]
  | cons x m ih =>
    obtain ⟨k', w⟩ := x
    by_cases hk : k' = k
    · subst hk; simp [Assoc.set, h]
    · simp [Assoc.set, hk, List.filter_cons, ih]

end FilteredLists

/-! ### The registers of the journal page -/

/-- The stored fields of the journal page, every client's. -/
def journalRegs (rf : List (RegKey × Nat)) : List (RegKey × Nat) := rf.filter fun x => decide (x.1.page = journalPage)

/-- What a client reads of the journal page stands among the page's stored fields. -/
theorem rgetC_journalPage (s : State) (d : Client) (f : Fld) (i : Nat) :
    rgetC s d journalPage f i = Assoc.getD (journalRegs s.rf) (regKey journalPage f i (d.index + 1)) (f.resetAt i) := by
  simp only [rgetC, Assoc.getD, journalRegs]
  rw [Assoc.get_filter_kept fun v => by simp [regKey]]

/-- A field of another page is no field of the journal page. -/
theorem journalRegs_rset {p : Page} (h : p ≠ journalPage) (f : Fld) (v i : Nat) (s : State) :
    journalRegs (rset p f v s i).rf = journalRegs s.rf :=
  Assoc.filter_set_dropped (fun _ => by simp [regKey, h]) _ _

/-- A page's field whose place no kept field shares is back at its reset value (R63). -/
theorem rgetC_rclear {p : Page} {keep : Fld → Bool} {f : Fld} {i : Nat}
    (h : ∀ g ∈ regsOf p.blk, keep g = true → ∀ j < g.count, g.off + g.stride * j ≠ f.off + f.stride * i)
    (d : Client) (s : State) : rgetC (rclear p keep s) d p f i = f.resetAt i := by
  unfold rgetC rclear Assoc.getD
  rw [Assoc.get_filter_dropped]
  · rfl
  · intro v
    simp only [regKey, decide_true, Bool.true_and, Bool.not_eq_false', List.all_eq_true, Bool.not_eq_true', Bool.and_eq_false_iff]
    intro g hg
    by_cases hk : keep g = true
    · exact .inr (by simpa using h g hg hk)
    · exact .inl (.inl (by simpa using hk))

/-- What a reset keeps of the journal page lies before the places of RD_SEQ: the numbers that follow the journal (R93). -/
theorem off_of_resetKeeps_journalPage :
    ∀ g ∈ regsOf journalPage.blk, resetKeeps journalPage g = true → ∀ j < g.count, g.off + g.stride * j < 0x050 := by
  decide

theorem rgetC_rclear_journalPage {f : Fld} (h : 0x050 ≤ f.off) (i : Nat) (d : Client) (s : State) :
    rgetC (rclear journalPage (resetKeeps journalPage) s) d journalPage f i = f.resetAt i :=
  rgetC_rclear (fun g hg hk j hj => by have := off_of_resetKeeps_journalPage g hg hk j hj; omega) d s

/-- The pages that the castling of the site channel and the gateway write beside the recorder's. -/
@[simp] theorem ne_journalPage : auxPage ≠ journalPage ∧ weirPage ≠ journalPage ∧ sitePage ≠ journalPage
    ∧ castlePage ≠ journalPage ∧ gwPage ≠ journalPage ∧ hubPage .eventLog ≠ journalPage := by decide

@[simp] theorem portPage_ne_journalPage (p : Nat) : portPage p ≠ journalPage := by
  unfold portPage
  (repeat' split) <;> simp [journalPage, hubPage]

/-! ### What reaches neither the journal nor its page -/

/-- `t` has the journal of `s` and the stored fields of its page. -/
@[simp] abbrev JournalKept (s t : State) : Prop := t.jr = s.jr ∧ journalRegs t.rf = journalRegs s.rf

theorem journalKept_foldl {α : Type} {f : State → α → State} (h : ∀ s a, JournalKept s (f s a)) (l : List α) (s : State) :
    JournalKept s (l.foldl f s) :=
  ⟨foldl_keeps State.jr f (fun s a => (h s a).1) l s,
    foldl_keeps (fun s => journalRegs s.rf) f (fun s a => (h s a).2) l s⟩

@[simp] theorem journalKept_rset {p : Page} (h : p ≠ journalPage) (f : Fld) (v i : Nat) (s : State) :
    JournalKept s (rset p f v s i) := ⟨rfl, journalRegs_rset h f v i s⟩

@[simp] theorem journalKept_radd {p : Page} (h : p ≠ journalPage) (f : Fld) (n i : Nat) (s : State) :
    JournalKept s (radd p f n s i) := journalKept_rset h f _ i s

@[simp] theorem journalKept_rflag {p : Page} (h : p ≠ journalPage) (f : Fld) (b : Bool) (i : Nat) (s : State) :
    JournalKept s (rflag p f b s i) := journalKept_rset h f _ i s

theorem JournalKept.trans {s t u : State} (h : JournalKept s t) (k : JournalKept t u) : JournalKept s u :=
  ⟨k.1.trans h.1, k.2.trans h.2⟩

theorem journalKept_ite {c : Prop} [Decidable c] {s t u : State} (ht : JournalKept s t) (hu : JournalKept s u) :
    JournalKept s (if c then t else u) := by
  split <;> assumption

/-! #### The recorder (R608–R618) -/

@[simp] theorem journalKept_lost (n : Nat) (s : State) : JournalKept s (lost n s) := by
  simp [lost]

@[simp] theorem journalKept_enqueueRec (r : Rec) (s : State) : JournalKept s (enqueueRec r s) := by
  simp only [enqueueRec]
  (repeat' split) <;> simp

@[simp] theorem journalKept_foldInto (u : Nat) (s : State) : JournalKept s (foldInto u s) := by
  simp only [foldInto]
  split <;> simp

@[simp] theorem journalKept_limitEvent (r : Rec) (t next : Nat) (s : State) : JournalKept s (limitEvent r t next s) := by
  simp only [limitEvent]
  (repeat' split) <;> simp

@[simp] theorem journalKept_dryTake (s : State) : JournalKept s (dryTake s) := by
  simp only [dryTake]
  refine JournalKept.trans ?lost (journalKept_foldl (fun t x => ?each) _ _)
  case lost => exact journalKept_ite ⟨rfl, rfl⟩ (by simp)
  case each => exact journalKept_limitEvent _ _ _ t

@[simp] theorem journalKept_dryFirst (s : State) : JournalKept s (dryFirst s) := by
  unfold dryFirst
  split <;> simp

@[simp] theorem journalKept_raiseSev (code sev die inst a b : Nat) (s : State) :
    JournalKept s (raiseSev code sev die inst a b s) := by
  simp only [raiseSev]
  (repeat' split) <;> simp

@[simp] theorem journalKept_raise (code die inst a b : Nat) (s : State) : JournalKept s (raise code die inst a b s) :=
  journalKept_raiseSev ..

/-! #### The aux channels (R516–R528) -/

@[simp] theorem journalKept_alertSettle (s : State) : JournalKept s (alertSettle s) := by
  simp only [alertSettle]
  (repeat' split) <;> simp

@[simp] theorem journalKept_setCh (n v : Nat) (s : State) : JournalKept s (setCh n v s) := by
  simp [setCh]

@[simp] theorem journalKept_chOff (n : Nat) (s : State) : JournalKept s (chOff n s) := by
  simp [chOff, setAuxRun]

@[simp] theorem journalKept_chStart (n : Nat) (s : State) : JournalKept s (chStart n s) := by
  unfold chStart
  (repeat' split) <;> simp [chGrantOff, startInrush, setAuxRun]

@[simp] theorem journalKept_setDemand (n : Nat) (on : Bool) (s : State) : JournalKept s (setDemand n on s) := by
  simp [setDemand]

@[simp] theorem journalKept_ownerDemand (n : Nat) (on : Bool) (s : State) : JournalKept s (ownerDemand n on s) := by
  unfold ownerDemand
  (repeat' split) <;> simp

/-! #### The Weir (R185, R210) -/

@[simp] theorem journalKept_weirSettle (was : Nat) (s : State) : JournalKept s (weirSettle was s) := by
  simp only [weirSettle, retryAll]
  (repeat' split) <;> simp

theorem journalKept_withCaps {f : State → State} {s : State} (h : JournalKept s (f s)) : JournalKept s (withCaps f s) := by
  simp [withCaps, h]

/-! #### The gateway (R460–R475) -/

@[simp] theorem journalKept_gwDrop (p k : Nat) (s : State) : JournalKept s (gwDrop p k s) := by
  simp only [gwDrop]
  (repeat' split) <;> simp

@[simp] theorem journalKept_slowDrop (s : State) : JournalKept s (slowDrop s) := by
  simp [slowDrop]

theorem journalKept_bucketTake {key rate burst cost : Nat} {s t : State} (h : bucketTake key rate burst cost s = some t) :
    JournalKept s t := by
  simp only [bucketTake] at h
  split at h <;> cases h
  exact ⟨rfl, rfl⟩

/-- The body takes the place of the bare name: to compare `limitFrame` applied with its body, the kernel would evaluate the bucket's
product by a million. -/
theorem journalKept_limitFrame {n cls len c : Nat} {s t : State} (h : limitFrame n cls len s = some (c, t)) :
    JournalKept s t := by
  have body : limitFrame = limitFrame := rfl
  conv at body => rhs; delta limitFrame
  rw [body] at h
  dsimp only at h
  split at h
  next u hu => cases h; exact journalKept_bucketTake hu
  · split at h <;> cases h
    exact ⟨rfl, rfl⟩

@[simp] theorem journalKept_pushOut (c n fuel : Nat) (s : State) : JournalKept s (pushOut c n fuel s) := by
  induction fuel generalizing s with
  | zero => simp [pushOut]
  | succ fuel ih =>
    unfold pushOut
    (repeat' split) <;> simp [ih]

@[simp] theorem journalKept_canLoad (q : Nat) (s : State) : JournalKept s (canLoad q s) := by
  unfold canLoad
  (repeat' split) <;> simp [markHeld, setRound]

@[simp] theorem journalKept_enqueueCopy (x : GwCopy) (s : State) : JournalKept s (enqueueCopy x s) := by
  simp only [enqueueCopy]
  (repeat' split) <;> simp [markHeld]

theorem journalKept_slowRoom {c : Nat} {s t : State} (h : slowRoom c s = some t) : JournalKept s t := by
  unfold slowRoom at h
  split at h
  · cases h; exact ⟨rfl, rfl⟩
  · split at h
    · cases h
    · obtain ⟨v, -, rfl⟩ := Option.map_eq_some_iff.1 h
      simp

@[simp] theorem journalKept_admitCells (x : GwCopy) (s : State) : JournalKept s (admitCells x s) := by
  simp only [admitCells]
  (repeat' split) <;> simp

@[simp] theorem journalKept_admitCopy (x : GwCopy) (s : State) : JournalKept s (admitCopy x s) := by
  unfold admitCopy
  split
  · split
    next t ht => simp [journalKept_slowRoom ht]
    · simp
  · simp

theorem journalKept_canSign {n i : Nat} {f g : CanFrame} {s t : State} (h : canSign n i f s = some (g, t)) :
    JournalKept s t := by
  simp only [canSign] at h
  split at h
  · cases h
  · split at h <;> cases h
    exact ⟨rfl, rfl⟩

theorem journalKept_canVerify {n i : Nat} {f : CanFrame} {b : List Byte} {s t : State} (h : canVerify n i f s = some (b, t)) :
    JournalKept s t := by
  unfold canVerify at h
  split at h
  · cases h
  · obtain ⟨v, -, hv⟩ := Option.map_eq_some_iff.1 h
    cases hv
    exact ⟨rfl, rfl⟩

/-- The frame of a CAN copy, signed with a new counter value or padded (R466, R503). -/
theorem journalKept_canFrame {signed : Prop} [Decidable signed] {n i : Nat} {f g : CanFrame} {o : Option (List Byte)}
    {mk : List Byte → CanFrame} {s t : State}
    (h : (if signed then canSign n i f s else o.map fun p => (mk p, s)) = some (g, t)) : JournalKept s t := by
  split at h
  · exact journalKept_canSign h
  · obtain ⟨v, -, hv⟩ := Option.map_eq_some_iff.1 h
    cases hv
    exact ⟨rfl, rfl⟩

@[simp] theorem journalKept_canCopy (x : GwCopy) (s : State) : JournalKept s (canCopy x s) := by
  simp only [canCopy]
  refine journalKept_ite (by simp) ?_
  split
  · simp
  refine journalKept_ite (by simp) ?_
  split
  · simp
  next c t hmade =>
    have ht := journalKept_canFrame hmade
    (repeat' split) <;> simp [ht, removeCopy]

@[simp] theorem journalKept_egressCopy (q cls route : Nat) (ws : List Nat) (f : GwFrame) (s : State) :
    JournalKept s (egressCopy q cls route ws f s) := by
  simp only [egressCopy]
  (repeat' split) <;> simp

@[simp] theorem journalKept_makeCopies (cls route : Nat) (ws : List Nat) (f : GwFrame) (s : State) :
    JournalKept s (makeCopies cls route ws f s) := by
  unfold makeCopies
  split
  · simp
  · exact journalKept_foldl (fun s q => journalKept_egressCopy q cls route ws f s) _ s

@[simp] theorem journalKept_authThenCopies (cls route : Nat) (ws : List Nat) (f : GwFrame) (s : State) :
    JournalKept s (authThenCopies cls route ws f s) := by
  simp only [authThenCopies]
  split
  · simp
  split
  · simp
  split
  · simp
  next p t hp =>
    have ht : JournalKept s t := by
      split at hp
      · exact journalKept_canVerify hp
      · cases hp
    simp [ht]

@[simp] theorem journalKept_routeCount (r : Nat) (s : State) : JournalKept s (routeCount r s) := ⟨rfl, rfl⟩

@[simp] theorem journalKept_gwFrame (f : GwFrame) (s : State) : JournalKept s (gwFrame f s) := by
  simp only [gwFrame]
  generalize treeWalk _ _ _ _ _ = found
  generalize hu : (if found.isNone then radd gwPage Reg.gateway.TREE_LOOPS 1 s else s) = u
  have hk : JournalKept s u := hu ▸ journalKept_ite (by simp) ⟨rfl, rfl⟩
  refine journalKept_ite (by simp [hk]) (journalKept_ite (by simp [hk]) (journalKept_ite ?limited (by simp [hk])))
  case limited =>
    split
    · simp [hk]
    next cls t ht => simp [journalKept_limitFrame ht, hk]

@[simp] theorem journalKept_gwInject (port msg : Nat) (payload : List Byte) (s : State) :
    JournalKept s (gwInject port msg payload s) := by
  unfold gwInject
  split <;> simp

/-! #### Castling (R562–R566) -/

@[simp] theorem journalKept_siteDemands (on : Nat → Bool) (s : State) : JournalKept s (siteDemands on s) :=
  journalKept_foldl (fun s n => by split <;> simp) _ s

@[simp] theorem journalKept_applyTable (s : State) : JournalKept s (applyTable s) := by
  simp only [applyTable]
  split <;> simp

@[simp] theorem journalKept_injectTablePs (s : State) : JournalKept s (injectTablePs s) := by
  simp [injectTablePs]

@[simp] theorem journalKept_setSite (v : Nat) (s : State) : JournalKept s (setSite v s) := by
  simp [setSite]

@[simp] theorem journalKept_castleEnter (bit : Nat) (s : State) : JournalKept s (castleEnter bit s) := by
  simp only [castleEnter]
  (repeat' split) <;> simp [withCaps]

@[simp] theorem journalKept_powerCause (s : State) : JournalKept s (powerCause s) := by
  unfold powerCause
  split <;> simp

@[simp] theorem journalKept_sitePowerCheck (s : State) : JournalKept s (sitePowerCheck s) := by
  unfold sitePowerCheck
  (repeat' split) <;> simp

/-! ### RESET_REQ on the journal page (R95) -/

/-- The start of a reset leaves the journal, and of the page's fields what `rclear` leaves. -/
theorem startReset_journalPage (s : State) :
    (startReset journalPage s).jr = s.jr
      ∧ journalRegs (startReset journalPage s).rf = journalRegs (rclear journalPage (resetKeeps journalPage) s).rf := by
  obtain ⟨h, hstart⟩ : ∃ h, startReset journalPage s = sitePowerCheck (withCaps (requestAllot journalPage 0)
      (rampLeave journalPage (rclear journalPage (resetKeeps journalPage) (hset journalPage h s)))) := ⟨_, rfl⟩
  have hcaps : ∀ u, JournalKept u (withCaps (requestAllot journalPage 0) u) := fun _ => journalKept_withCaps ⟨rfl, rfl⟩
  have hcleared : (rclear journalPage (resetKeeps journalPage) (hset journalPage h s)).rf
      = (rclear journalPage (resetKeeps journalPage) s).rf := rfl
  simp [hstart, hcaps, rampLeave, hcleared]

/-- The journal page drains alone (R643): the reset of a page that runs with nothing executing starts at once. -/
theorem startDrain_journalPage {s : State} (hr : (hget s journalPage).phase = .run) (hc : (hget s journalPage).cmd = none)
    (hq : (hget s journalPage).resetReq = true) : startDrain journalPage s
      = startReset journalPage (rampLeave journalPage
          (hmod journalPage (fun h => { h with phase := .draining, since := s.ck.dt }) s)) := by
  have hdr : hget (rampLeave journalPage (hmod journalPage (fun h => { h with phase := .draining, since := s.ck.dt }) s))
      journalPage = { hget s journalPage with phase := .draining, since := s.ck.dt } := hget_hset_same ..
  have hhook : ∀ u, drainHook journalPage u = u := fun _ => rfl
  have halone : pageAlone journalPage.blk = true := by decide
  simp [startDrain, completeDrain, abortCmd, hr, hdr, hc, hq, hhook, halone]

theorem resetBlock_journalPage {s : State} (hr : (hget s journalPage).phase = .run) (hc : (hget s journalPage).cmd = none) :
    ∃ u, resetBlock journalPage s = startReset journalPage u ∧ u.jr = s.jr := by
  have hdr : ∀ f, hget (hmod journalPage f s) journalPage = f (hget s journalPage) := fun _ => hget_hset_same ..
  have hreset : resetBlock journalPage s
      = startDrain journalPage (hmod journalPage (fun h => { h with resetReq := true }) s) := by
    have htogether : togetherWith journalPage = [journalPage] := rfl
    simp [resetBlock, htogether, hr]
  rw [hreset, startDrain_journalPage (by rw [hdr]; exact hr) (by rw [hdr]; exact hc) (by rw [hdr])]
  exact ⟨_, rfl, rfl⟩

/-- After the start of a reset every client reads reset values from RD_SEQ on, the first per-client field of the page (R93). -/
theorem rgetC_startReset_journalPage {f : Fld} (hf : 0x050 ≤ f.off) (i : Nat) (d : Client) (s : State) :
    rgetC (startReset journalPage s) d journalPage f i = f.resetAt i := by
  rw [rgetC_journalPage, (startReset_journalPage s).2, ← rgetC_journalPage, rgetC_rclear_journalPage hf]

/-- Settles O9: the reset starts at once and takes RD_STAT and RD_W back to zero; all that follows it spares the journal. -/
theorem journalPageResetKeepsEntries : Obligations.JournalPageResetKeepsEntries := by
  intro c s hc hr hn
  obtain ⟨u, hreset, hjr⟩ := resetBlock_journalPage hr hn
  refine ⟨_, exec_resetReq hc, ?_⟩
  rw [hreset, (startReset_journalPage u).1, hjr]
  refine ⟨fun d => ⟨?stat, fun i => ?word⟩, rfl, rfl⟩
  case stat => exact rgetC_startReset_journalPage (by decide) 0 d u
  case word =>
    have hzero : Reg.journal.RD_W.resetAt i.val = 0 := by simp [Fld.resetAt, Reg.journal.RD_W]
    rw [rgetC_startReset_journalPage (by decide), hzero]

end Sys2Proof.Machine
end
